-- ==== Sys2Proof/Word.lean ====
section
/-!
DEFINITION. The words the device works with: bytes, the 64-bit word of registers and counters, and digests.
-/
namespace Sys2Proof

/-- One byte of memory, of a descriptor or of a frame. -/
abbrev Byte := BitVec 8

/-- A 64-bit word: a register, a counter, an address under computation (R5, R147). -/
abbrev Word := BitVec 64

/-- A SHA3-512 digest, read little-endian (R35). -/
abbrev Digest := BitVec 512

/-- An identity digest: the first 32 bytes of a SHA3-512 digest (R98). -/
abbrev Ident := BitVec 256

end Sys2Proof
end

