-- ==== Sys2Proof/Syntax.lean ====
section
/-!
DEFINITION. The commands of the block: one constructor of Instr for each row of spec/opcode_table.json, with the
operands that the row's rule names. The table gives the rows no bits, so a command's operands stand here as fields.
-/
namespace Sys2Proof

/-! ## Operand words of instructions -/

/-- The common vector word (Table 3 of 07) without MAJOR and the operation code. -/
structure VecWord where
  vd : BitVec 5
  va : BitVec 5
  vb : BitVec 5
  pm : BitVec 3
  z : Bool
  s : Bool
  alt : Bool
  deriving DecidableEq, Repr

/-- The conversion word (Table 14 of 07). -/
structure ConvWord where
  vd : BitVec 5
  va : BitVec 5
  src : BitVec 4
  sat : Bool
  pm : BitVec 3
  z : Bool
  sr : Bool
  dst : BitVec 4
  rsv : BitVec 2
  deriving DecidableEq, Repr

/-- The vector memory word (Table 1 of 08). FF and MODE are the row's own; `mbz` says that FF of a store, MODE of a
unit-stride form or the reserved field is not zero. -/
structure MemWord where
  vd : BitVec 5
  ra : BitVec 5
  rb : BitVec 5
  pm : BitVec 3
  z : Bool
  scale : BitVec 2
  nt : Bool
  mbz : Bool
  deriving DecidableEq, Repr

/-! ## Operands of link events -/

/-- What a received frame's header gives beside TYPE and INFO (Table 3 of 15): the port it arrives on, its LSEQ and ACK,
whether its tag verifies, and its poison bits. -/
structure RxHdr where
  port : Nat
  lseq : Nat
  ack : Nat
  tagOk : Bool
  poison : BitVec 32
  deriving DecidableEq, Repr

/-- What a peer's answers say of it, as R102 judges it: its identity digest; whether its chain verifies to the Wovik root
certificate authority; its boot certificate's SVN and slot 2 and 3 values; whether it signed its challenge and
measurements with that certificate's key (a peer without the key signs nothing, R106); the measured slots 2 and 3; its
part; and its role for the port. -/
structure PeerEvidence where
  peer : Ident
  chainOk : Bool
  svn : Nat
  cert2 : Digest
  cert3 : Digest
  keyed : Bool
  signedOk : Bool
  meas2 : Digest
  meas3 : Digest
  part : Nat
  role : Nat
  deriving DecidableEq, Repr

/-- A message of port admission (R102, R105): the peer's identity digest, which decides who initiates; a request of the
peer's turn, or the response to one of this device's, as bytes; the response that completes this device's turn, with what
the answers say; or the twin proof. -/
inductive AdmMsg where
  | hello (peer : Ident)
  | request (msg : List Byte)
  | response (msg : List Byte)
  | last (msg : List Byte) (e : PeerEvidence)
  | proof (proof : Digest)
  deriving DecidableEq, Repr

/-- A message of a key exchange (R103): an encapsulation key (`offer`) or a ciphertext, and whether the partner's transcript
signature verifies and, for a ciphertext, decapsulation succeeds. -/
structure KemMsg where
  offer : Bool
  bytes : List Byte
  ok : Bool
  deriving DecidableEq, Repr

/-- The description of a checkpoint entry that its sender gives (R438, R440): context, CKPT, RANGES, lengths of the named
ranges, and for a SEND the origin of the retained entry. -/
structure MirrorDesc where
  ctx : Nat
  ckpt : Nat
  ranges : Nat
  lens : List Nat
  origin : Option Ident
  deriving DecidableEq, Repr

/-! ## Operands of memory events -/

/-- What a read of a codeword finds (R337): nothing, a corrected error, an uncorrectable one, or an error beyond the
code's guarantee that returns wrong bytes, counted as corrected or unnoticed. A sector is named by its address / 32. -/
inductive DramErr where
  | clean
  | corrected (sector syndrome : Nat)
  | uncorrectable (sector syndrome : Nat)
  | miscorrected (sector syndrome : Nat) (bytes : List Byte)
  | undetected (sector : Nat) (bytes : List Byte)
  deriving DecidableEq, Repr

/-- The end of a channel's retraining on a stack, and what the reads of the codewords find that its buffered writes cover
in part (R339, R351). -/
structure RetrainEnd where
  stack : Nat
  finds : List DramErr
  deriving DecidableEq, Repr

/-- A place in a BAR of the function: the BAR's number and the byte offset in it. -/
structure BarPlace where
  bar : Nat
  off : Nat
  deriving DecidableEq, Repr

/-- Who makes a DRAM request: the rows of Table 2 of 12 (R329). -/
inductive Requester where
  /-- Private-cache fills: VLD and VLDFF with NT 0, matrix operands. -/
  | fill
  /-- Private-cache ownership for a VST with NT 0 that misses. -/
  | own
  /-- Queue-state and range-table reads. -/
  | table
  | hostRead
  | windowRead
  /-- VLD and VST with NT 1, DMA, COPY, collectives, CHECKPOINT's mirror traffic. -/
  | stream
  /-- Write-back of dirty lines from private caches and slices. -/
  | writeBack
  | hostWrite
  | windowWrite
  /-- Placement moves, zero-fill, scrubs, write-back of codewords, exclusion copy. -/
  | bulk
  /-- Gathers and scatters. -/
  | gather
  /-- Scalar L1 data misses and dirty evictions. -/
  | scalar
  /-- Descriptors, grid blocks, load blocks and start blocks in DRAM. -/
  | block
  deriving DecidableEq, Repr

/-- R329: whether a request takes the narrow path. -/
def Requester.narrow : Requester → Bool
  | .gather => true
  | .scalar => true
  | .block => true
  | _ => false

/-- R329: the class of a request of the normal path. -/
def Requester.cls : Requester → Nat
  | .stream => 1
  | .writeBack => 2
  | .hostWrite => 2
  | .windowWrite => 2
  | .bulk => 3
  | _ => 0

/-- A request that reaches a home slice (R326 to R329): who makes it, the core when it takes a copy of the line, the line,
its sectors, the bytes of the line that a write changes, and whether it asks for exclusive access. -/
structure SliceReq where
  who : Requester
  core : Option Nat
  line : Nat
  mask : BitVec 8
  be : BitVec 256
  write : Bool
  excl : Bool
  deriving DecidableEq, Repr

/-- An SRAM entry that is uncorrectable, or whose parity fails (R446). -/
inductive SramItem where
  | slice (sector : Nat)
  | localStore (core sector : Nat)
  | l1d (core sector : Nat)
  | accumulator (core word : Nat)
  | program (core engine word : Nat)
  | staging (sector : Nat)
  | queueState (q : Nat)
  | scalarG (core r : Nat)
  | scalarD (core r : Nat)
  | storeBuffer (core entry : Nat)
  | vector (core r : Nat)
  | predicate (core r : Nat)
  | icache (core : Nat)
  | rtb (buf key : Nat)
  | window (entry : Nat)
  | logRecord (slot : Nat)
  deriving DecidableEq, Repr


/-! ## Operands of scalar instructions -/

/-- A scalar integer function (R146): the manual names the classes add, logic, shift, compare and multiply and gives no
list of operations; this list is PRESUMED (notes/assumptions/24.md). -/
inductive IntFn where
  | add | sub | and | or | xor | sll | srl | sra | seq | slt | sltu | mul | mulh | mulhu
  deriving DecidableEq, Repr

/-- The second operand of a scalar integer instruction: rb or an immediate (Table 3 of 06). -/
inductive Opnd where
  | reg (r : BitVec 5)
  | imm (v : Word)
  deriving DecidableEq, Repr

/-- A branch: conditional, to a distance, or through a register (PRESUMED, notes/assumptions/24.md). -/
inductive BrOp where
  | eq (ra rb : BitVec 5) (words : BitVec 64)
  | ne (ra rb : BitVec 5) (words : BitVec 64)
  | lt (ra rb : BitVec 5) (words : BitVec 64)
  | ge (ra rb : BitVec 5) (words : BitVec 64)
  | ltu (ra rb : BitVec 5) (words : BitVec 64)
  | geu (ra rb : BitVec 5) (words : BitVec 64)
  | jump (rd : BitVec 5) (words : BitVec 64)
  | jumpReg (rd ra : BitVec 5) (offset : BitVec 64)
  deriving DecidableEq, Repr

/-- A scalar floating-point function on d registers. -/
inductive ScalarFn where
  | add | sub | mul | div | sqrt | min | max | abs | neg | sgnj | fma | fms | fnma | fnms
  deriving DecidableEq, Repr

/-- A scalar floating-point compare. -/
inductive ScalarCmp where
  | eq | ne | lt | le | un
  deriving DecidableEq, Repr

/-- A scalar floating-point instruction (PRESUMED, notes/assumptions/24.md): arithmetic in FP64 (`dbl`) or FP32, a compare
into a g register, or a conversion between the formats that R196 pairs, by format code. Integers lie in g registers and
formats narrower than FP32 in the low bits of a d register. -/
inductive FpOp where
  | arith (f : ScalarFn) (dbl : Bool) (rd ra rb rc : BitVec 5)
  | compare (f : ScalarCmp) (dbl : Bool) (rd ra rb : BitVec 5)
  | convert (src dst : BitVec 4) (sat : Bool) (rd ra : BitVec 5)
  deriving DecidableEq, Repr

/-- Why an instruction that reaches the head of the reorder buffer excepts (Table 8 of 06): its word is illegal, it needs
Steward level, or an exception of the matrix unit, an engine or the register file waits for the boundary. -/
inductive ExcWhy where
  | illegal
  | privilege
  | delivered
  deriving DecidableEq, Repr

/-- An access of the debug holder (R114, R515): bytes at a device physical address, a BAR0 register, or a full scan. -/
inductive DbgAccess where
  | memRead (pa n : Nat)
  | memWrite (pa : Nat) (data : List Byte)
  | regRead (off size : Nat)
  | regWrite (off size value : Nat)
  | scan
  deriving DecidableEq, Repr

/-- One constructor for each row of spec/opcode_table.json. -/
inductive Instr where
  /-- POR_N_ASSERT (R503): A fall of POR_N stops every island other than A, drives the twin outputs low, idles the port transmitters and takes the device to OFF. -/
  | porNAssert
  /-- POWER_ON_RESET (R487): Release of POR_N with the rails in range starts the boot sequence of Table 3 of Boot, measurement and attestation. -/
  | powerOnReset
  /-- WRST_N_ASSERT (R507): A low pulse of WRST_N of at least 1 µs begins a warm reset. -/
  | wrstNAssert
  /-- PERST_N_ASSERT (R487): Assertion of PERST_N begins a warm reset. -/
  | perstNAssert
  /-- WARM_RESET_RELEASE (R94): Release of the last held reset input restarts boot from step 2. -/
  | warmResetRelease
  /-- BOOT_HOLD_TIMEOUT (R466): A BOOT held by PACK_BEGIN continues to step 8 10 s after the last pack command or run. -/
  | bootHoldTimeout
  /-- THERMAL_SAMPLE (R343): Every 10 µs the always-on island samples the die sensors and updates the stack thermal states. -/
  | thermalSample (die : List Int) (dram : List Int)
  /-- PMB_ALERT (R500): A regulator asserting PMB_ALERT_N is recorded as a DROOP record for its island. -/
  | pmbAlert (i : Nat)
  /-- DROOP (R486): A supply falling 5 % or more below its set voltage stretches the island clock, and at 10 % writes a DROOP record. -/
  | droop (i : Nat) (mon : Nat) (mv : Nat)
  /-- TWN_HB_TOGGLE (R435): Every 100 µs a paired device in SERVICE toggles TWN_HB. -/
  | twnHbToggle
  /-- TWN_ALIVE_RISE (R435): The partner's TWN_ALIVE rises, which can make the heartbeat live and move the twin controller out of PAIRING. -/
  | twnAliveRise
  /-- HEARTBEAT_LOST (R435): TWN_ALIVE reading low for 100 µs, or TWN_HB unchanged for 1 ms, loses the heartbeat: RELEASED, entries retained and CHECKPOINTs TWIN_LOST. -/
  | heartbeatLost (aliveLow : Bool)
  /-- LINK_SIGNAL_DETECT (R413): Signal from the partner is detected on a DOWN port, and training begins. -/
  | linkSignalDetect (p : Nat)
  /-- LINK_TRAINED (R413): Training ends with lanes locked and deskewed: the port goes to TRAINED or ADMITTING, or reports LANE_FAULT. -/
  | linkTrained (p : Nat) (lanesOk : Bool) (reversed : Bool)
  /-- LANE_LOCK_LOSS (R413): A lane losing lock puts a port in SERVICE into RELOCK. -/
  | laneLockLoss (p : Nat)
  /-- RELOCK_TIMEOUT (R413): RELOCK lasting 100 µs takes the port to RETRAINING. -/
  | relockTimeout (p : Nat)
  /-- PORT_LOST (R415): 50 ms out of SERVICE or without a valid frame declares a port lost: LOST is set, a LOST notice is sent, and COPYs end LINK_LOST. -/
  | portLost (p : Nat)
  /-- KEEPALIVE_SEND (R414): A port in SERVICE with nothing to send for 10 µs sends CTRL KEEPALIVE. -/
  | keepaliveSend (p : Nat)
  /-- HOLD_REFRESH (R433): Every 10 µs, while a HOLD condition holds, the device sends or relays HOLD notices on its ports in SERVICE. -/
  | holdRefresh
  /-- HOLD_LAPSE (R433): A received HOLD notice lapses 30 µs after its last refresh. -/
  | holdLapse (p : Nat) (index : Nat)
  /-- REKEY (R104): A sender whose frame count nears 2^36 starts a new key exchange. -/
  | rekey (p : Nat)
  /-- FRAME_EGRESS (R419): A port sends a frame of a VLANE that has credit, as granted by the port egress arbiter. -/
  | frameEgress (p : Nat)
  /-- TRAIN (R417): A CTRL TRAIN frame is received. -/
  | train (h : RxHdr)
  /-- SPDM (R102): A CTRL SPDM frame carries one message of port admission, and a failing check refuses the port. -/
  | spdm (h : RxHdr) (m : AdmMsg)
  /-- KEM (R103): A CTRL KEM frame carries an encapsulation key or ciphertext, and the direction keys are derived. -/
  | kem (h : RxHdr) (m : KemMsg)
  /-- KEYMARK (R104): A CTRL KEYMARK frame marks the first frame sent under a new key. -/
  | keymark (h : RxHdr)
  /-- CREDIT (R419): A CTRL CREDIT frame grants sector credits for each VLANE. -/
  | credit (h : RxHdr) (counts : List Nat)
  /-- KEEPALIVE (R414): A CTRL KEEPALIVE frame is received as a valid frame. -/
  | keepalive (h : RxHdr)
  /-- NODE (R421): A CTRL NODE frame gives the neighbour's node number and removes that node from the lost set. -/
  | node (h : RxHdr) (node : Nat)
  /-- CANCEL (R432): A CTRL CANCEL frame completes or records the cancel of a collective with its status. -/
  | cancel (h : RxHdr) (node : Nat) (group : Nat) (seq : Nat) (st : Nat)
  /-- TWIN_STATE (R436): A CTRL TWIN_STATE frame reports RESUMED or FRESH, which can set EMPTIED and UNMIRRORED. -/
  | twinState (h : RxHdr) (resumed : Bool)
  /-- REPLAY (R418): A CTRL REPLAY frame makes the sender resend stored frames from an LSEQ. -/
  | replay (h : RxHdr) (lseq : Nat)
  /-- WIN_WRITE (R374): A WIN_WRITE frame is checked against the window table and performed or returned with STALE_TARGET or PERM_FAULT. -/
  | winWrite (h : RxHdr) (info : List Byte) (payload : List Byte)
  /-- WIN_READ (R374): A WIN_READ frame is checked and answered with WIN_DATA, or with WIN_ACK carrying a failure. -/
  | winRead (h : RxHdr) (info : List Byte)
  /-- WIN_DATA (R420): A WIN_DATA frame returns read data to the COPY that asked for it. -/
  | winData (h : RxHdr) (info : List Byte) (payload : List Byte)
  /-- WIN_ACK (R420): A WIN_ACK frame acknowledges a window write or returns a failure, which stops the COPY and may write a stale record. -/
  | winAck (h : RxHdr) (info : List Byte)
  /-- PARTIAL (R427): A COLL PARTIAL frame brings a reduction partial that is combined at its tree position, or held in the pool. -/
  | partialFrame (h : RxHdr) (info : List Byte) (payload : List Byte)
  /-- RESULT (R427): A COLL RESULT frame brings final ALL_REDUCE values to be written. -/
  | resultFrame (h : RxHdr) (info : List Byte) (payload : List Byte)
  /-- BLOCK (R427): A COLL BLOCK frame brings an input block for ALL_GATHER or ALL_TO_ALL. -/
  | blockFrame (h : RxHdr) (info : List Byte) (payload : List Byte)
  /-- GRANT (R429): A COLL GRANT frame lets the sender send further ahead of the combine point. -/
  | grantFrame (h : RxHdr) (info : List Byte)
  /-- RECEIPT (R431): A COLL RECEIPT frame acknowledges a chunk and may complete the collective. -/
  | receiptFrame (h : RxHdr) (info : List Byte)
  /-- MIRROR (R438): A MIRROR frame writes checkpoint bytes into the mirror reserve and wakes a device in Frost. -/
  | mirror (h : RxHdr) (info : List Byte) (payload : List Byte) (first : Option MirrorDesc)
  /-- MIRROR_ACK (R438): A MIRROR_ACK frame acknowledges a checkpoint chunk, and the last one completes the CHECKPOINT. -/
  | mirrorAck (h : RxHdr) (info : List Byte)
  /-- HOLD (R433): A HOLD frame makes a notice live and sets HOLD_IN. -/
  | hold (h : RxHdr) (info : List Byte)
  /-- LOST (R434): A LOST frame is relayed once, adds the node to the lost set and fails the affected collectives with LINK_LOST. -/
  | lost (h : RxHdr) (info : List Byte)
  /-- WAKE (R422): A WAKE frame is forwarded, or checked against CORE_GEN, recorded as a link wake and answered with WAKE_ACK. -/
  | wake (h : RxHdr) (info : List Byte)
  /-- WAKE_ACK (R431): A WAKE_ACK frame completes the waiting collective, and a STALE_TARGET answer writes a stale record. -/
  | wakeAck (h : RxHdr) (info : List Byte)
  /-- PORT_RETRAIN (R413): A write of 1 to LNK.CTL.RETRAIN starts RETRAINING. -/
  | portRetrain (p : Nat)
  /-- LNK_CLOSE (R442): A write to LNK.CTL.CLOSE stops or resumes locally originated WIN, COLL and MIRROR frames. -/
  | lnkClose (p : Nat) (b : Bool)
  /-- LNK_ABORT (R442): A write of 1 to LNK.CTL.ABORT cancels every COPY, COLLECTIVE and CHECKPOINT with frames on the port. -/
  | lnkAbort (p : Nat)
  /-- LNK_CNT_RESET (R443): A write of 1 to LNK.CTL.CNT_RESET zeroes the port counters. -/
  | lnkCntReset (p : Nat)
  /-- GET_VERSION (R100): The SPDM request GET_VERSION is answered with version 1.4. -/
  | getVersion
  /-- GET_CAPABILITIES (R100): The SPDM request GET_CAPABILITIES is answered with the capability set. -/
  | getCapabilities
  /-- NEGOTIATE_ALGORITHMS (R101): The SPDM request NEGOTIATE_ALGORITHMS is answered with the one algorithm set, or with InvalidRequest. -/
  | negotiateAlgorithms (offersAll : Bool)
  /-- GET_DIGESTS (R100): The SPDM request GET_DIGESTS returns the digest of the chain in certificate slot 0. -/
  | getDigests
  /-- GET_CERTIFICATE (R100): The SPDM request GET_CERTIFICATE returns the root, intermediate, identity and alias chain. -/
  | getCertificate
  /-- CHALLENGE (R100): The SPDM request CHALLENGE returns proof of the alias key and a measurement summary. -/
  | challenge (all : Bool)
  /-- GET_MEASUREMENTS (R100): The SPDM request GET_MEASUREMENTS returns slot values, signed when asked. -/
  | getMeasurements (index : Nat) (sign : Bool)
  /-- KEY_EXCHANGE (R100): The SPDM request KEY_EXCHANGE opens a session for IDE key management. -/
  | keyExchange
  /-- FINISH (R100): The SPDM request FINISH completes the session handshake. -/
  | finish (id : Nat)
  /-- KEY_UPDATE (R100): The SPDM request KEY_UPDATE updates the session keys. -/
  | keyUpdate (id : Nat)
  /-- HEARTBEAT (R100): The SPDM request HEARTBEAT keeps a session alive. -/
  | heartbeat (id : Nat)
  /-- END_SESSION (R100): The SPDM request END_SESSION ends a session. -/
  | endSession (id : Nat)
  /-- UNSUPPORTED_REQUEST (R101): Any other SPDM request code is answered with ERROR UnsupportedRequest. -/
  | unsupportedRequest
  /-- CDAT_READ (R384): A CDAT table access over DOE returns the DSMAS, DSEMTS and DSLBIS entries. -/
  | cdatRead
  /-- MCTP_REQUEST (R74): An MCTP request over I3C is answered with T0 telemetry. -/
  | mctpRequest
  /-- BYPASS (R110): The test access port instruction BYPASS is loaded. -/
  | bypass
  /-- IDCODE (R111): The test access port instruction IDCODE reads 0x17A2_15CB. -/
  | idcode
  /-- SAMPLE_PRELOAD (R110): The test access port instruction SAMPLE/PRELOAD is loaded. -/
  | samplePreload
  /-- EXTEST (R110): The test access port instruction EXTEST is loaded, and loads as BYPASS in SERVICE. -/
  | extest
  /-- EXTEST_PULSE (R110): The test access port instruction EXTEST_PULSE is loaded, and loads as BYPASS in SERVICE. -/
  | extestPulse
  /-- EXTEST_TRAIN (R110): The test access port instruction EXTEST_TRAIN is loaded, and loads as BYPASS in SERVICE. -/
  | extestTrain
  /-- CLAMP (R110): The test access port instruction CLAMP is loaded, and loads as BYPASS in SERVICE. -/
  | clamp
  /-- HIGHZ (R110): The test access port instruction HIGHZ is loaded, and loads as BYPASS in SERVICE. -/
  | highz
  /-- DBG_UNLOCK (R114): DBG_UNLOCK shifts in a session secret and grants the token's scopes on a match, and the eighth wrong secret ends the session. -/
  | dbgUnlock (secret : List Byte)
  /-- CONFIGURATION_REQUEST (R94): A configuration request is answered with Retry Status until step 8 of boot, and normally after that. -/
  | configurationRequest (write : Option Nat) (off : Nat)
  /-- CXL_MEM_READ (R385): A host CXL.mem read under a committed decoder is performed on a HOSTMAP range, or refused with zeros and a fault record. -/
  | cxlMemRead (dpa : Nat)
  /-- CXL_MEM_WRITE (R385): A host CXL.mem write is performed on a HOSTMAP range with W, or discarded with a fault record. -/
  | cxlMemWrite (dpa : Nat) (data : List Byte) (poison : Bool)
  /-- BIRSP (R386): A host BIRsp clears the host bit and releases host requests held for the line. -/
  | birsp (dpa : Nat)
  /-- HOST_SNOOP (R387): A host snoop is answered with RspIHitI. -/
  | hostSnoop
  /-- HDM_DECODER_COMMIT (R383): A host commit of an HDM decoder is accepted, or Error Not Committed is set. -/
  | hdmDecoderCommit (i : Nat) (base : Nat) (size : Nat) (ways : Nat) (gran : Nat)
  /-- HDM_DECODER_UNCOMMIT (R383): A host clear of a decoder's Commit bit ends its decode. -/
  | hdmDecoderUncommit (i : Nat)
  /-- IDE_INTEGRITY_FAILURE (R380): An IDE integrity failure is handled as CXL 3.1 states and logged. -/
  | ideIntegrityFailure
  /-- CXL_HOT_RESET (R489): A CXL hot reset resets the link and function and keeps the image and queues. -/
  | cxlHotReset
  /-- FUNCTION_LEVEL_RESET (R489): Initiate FLR resets the function without retraining the link. -/
  | functionLevelReset
  /-- BUS_MASTER_ENABLE (R489): The host setting Bus Master Enable again resumes completion writes and descriptor fetches. -/
  | busMasterEnable
  /-- D3HOT_ENTER (R381): Entry to D3hot stops BAR decode and descriptor fetch and keeps the image and queues. -/
  | d3hotEnter
  /-- D0_ENTER (R381): A return to D0 resumes BAR decode and descriptor fetch. -/
  | d0Enter
  /-- SQ_TAIL_WRITE (R391): A doorbell write of SQ_TAIL records new descriptors, or sets OVERRUN, or is discarded. -/
  | sqTailWrite (c : Nat) (slot : Nat) (v : Nat)
  /-- CQ_HEAD_WRITE (R391): A doorbell write of CQ_HEAD frees completion ring entries. -/
  | cqHeadWrite (c : Nat) (slot : Nat) (v : Nat)
  /-- REGISTER_WRITE (R8): A write to a register that has no row of its own acts by its access code, or is discarded under R6 and R513. -/
  | registerWrite (place : BarPlace) (size : Nat) (v : Nat)
  /-- HELD_ACCESS_APPLY (R482): A BAR0 access held for a gated island is applied once the island is awake. -/
  | heldAccessApply
  /-- CLEAR (R44): The SIM command CLEAR marks every granule absent. -/
  | clear
  /-- DEPOSIT (R41): The SIM command DEPOSIT copies SIM.CHUNK to staging, or is refused with BAD_CHUNK. -/
  | deposit
  /-- VERIFY (R55): The SIM command VERIFY runs the image checks and reports the outcome. -/
  | verify
  /-- COMMIT (R51): The SIM command COMMIT leaves SERVICE when needed, checks the image, and puts it in force or ends in HELD. -/
  | commit
  /-- RELEASE (R53): The SIM command RELEASE ends the image in force and goes to HELD or UNCLAIMED. -/
  | release
  /-- SIM_CHUNK_WRITE (R56): A write to SIM.CHUNK stores bytes in the chunk buffer. -/
  | simChunkWrite (o : Nat) (size : Nat) (v : Nat)
  /-- SUBMIT (R66): The TKM command SUBMIT submits the request in TKM.REQ, and a bad magic or reserved type is refused. -/
  | submit
  /-- CLAIM (R82): An owner request CLAIM installs the first owner key after a full scrub in RECOVERY. -/
  | claim
  /-- TRANSFER (R82): An owner request TRANSFER installs the successor's key after a full scrub. -/
  | transfer
  /-- RENOUNCE (R82): An owner request RENOUNCE removes the owner key after a full scrub and returns to UNCLAIMED. -/
  | renounce
  /-- READ_IMAGE (R69): An owner request READ_IMAGE returns the image in force, encrypted, in TKM.RESP. -/
  | readImage
  /-- READ_T2 (R69): An owner request READ_T2 returns the T1 and T2 telemetry record, encrypted. -/
  | readT2
  /-- DEBUG_TOKEN (R113): An owner request DEBUG_TOKEN opens a debug session after the opening scrub. -/
  | debugToken
  /-- RESP_RELEASE (R70): The TKM command RESP_RELEASE zeroes the response window. -/
  | respRelease
  /-- TKM_REQ_WRITE (R83): A write to TKM.REQ stores request bytes in the buffer. -/
  | tkmReqWrite (o : Nat) (size : Nat) (v : Nat)
  /-- FULL_SCRUB_COMPLETE (R78): A full scrub ends, and the change it guards proceeds. -/
  | fullScrubComplete
  /-- ENTER_RECOVERY (R107): The SVM command ENTER_RECOVERY sets LIFE to RECOVERY and performs CLEAR. -/
  | enterRecovery
  /-- FW_BEGIN (R107): The SVM command FW_BEGIN invalidates the bank not booted and resets FW_FILL. -/
  | fwBegin
  /-- FW_CHUNK (R108): The SVM command FW_CHUNK appends a chunk, or refuses it with BAD_CHUNK or OVERRUN. -/
  | fwChunk (len : Nat)
  /-- FW_END (R109): The SVM command FW_END checks the appended bundle and marks the bank valid when every check passes. -/
  | fwEnd
  /-- EXIT_RECOVERY (R107): The SVM command EXIT_RECOVERY performs a warm reset. -/
  | exitRecovery
  /-- DEBUG_CLOSE (R116): The SVM command DEBUG_CLOSE ends the debug session with the closing scrub and a warm reset. -/
  | debugClose
  /-- DEBUG_COUNTDOWN_EXPIRY (R116): The session countdown reaches zero and ends the debug session. -/
  | debugCountdownExpiry
  /-- PACK_BEGIN (R466): The SVM command PACK_BEGIN starts test pack staging and may enter TEST or hold BOOT. -/
  | packBegin
  /-- PACK_CHUNK (R466): The SVM command PACK_CHUNK appends a pack chunk. -/
  | packChunk (len : Nat)
  /-- PACK_RUN (R468): The SVM command PACK_RUN checks the pack and runs it on the named cores. -/
  | packRun
  /-- PACK_RUN_END (R469): A pack run ends at HALT or RUN_MS, and the cores are recorded as passed or failed. -/
  | packRunEnd
  /-- TEST_EXIT (R466): The SVM command TEST_EXIT returns TEST to HELD or lets BOOT continue. -/
  | testExit
  /-- SVM_CHUNK_WRITE (R117): A write to SVM.CHUNK stores bytes in the chunk buffer. -/
  | svmChunkWrite (o : Nat) (size : Nat) (v : Nat)
  /-- CTX_CREATE (R358): The XLT command CTX_CREATE creates a context. -/
  | ctxCreate (c : Nat)
  /-- CTX_DESTROY (R359): The XLT command CTX_DESTROY destroys a context's ranges, resolves its faults and removes it. -/
  | ctxDestroy (c : Nat)
  /-- RANGE_CREATE (R361): The XLT command RANGE_CREATE creates a range and assigns blocks, waiting for any zero-fill. -/
  | rangeCreate (c : Nat) (i : Nat)
  /-- RANGE_DESTROY (R372): The XLT command RANGE_DESTROY drains and removes a range and closes its windows. -/
  | rangeDestroy (c : Nat) (i : Nat)
  /-- RANGE_CHANGE (R372): The XLT command RANGE_CHANGE drains a range and changes its LENGTH or PERM. -/
  | rangeChange (c : Nat) (i : Nat)
  /-- INVALIDATE (R372): The XLT command INVALIDATE drains the named ranges and changes nothing. -/
  | invalidate (c : Nat)
  /-- RESOLVE_RETRY (R369): RESOLVE with action RETRY makes every waiter of a fault record translate again. -/
  | resolveRetry
  /-- RESOLVE_END (R369): RESOLVE with action END ends every waiter's descriptor with XLATE_FAULT. -/
  | resolveEnd
  /-- WIN_OPEN (R373): The XLT command WIN_OPEN writes a window entry and advances its generation. -/
  | winOpen (c : Nat) (i : Nat) (e : Nat)
  /-- WIN_CLOSE (R373): The XLT command WIN_CLOSE drains an entry, clears VALID and advances the generation. -/
  | winClose (e : Nat)
  /-- INVALIDATE_DRAIN_END (R371): The last use in flight ends, and the change is applied and DONE set. -/
  | invalidateDrainEnd
  /-- RTB_FILL (R365): A range entry read for an RTB miss returns and fills the buffer, or consumes poison. -/
  | rtbFill (buf : Nat) (c : Nat) (i : Nat)
  /-- DEFERRED_FAULT_RECORD (R368): A fault waiting unrecorded is written to the fault ring when room appears. -/
  | deferredFaultRecord
  /-- CHANGE_REQUEST (R370): The core monitor posts a CHANGE record and the core waits. -/
  | changeRequest (n : Nat) (range : Nat) (perm : Nat) (va : Nat)
  /-- ZERO_FILL_COMPLETE (R76): The zero-fill of scrub-pending blocks ends and releases the commands waiting for it. -/
  | zeroFillComplete
  /-- Q_CREATE (R389): The QMG command Q_CREATE creates an OPEN queue. -/
  | qCreate (c : Nat) (slot : Nat) (q : Nat)
  /-- Q_DESTROY (R408): The QMG command Q_DESTROY removes a CLOSED or DEAD queue. -/
  | qDestroy (q : Nat)
  /-- CLOSE (R404): The QCTL action CLOSE stops fetching from a queue. -/
  | close (q : Nat)
  /-- ABORT (R405): The QCTL action ABORT cancels a queue's descriptors at their boundaries. -/
  | abort (q : Nat)
  /-- REOPEN (R404): The QCTL action REOPEN resumes fetching from a CLOSED queue. -/
  | reopen (q : Nat)
  /-- CLEAR_OVERRUN (R404): The QCTL action CLEAR_OVERRUN clears OVERRUN. -/
  | clearOverrun (q : Nat)
  /-- CTX_RESET (R409): A write of 1 to QMG.CTX_RESET zeroes the selected context's counter totals. -/
  | ctxReset
  /-- DESCRIPTOR_FETCH (R393): The queue manager, on its turn, issues a read of a queue's next descriptor. -/
  | descriptorFetch
  /-- QUEUE_STATE_READ (R390): A queue's state returns from the backing store on an active-queue cache miss. -/
  | queueStateRead (q : Nat)
  /-- DESCRIPTOR_READ_RETURN (R395): A fetched descriptor arrives and is checked, or ends with PERM_FAULT or by poison. -/
  | descriptorReadReturn (id : Nat) (raw : List Byte) (poison : Bool)
  /-- KERNEL (R397): A KERNEL descriptor starts, and its grid block is checked and run. -/
  | kernel (id : Nat)
  /-- CHAIN_DESCRIPTOR (R397): A CHAIN descriptor starts, and its cells run on stream chain engines. -/
  | chainDescriptor (id : Nat)
  /-- COPY (R398): A COPY descriptor starts, checks SRC and DST, and moves bytes in chunks. -/
  | copy (id : Nat)
  /-- COPY_CHUNK_DONE (R398): A 64 KiB COPY chunk is performed, and the next starts or the COPY completes. -/
  | copyChunkDone (id : Nat)
  /-- COLLECTIVE (R425): A COLLECTIVE descriptor starts and is checked. -/
  | collective (id : Nat)
  /-- COLLECTIVE_START (R428): A collective starts once staging can reserve room for it. -/
  | collectiveStart (id : Nat)
  /-- PHASE (R313): A PHASE descriptor checks its plan and schedules the moves. -/
  | phase (id : Nat)
  /-- FENCE (R401): A FENCE descriptor completes when it starts. -/
  | fence (id : Nat)
  /-- WAIT (R399): A WAIT descriptor reads its word and completes when COND holds. -/
  | wait (id : Nat)
  /-- WAIT_REEVALUATE (R399): A write to the line, or 10 µs passing, makes a WAIT read its word again. -/
  | waitReevaluate (id : Nat)
  /-- SIGNAL (R399): A SIGNAL descriptor updates its word indivisibly as a release store. -/
  | signal (id : Nat)
  /-- CHECKPOINT (R438): A CHECKPOINT descriptor mirrors the named ranges to the twin by the twin state. -/
  | checkpoint (id : Nat) (entry : Option Nat)
  /-- TIMER (R400): A TIMER descriptor takes a countdown timer, or waits for one. -/
  | timer (id : Nat)
  /-- COMPLETION_RECORD_WRITE (R394): A completed descriptor's record is written to the completion ring when there is room. -/
  | completionRecordWrite (q : Nat)
  /-- CELL_START (R297): The placement engine starts the next cell on an eligible free machine, with state zeroed. -/
  | cellStart (grid : Nat)
  /-- SPLIT_K_COMBINE (R305): When all partials of a window are performed, a free machine starts combining them. -/
  | splitKCombine (grid : Nat)
  /-- COMBINE_DONE (R305): A split-K combine ends, and its window of C is written. -/
  | combineDone (n : Nat)
  /-- MOVE_START (R313): A placement move starts when no descriptor names the range. -/
  | moveStart (c : Nat) (i : Nat)
  /-- MOVE_COPY_DONE (R313): A move's copy ends, and the range is switched by invalidate-and-drain. -/
  | moveCopyDone (c : Nat) (i : Nat)
  /-- CELL_CLOSE (R320): A write to PLE.CTL.CELL_CLOSE stops or resumes cell starts. -/
  | cellClose (b : Bool)
  /-- MOVE_CLOSE (R320): A write to PLE.CTL.MOVE_CLOSE stops or resumes move starts. -/
  | moveClose (b : Bool)
  /-- PLE_CNT_RESET (R320): A write of 1 to PLE.CTL.CNT_RESET zeroes the PLE counters. -/
  | pleCntReset
  /-- INTEGER_OP (R146): A scalar integer add, logic, shift, compare or multiply instruction executes. -/
  | integerOp (n : Nat) (f : IntFn) (rd : BitVec 5) (ra : BitVec 5) (b : Opnd)
  /-- INTEGER_DIVIDE (R149): A scalar integer divide executes, with its fixed results for division by zero. -/
  | integerDivide (n : Nat) (signed : Bool) (rem : Bool) (rd : BitVec 5) (ra : BitVec 5) (b : Opnd)
  /-- BRANCH (R146): A branch instruction executes. -/
  | branch (n : Nat) (b : BrOp)
  /-- SCALAR_LOAD (R153): A scalar load reads memory or forwarded store data. -/
  | scalarLoad (n : Nat) (size : BitVec 2) (signed : Bool) (fp : Bool) (rd : BitVec 5) (ra : BitVec 5) (imm : BitVec 16)
  /-- SCALAR_STORE (R152): A scalar store commits into the store buffer. -/
  | scalarStore (n : Nat) (size : BitVec 2) (fp : Bool) (rb : BitVec 5) (ra : BitVec 5) (imm : BitVec 16)
  /-- SCALAR_FP_OP (R148): A scalar floating-point instruction rounds under FRM and sets FFLAGS. -/
  | scalarFpOp (n : Nat) (op : FpOp)
  /-- STORE_DRAIN (R152): A committed store leaves the store buffer and writes the cache or scratchpad. -/
  | storeDrain (n : Nat)
  /-- LDAQ_W (R157): The acquire load LDAQ.W reads 4 bytes. -/
  | ldaqW (n : Nat) (rd : BitVec 5) (ra : BitVec 5)
  /-- LDAQ_D (R157): The acquire load LDAQ.D reads 8 bytes. -/
  | ldaqD (n : Nat) (rd : BitVec 5) (ra : BitVec 5)
  /-- STRL_W (R157): The release store STRL.W writes 4 bytes. -/
  | strlW (n : Nat) (ra : BitVec 5) (rb : BitVec 5)
  /-- STRL_D (R157): The release store STRL.D writes 8 bytes. -/
  | strlD (n : Nat) (ra : BitVec 5) (rb : BitVec 5)
  /-- AMOADD_W (R159): The atomic AMOADD.W adds to a 4-byte word at its home. -/
  | amoaddW (n : Nat) (rd : BitVec 5) (ra : BitVec 5) (rb : BitVec 5)
  /-- AMOADD_D (R159): The atomic AMOADD.D adds to an 8-byte word at its home. -/
  | amoaddD (n : Nat) (rd : BitVec 5) (ra : BitVec 5) (rb : BitVec 5)
  /-- AMOSWAP_W (R159): The atomic AMOSWAP.W swaps a 4-byte word. -/
  | amoswapW (n : Nat) (rd : BitVec 5) (ra : BitVec 5) (rb : BitVec 5)
  /-- AMOSWAP_D (R159): The atomic AMOSWAP.D swaps an 8-byte word. -/
  | amoswapD (n : Nat) (rd : BitVec 5) (ra : BitVec 5) (rb : BitVec 5)
  /-- AMOCAS_W (R159): The atomic AMOCAS.W compares and swaps a 4-byte word. -/
  | amocasW (n : Nat) (rd : BitVec 5) (ra : BitVec 5) (rb : BitVec 5)
  /-- AMOCAS_D (R159): The atomic AMOCAS.D compares and swaps an 8-byte word. -/
  | amocasD (n : Nat) (rd : BitVec 5) (ra : BitVec 5) (rb : BitVec 5)
  /-- MFSR (R151): MFSR copies a system register to a general register. -/
  | mfsr (n : Nat) (rd : BitVec 5) (sr : BitVec 12)
  /-- MTSR (R151): MTSR copies a general register to a system register. -/
  | mtsr (n : Nat) (ra : BitVec 5) (sr : BitVec 12)
  /-- FENCE_LL (R158): FENCE.LL orders earlier scalar loads before later ones. -/
  | fenceLl (n : Nat)
  /-- FENCE_SS (R158): FENCE.SS orders earlier scalar stores before later ones. -/
  | fenceSs (n : Nat)
  /-- FENCE_FULL (R158): FENCE.FULL orders every scalar access. -/
  | fenceFull (n : Nat)
  /-- FENCE_ENG (R158): FENCE.ENG also waits for vector, matrix and stream work of the core or gang. -/
  | fenceEng (n : Nat)
  /-- FENCE_DEV (R158): FENCE.DEV also performs stores to host readers with back-invalidation. -/
  | fenceDev (n : Nat)
  /-- ISYNC (R166): ISYNC invalidates the core's instruction state and refetches. -/
  | isync (n : Nat)
  /-- XRET (R161): XRET returns from Steward level to Job level at XPC. -/
  | xret (n : Nat)
  /-- HALT (R286): HALT ends the core's share once its engines and matrix unit are idle. -/
  | halt (n : Nat)
  /-- EXCEPTION_TAKEN (R161): An excepting instruction at the reorder buffer head enters the monitor, which acts as Table 8 states. -/
  | exceptionTaken (n : Nat) (why : ExcWhy)
  /-- ABORT_TAKEN (R164): An abort delivered to the core is taken at the next instruction boundary. -/
  | abortTaken (n : Nat)
  /-- KILL_TAKEN (R164): A kill delivered to the core is taken at the next instruction boundary. -/
  | killTaken (n : Nat)
  /-- PMC_RESET (R170): A write of 1 to CORE.PMC_RESET zeroes the core's counters. -/
  | pmcReset (n : Nat)
  /-- SETVL (R176): SETVL sets SEW and vl from a register. -/
  | setvl (n : Nat) (rd : BitVec 5) (ra : BitVec 5) (sew : BitVec 2)
  /-- SETVLI (R176): SETVLI sets SEW and vl from an immediate. -/
  | setvli (n : Nat) (rd : BitVec 5) (sew : BitVec 2) (imm : BitVec 12)
  /-- GETVL (R176): GETVL reads vl, SEW and vlmax. -/
  | getvl (n : Nat) (rd : BitVec 5)
  /-- VADD (R186): Vector integer add. -/
  | vadd (n : Nat) (w : VecWord)
  /-- VSUB (R186): Vector integer subtract. -/
  | vsub (n : Nat) (w : VecWord)
  /-- VMUL (R186): Vector integer multiply, low bits. -/
  | vmul (n : Nat) (w : VecWord)
  /-- VMULH (R186): Vector signed multiply, high bits. -/
  | vmulh (n : Nat) (w : VecWord)
  /-- VMULHU (R186): Vector unsigned multiply, high bits. -/
  | vmulhu (n : Nat) (w : VecWord)
  /-- VMIN (R186): Vector signed minimum. -/
  | vmin (n : Nat) (w : VecWord)
  /-- VMAX (R186): Vector signed maximum. -/
  | vmax (n : Nat) (w : VecWord)
  /-- VMINU (R186): Vector unsigned minimum. -/
  | vminu (n : Nat) (w : VecWord)
  /-- VMAXU (R186): Vector unsigned maximum. -/
  | vmaxu (n : Nat) (w : VecWord)
  /-- VAND (R186): Vector bitwise AND. -/
  | vand (n : Nat) (w : VecWord)
  /-- VOR (R186): Vector bitwise OR. -/
  | vor (n : Nat) (w : VecWord)
  /-- VXOR (R186): Vector bitwise XOR. -/
  | vxor (n : Nat) (w : VecWord)
  /-- VSLL (R186): Vector shift left. -/
  | vsll (n : Nat) (w : VecWord)
  /-- VSRL (R186): Vector logical shift right. -/
  | vsrl (n : Nat) (w : VecWord)
  /-- VSRA (R186): Vector arithmetic shift right. -/
  | vsra (n : Nat) (w : VecWord)
  /-- VSADD (R186): Vector saturating add, setting VXR.SAT on clipping. -/
  | vsadd (n : Nat) (w : VecWord)
  /-- VSSUB (R186): Vector saturating subtract. -/
  | vssub (n : Nat) (w : VecWord)
  /-- VMACC (R186): Vector integer multiply-accumulate. -/
  | vmacc (n : Nat) (w : VecWord)
  /-- VID (R186): Vector element index. -/
  | vid (n : Nat) (w : VecWord)
  /-- VFADD (R188): Vector floating-point add. -/
  | vfadd (n : Nat) (w : VecWord)
  /-- VFSUB (R188): Vector floating-point subtract. -/
  | vfsub (n : Nat) (w : VecWord)
  /-- VFMUL (R188): Vector floating-point multiply. -/
  | vfmul (n : Nat) (w : VecWord)
  /-- VFDIV (R188): Vector floating-point divide. -/
  | vfdiv (n : Nat) (w : VecWord)
  /-- VFSQRT (R188): Vector floating-point square root. -/
  | vfsqrt (n : Nat) (w : VecWord)
  /-- VFREC (R188): Vector reciprocal. -/
  | vfrec (n : Nat) (w : VecWord)
  /-- VFRSQRT (R188): Vector reciprocal square root. -/
  | vfrsqrt (n : Nat) (w : VecWord)
  /-- VFMIN (R188): Vector floating-point minimum. -/
  | vfmin (n : Nat) (w : VecWord)
  /-- VFMAX (R188): Vector floating-point maximum. -/
  | vfmax (n : Nat) (w : VecWord)
  /-- VFABS (R188): Vector floating-point absolute value. -/
  | vfabs (n : Nat) (w : VecWord)
  /-- VFNEG (R188): Vector floating-point negate. -/
  | vfneg (n : Nat) (w : VecWord)
  /-- VFSGNJ (R188): Vector sign injection. -/
  | vfsgnj (n : Nat) (w : VecWord)
  /-- VFMA (R188): Vector fused multiply-add. -/
  | vfma (n : Nat) (w : VecWord)
  /-- VFMS (R188): Vector fused multiply-subtract. -/
  | vfms (n : Nat) (w : VecWord)
  /-- VFNMA (R188): Vector negated fused multiply-add. -/
  | vfnma (n : Nat) (w : VecWord)
  /-- VFNMS (R188): Vector negated fused multiply-subtract. -/
  | vfnms (n : Nat) (w : VecWord)
  /-- VFWMUL (R189): Vector widening multiply. -/
  | vfwmul (n : Nat) (w : VecWord)
  /-- VFWMA (R189): Vector widening fused multiply-add. -/
  | vfwma (n : Nat) (w : VecWord)
  /-- VFWADD (R189): Vector widening add. -/
  | vfwadd (n : Nat) (w : VecWord)
  /-- VFWADDW (R189): Vector add of a widened operand to a pair. -/
  | vfwaddw (n : Nat) (w : VecWord)
  /-- VDOT4_I8 (R189): Vector INT8 dot product into INT32. -/
  | vdot4I8 (n : Nat) (w : VecWord)
  /-- VDOT2_H (R189): Vector FP16 or BF16 dot product into FP32. -/
  | vdot2H (n : Nat) (w : VecWord)
  /-- VDOT4_E4M3 (R189): Vector FP8-E4M3 dot product into FP32. -/
  | vdot4E4m3 (n : Nat) (w : VecWord)
  /-- VDOT4_E5M2 (R189): Vector FP8-E5M2 dot product into FP32. -/
  | vdot4E5m2 (n : Nat) (w : VecWord)
  /-- VDOT4_E4E5 (R189): Vector mixed FP8 dot product into FP32. -/
  | vdot4E4e5 (n : Nat) (w : VecWord)
  /-- VCMPEQ (R190): Vector integer compare equal. -/
  | vcmpeq (n : Nat) (w : VecWord)
  /-- VCMPNE (R190): Vector integer compare not equal. -/
  | vcmpne (n : Nat) (w : VecWord)
  /-- VCMPLT (R190): Vector signed compare less than. -/
  | vcmplt (n : Nat) (w : VecWord)
  /-- VCMPLE (R190): Vector signed compare less or equal. -/
  | vcmple (n : Nat) (w : VecWord)
  /-- VCMPLTU (R190): Vector unsigned compare less than. -/
  | vcmpltu (n : Nat) (w : VecWord)
  /-- VCMPLEU (R190): Vector unsigned compare less or equal. -/
  | vcmpleu (n : Nat) (w : VecWord)
  /-- VFCMPEQ (R190): Vector floating-point compare equal. -/
  | vfcmpeq (n : Nat) (w : VecWord)
  /-- VFCMPNE (R190): Vector floating-point compare not equal or unordered. -/
  | vfcmpne (n : Nat) (w : VecWord)
  /-- VFCMPLT (R190): Vector floating-point compare less than. -/
  | vfcmplt (n : Nat) (w : VecWord)
  /-- VFCMPLE (R190): Vector floating-point compare less or equal. -/
  | vfcmple (n : Nat) (w : VecWord)
  /-- VFCMPUN (R190): Vector floating-point compare unordered. -/
  | vfcmpun (n : Nat) (w : VecWord)
  /-- PAND (R191): Predicate AND. -/
  | pAnd (n : Nat) (w : VecWord)
  /-- POR (R191): Predicate OR. -/
  | pOr (n : Nat) (w : VecWord)
  /-- PXOR (R191): Predicate XOR. -/
  | pXor (n : Nat) (w : VecWord)
  /-- PANDN (R191): Predicate AND NOT. -/
  | pAndn (n : Nat) (w : VecWord)
  /-- PNOT (R191): Predicate NOT. -/
  | pNot (n : Nat) (w : VecWord)
  /-- PSET (R191): Predicate set all active bits. -/
  | pSet (n : Nat) (w : VecWord)
  /-- PCNT (R191): Predicate population count to a general register. -/
  | pcnt (n : Nat) (w : VecWord)
  /-- PFIRST (R191): Predicate first set position to a general register. -/
  | pfirst (n : Nat) (w : VecWord)
  /-- VREDSUM (R192): Vector integer sum reduction. -/
  | vredsum (n : Nat) (w : VecWord)
  /-- VREDMIN (R192): Vector signed minimum reduction. -/
  | vredmin (n : Nat) (w : VecWord)
  /-- VREDMAX (R192): Vector signed maximum reduction. -/
  | vredmax (n : Nat) (w : VecWord)
  /-- VREDMINU (R192): Vector unsigned minimum reduction. -/
  | vredminu (n : Nat) (w : VecWord)
  /-- VREDMAXU (R192): Vector unsigned maximum reduction. -/
  | vredmaxu (n : Nat) (w : VecWord)
  /-- VFREDSUM (R192): Vector floating-point tree sum reduction. -/
  | vfredsum (n : Nat) (w : VecWord)
  /-- VFREDOSUM (R193): Vector floating-point sequential sum reduction. -/
  | vfredosum (n : Nat) (w : VecWord)
  /-- VFREDMIN (R192): Vector floating-point minimum reduction. -/
  | vfredmin (n : Nat) (w : VecWord)
  /-- VFREDMAX (R192): Vector floating-point maximum reduction. -/
  | vfredmax (n : Nat) (w : VecWord)
  /-- VSCANSUM (R194): Vector segmented integer sum scan. -/
  | vscansum (n : Nat) (w : VecWord)
  /-- VSCANMIN (R194): Vector segmented signed minimum scan. -/
  | vscanmin (n : Nat) (w : VecWord)
  /-- VSCANMAX (R194): Vector segmented signed maximum scan. -/
  | vscanmax (n : Nat) (w : VecWord)
  /-- VFSCANSUM (R194): Vector segmented floating-point sum scan. -/
  | vfscansum (n : Nat) (w : VecWord)
  /-- VFSCANMIN (R194): Vector segmented floating-point minimum scan. -/
  | vfscanmin (n : Nat) (w : VecWord)
  /-- VFSCANMAX (R194): Vector segmented floating-point maximum scan. -/
  | vfscanmax (n : Nat) (w : VecWord)
  /-- VPERM (R195): Vector permute by an index vector. -/
  | vperm (n : Nat) (w : VecWord)
  /-- VBCASTE (R195): Vector broadcast of one element. -/
  | vbcaste (n : Nat) (w : VecWord)
  /-- VSLIDEDN (R195): Vector slide down. -/
  | vslidedn (n : Nat) (w : VecWord)
  /-- VSLIDEUP (R195): Vector slide up. -/
  | vslideup (n : Nat) (w : VecWord)
  /-- VREV (R195): Vector reverse. -/
  | vrev (n : Nat) (w : VecWord)
  /-- VCOMPRESS (R195): Vector compress of the active elements. -/
  | vcompress (n : Nat) (w : VecWord)
  /-- VEXPAND (R195): Vector expand into the active positions. -/
  | vexpand (n : Nat) (w : VecWord)
  /-- VECTOR_CONVERSION (R196): A vector conversion between format pairs, with optional stochastic rounding. -/
  | vectorConversion (n : Nat) (w : ConvWord)
  /-- VMV (R198): Vector move. -/
  | vmv (n : Nat) (w : VecWord)
  /-- VBCAST (R198): Vector broadcast of a scalar. -/
  | vbcast (n : Nat) (w : VecWord)
  /-- VGETX (R198): Vector element to a general register. -/
  | vgetx (n : Nat) (w : VecWord)
  /-- VGETF (R198): Vector element to a floating-point register. -/
  | vgetf (n : Nat) (w : VecWord)
  /-- VPUT (R198): Scalar into one vector element. -/
  | vput (n : Nat) (w : VecWord)
  /-- VLD (R214): Vector unit-stride load. -/
  | vld (n : Nat) (w : MemWord)
  /-- VLDFF (R223): Vector unit-stride first-fault load, which trims vl instead of trapping. -/
  | vldff (n : Nat) (w : MemWord)
  /-- VST (R214): Vector unit-stride store. -/
  | vst (n : Nat) (w : MemWord)
  /-- VLDS (R215): Vector strided load through the gather unit. -/
  | vlds (n : Nat) (w : MemWord)
  /-- VLDSFF (R223): Vector strided first-fault load. -/
  | vldsff (n : Nat) (w : MemWord)
  /-- VGATH (R215): Vector indexed load. -/
  | vgath (n : Nat) (w : MemWord)
  /-- VGATHFF (R223): Vector indexed first-fault load. -/
  | vgathff (n : Nat) (w : MemWord)
  /-- VSTS (R216): Vector strided store. -/
  | vsts (n : Nat) (w : MemWord)
  /-- VSCAT (R216): Vector indexed store. -/
  | vscat (n : Nat) (w : MemWord)
  /-- MXGO (R235): MXGO reads and checks a matrix descriptor and hands it to the matrix unit when there is room. -/
  | mxgo (n : Nat) (ra : BitVec 5)
  /-- MX_STATIONARY_LOAD (R229): The matrix unit begins loading a stationary tile of B. -/
  | mxStationaryLoad (n : Nat)
  /-- MX_ROW_ENTER (R229): One row of A enters the array. -/
  | mxRowEnter (n : Nat)
  /-- MX_OUTPUT_ROW (R245): The output stage converts and writes one in-range row of a tile. -/
  | mxOutputRow (n : Nat)
  /-- DRIZZLE_LIMIT (R248): Drizzle ends when DRIZZLE_LIMIT cycles have passed. -/
  | drizzleLimit (n : Nat)
  /-- ARRAY_COLD (R247): An array idle for 16 C-cycles becomes cold. -/
  | arrayCold (n : Nat)
  /-- MX_CANCEL (R256): A cancelled descriptor reaches its boundary, and its slots are zeroed. -/
  | mxCancel (n : Nat)
  /-- MX_CLOSE (R256): A write to MXCTL.CLOSE stops or resumes descriptor acceptance. -/
  | mxClose (n : Nat) (b : Bool)
  /-- MX_ABORT (R256): A write of 1 to MXCTL.ABORT cancels accepted descriptors, ends drizzle and aborts the core. -/
  | mxAbort (n : Nat)
  /-- MX_CNT_RESET (R257): A write of 1 to MXCTL.CNT_RESET zeroes the matrix counters. -/
  | mxCntReset (n : Nat)
  /-- SCLOAD (R261): SCLOAD reads, checks and writes words into an engine's program memory. -/
  | scload (n : Nat) (e : Bool) (member : BitVec 2) (ra : BitVec 5)
  /-- SCGO (R262): SCGO starts an engine program, or holds the start. -/
  | scgo (n : Nat) (e : Bool) (member : BitVec 2) (ra : BitVec 5)
  /-- HELD_START_BEGIN (R262): A held start begins in the C-cycle after the current program ends. -/
  | heldStartBegin (n : Nat) (e : Bool)
  /-- NOP (R265): The sequencer word NOP does nothing. -/
  | nop (n : Nat) (e : Bool)
  /-- HALT_WORD (R265): The sequencer word HALT ends the program once its chains and DMAs complete. -/
  | haltWord (n : Nat) (e : Bool)
  /-- CHAIN (R270): The sequencer word CHAIN issues a chain of stage words. -/
  | chain (n : Nat) (e : Bool)
  /-- LDCF (R265): The sequencer word LDCF loads a configuration slot. -/
  | ldcf (n : Nat) (e : Bool)
  /-- DMA (R284): The sequencer word DMA issues a DMA transfer. -/
  | dma (n : Nat) (e : Bool)
  /-- WAITD (R265): The sequencer word WAITD waits for a DMA tag. -/
  | waitd (n : Nat) (e : Bool)
  /-- WAITC (R265): The sequencer word WAITC waits for issued chains. -/
  | waitc (n : Nat) (e : Bool)
  /-- LDS (R266): The register word LDS loads an address register. -/
  | lds (n : Nat) (e : Bool)
  /-- LDC (R266): The register word LDC loads a counter or loop count. -/
  | ldc (n : Nat) (e : Bool)
  /-- ADDSS (R266): The register word ADDSS adds two address registers. -/
  | addss (n : Nat) (e : Bool)
  /-- ADDSN (R266): The register word ADDSN adds a counter to an address register. -/
  | addsn (n : Nat) (e : Bool)
  /-- MOVS (R266): The register word MOVS copies an address register. -/
  | movs (n : Nat) (e : Bool)
  /-- SETLEN (R266): The register word SETLEN sets LEN. -/
  | setlen (n : Nat) (e : Bool)
  /-- ADDNI (R266): The register word ADDNI adds an immediate to a counter. -/
  | addni (n : Nat) (e : Bool)
  /-- LOOP (R268): The sequencer word LOOP opens a zero-overhead loop. -/
  | loop (n : Nat) (e : Bool)
  /-- CHAIN_BEAT_ENTER (R274): One beat of a chain enters position 0. -/
  | chainBeatEnter (n : Nat) (e : Bool)
  /-- STAGE_WRITE (R274): An M stage performs its output write for a beat. -/
  | stageWrite (n : Nat) (e : Bool)
  /-- TERMINAL_WRITE (R273): A SUM, RMAX, RMIN, TOPK or QNT terminal writes its output. -/
  | terminalWrite (n : Nat) (e : Bool)
  /-- DMA_TRANSFER_DONE (R284): A DMA transfer has written every byte and its tag becomes idle. -/
  | dmaTransferDone (n : Nat) (e : Bool) (tag : BitVec 2)
  /-- SC_CLOSE (R291): A write to SCCTL.CLOSE stops or resumes engine starts. -/
  | scClose (n : Nat) (e : Nat) (b : Bool)
  /-- SC_ABORT (R292): A write of 1 to SCCTL.ABORT aborts the engine and the core's share. -/
  | scAbort (n : Nat) (e : Nat)
  /-- SC_CNT_RESET (R293): A write of 1 to SCCTL.CNT_RESET zeroes the engine counters. -/
  | scCntReset (n : Nat) (e : Nat)
  /-- SLICE_REQUEST (R326): A DRAM access reaches its home slice and is served or sent to the controllers. -/
  | sliceRequest (r : SliceReq)
  /-- CONTROLLER_ACCEPT (R330): A controller accepts a waiting transaction when its pool has room. -/
  | controllerAccept (i : Nat) (narrow : Bool)
  /-- CONTROLLER_READ_COMPLETE (R331): A controller read returns its data. -/
  | controllerReadComplete (i : Nat) (narrow : Bool) (k : Nat) (es : List DramErr)
  /-- CONTROLLER_WRITE_PERFORMED (R339): A controller write is performed in whole codewords. -/
  | controllerWritePerformed (i : Nat) (narrow : Bool) (k : Nat) (es : List DramErr)
  /-- PATROL_SCRUB (R342): The patrol scrub reads the next codewords. -/
  | patrolScrub (i : Nat) (lower : List DramErr) (upper : List DramErr)
  /-- SRAM_UNCORRECTABLE (R446): An uncorrectable SRAM entry is poisoned or discarded by its protection. -/
  | sramUncorrectable (x : SramItem)
  /-- RETRAIN (R357): The MCU command RETRAIN retrains a ready channel. -/
  | retrain (i : Nat) (c : Nat)
  /-- DECLARE_FAILED (R351): The MCU command DECLARE_FAILED declares a channel failed. -/
  | declareFailed (i : Nat) (c : Nat)
  /-- EXCLUDE (R352): The MCU command EXCLUDE copies a failed channel to substitutes. -/
  | exclude (i : Nat) (c : Nat)
  /-- PARITY_ERROR (R347): A command or address parity error on a channel triggers a retrain. -/
  | parityError (i : Nat) (c : Nat)
  /-- PERIODIC_RETRAIN_TURN (R347): Every 2 s a controller starts one channel's periodic retrain. -/
  | periodicRetrainTurn (i : Nat)
  /-- RETRAIN_COMPLETE (R348): Retraining ends, and buffered writes and then waiting reads are issued. -/
  | retrainComplete (r : RetrainEnd)
  /-- RETRAIN_TIMEOUT (R350): Retraining not done at 20 µs fails the channel and poisons the reads waiting on it. -/
  | retrainTimeout (i : Nat)
  /-- EXCLUSION_SLICE_COPY (R353): One slice of the failed channel is copied to its substitute and switched. -/
  | exclusionSliceCopy
  /-- IMPORT (R440): The TWC command IMPORT copies a retained entry into a context. -/
  | importEntry (e : Nat) (c : Nat)
  /-- SEND (R440): The TWC command SEND copies a retained entry to the twin. -/
  | send (e : Nat)
  /-- DISCARD (R439): The TWC command DISCARD removes a retained entry. -/
  | discard (e : Nat)
  /-- ACK_EMPTIED (R436): The TWC command ACK_EMPTIED clears EMPTIED. -/
  | ackEmptied
  /-- TWIN_COPY_CHUNK (R440): One chunk of an IMPORT or SEND is copied, and the last one ends the command. -/
  | twinCopyChunk (entry : Option Nat)
  /-- TWC_CLOSE (R442): A write to TWC.CTL.CLOSE stops or resumes checkpoint and twin work. -/
  | twcClose (b : Bool)
  /-- TWC_ABORT (R442): A write of 1 to TWC.CTL.ABORT cancels a running CHECKPOINT, IMPORT or SEND. -/
  | twcAbort
  /-- CLE_CLOSE (R442): A write to CLE.CTL.CLOSE stops or resumes collective starts. -/
  | cleClose (b : Bool)
  /-- CLE_ABORT (R442): A write of 1 to CLE.CTL.ABORT cancels running collectives. -/
  | cleAbort
  /-- NODE_WRITE (R444): A write to CLE.NODE sets the node number, and is discarded while a collective is in flight. -/
  | nodeWrite (v : Nat)
  /-- GROUP_WRITE (R423): A write to CLE.GROUP is applied, or discarded while a collective of the group is in flight. -/
  | groupWrite (g : Nat) (v : Nat)
  /-- RANKMAP_WRITE (R423): A write to CLE.RANKMAP is applied, or discarded while a collective of the group is in flight. -/
  | rankmapWrite (g : Nat) (i : Nat) (v : Nat)
  /-- RECHECK (R459): The FLT command RECHECK accepts and starts a recheck of a suspect product. -/
  | recheck (c : Nat)
  /-- RECHECK_RUN_COMPLETE (R460): A recheck run ends and is compared, giving the next run or a verdict. -/
  | recheckRunComplete
  /-- CLEAR_LOG (R454): The FLT command CLEAR_LOG empties the fault log. -/
  | clearLog
  /-- SQUALL_EXIT (R458): 1 s without a heavy 10 ms period leaves squall mode. -/
  | squallExit
  /-- SVP_LOAD_STAGE (R457): The SVP enters or leaves a load-shedding stage after its load timers. -/
  | svpLoadStage (containment : Nat) (others : List Nat)
  /-- FATAL_ERROR (R448): A fatal error stops all work, completes descriptors DEVICE_HELD and ends the image. -/
  | fatalError (cause : Nat) (index : Nat)
  /-- PATROL_DUE (R462): A core falls due for its patrol test INTERVAL_H after its last test. -/
  | patrolDue (n : Nat)
  /-- PATROL_TEST_END (R464): A patrol test ends and the core is fit or failed. -/
  | patrolTestEnd (n : Nat) (pass : Bool)
  /-- PATROL_DEADLINE (R465): A due test not begun by DEADLINE_H sets TEST_OVERDUE. -/
  | patrolDeadline (n : Nat)
  /-- POWER_STATE_SELECT (R478): Every 1 µs the power manager places idle islands in Lull or Calm and may begin Frost entry or an early wake. -/
  | powerStateSelect
  /-- FROST_ENTRY_COMPLETE (R480): Frost entry completes and FROST reads 1, and a held event begins the wake. -/
  | frostEntryComplete
  /-- DEVICE_WAKE_COMPLETE (R482): The device is awake from Frost and FROST reads 0. -/
  | deviceWakeComplete
  /-- ISLAND_WAKE_COMPLETE (R482): An island is awake from Lull or Calm. -/
  | islandWakeComplete (i : Nat)
  /-- POWER_MEASURE (R484): Every 10 µs the power manager measures device power. -/
  | powerMeasure (powers : List Nat)
  /-- CAP_CONTROL (R484): Every 100 µs the power manager lowers or raises core-island frequencies for the cap and temperature. -/
  | capControl
  /-- VOLTAGE_SETTLED (R483): A voltage raise settles and the frequency raise that follows it takes effect. -/
  | voltageSettled (k : Nat)
  /-- TIMER_ARM (R476): A nonzero write to PCM.TIMER arms or re-arms a timer. -/
  | timerArm (t : Nat) (micros : Nat)
  /-- TIMER_DISARM (R476): A write of 0 to PCM.TIMER disarms a timer. -/
  | timerDisarm (t : Nat)
  /-- TIMER_EXPIRY (R476): A countdown timer expires, sets EXPIRED and completes any TIMER holding it. -/
  | timerExpiry (i : Nat)
  /-- MON_SEL_WRITE (R495): A write to PCM.MON_SEL selects a monitor and restarts its peak. -/
  | monSelWrite (kind : Nat) (index : Nat)
  /-- SOFT_RESET (R490): PCM.RESET SOFT aborts every queue and destroys every context. -/
  | softReset
  /-- WARM_RESET (R488): PCM.RESET WARM completes descriptors DEVICE_HELD and then performs a warm reset. -/
  | warmReset
  /-- CORE_RESET (R491): PCM.RESET CORE resets one vector machine and kills its context. -/
  | coreReset (n : Nat)
  /-- PARTNER_SIGNAL_LOSS (R413): A port that had signal from its partner loses it and goes to DOWN. -/
  | partnerSignalLoss (p : Nat)
  /-- LANE_LOCK_REGAINED (R413): Every lane of a port in RELOCK regains lock within 100 µs, and the port returns to SERVICE with replay. -/
  | laneLockRegained (p : Nat)
  /-- LINK_CODEWORD_UNCORRECTABLE (R413): An RS(544,514) codeword arrives uncorrectable, and the sixteenth within 1 ms puts the port in RELOCK. -/
  | linkCodewordUncorrectable (p : Nat)
  /-- TWN_HB_IN_CHANGE (R435): The twin's TWN_HB_IN input changes level, which restarts the 1 ms watch and can make the heartbeat live. -/
  | twnHbInChange
  /-- BOOT_COMPLETE (R93): Boot reaches step 8, or the boot ROM's RECOVERY state when no bank passes, and sets LIFE to RECOVERY, UNCLAIMED or HELD. -/
  | bootComplete
  /-- IMAGE_CHECKS_COMPLETE (R49): The SIM finishes a VERIFY, COMMIT or RELEASE: it reaches the commit point, advances the floor, puts the image in force and sets DONE, or reports the failing check. -/
  | imageChecksComplete
  /-- REQUEST_CHECKS_COMPLETE (R66): The TKM finishes the signature checks of a submitted owner request, and then fails it, writes a READ response or begins the scrub of a change. -/
  | requestChecksComplete
  /-- BUNDLE_CHECKS_COMPLETE (R109): FW_END finishes verifying the appended bundle and marks the bank valid at one instant, or reports the failing code. -/
  | bundleChecksComplete
  /-- DEBUG_PORT_ACCESS (R515): The debug holder issues an access through the debug access port to a device physical address or BAR0 register, or a full scan. -/
  | debugPortAccess (a : DbgAccess)
  /-- DOE_DISCOVERY (R381): A DOE Discovery request is answered with the supported data object types. -/
  | doeDiscovery
  deriving DecidableEq, Repr

end Sys2Proof
end

