-- ==== Sys2Proof/Decode.lean ====
section
/-!
DEFINITION. The table of the spec gives no row any bits, so no word spells a command. The instruction words whose bits the
manual gives are read here: the vector words (R175, R182, R196), the vector memory words (R207) and the stream long forms
(R260). Each definition says which instruction a word holds; the row of that instruction is the command that executes it.
-/
namespace Sys2Proof

/-- The command that a word spells by the table's bits: none, for every word (notes/assumptions/10.md). -/
def decodeTableWord (_nbits _w : Nat) : Option Instr := none

/-! ## Vector words -/

/-- The common vector word's fields (Table 3 of 07); FN[5] is ALT, and a nonzero FN[5] is reserved in the other groups. -/
def VecWord.of (w : BitVec 32) : VecWord :=
  { vd := w.extractLsb' 21 5, va := w.extractLsb' 16 5, vb := w.extractLsb' 11 5, pm := w.extractLsb' 8 3
    z := w.getLsbD 7, s := w.getLsbD 6, alt := w.getLsbD 5 }

/-- The conversion word's fields (Table 14 of 07). -/
def ConvWord.of (w : BitVec 32) : ConvWord :=
  { vd := w.extractLsb' 21 5, va := w.extractLsb' 16 5, src := w.extractLsb' 12 4, sat := w.getLsbD 11
    pm := w.extractLsb' 8 3, z := w.getLsbD 7, sr := w.getLsbD 6, dst := w.extractLsb' 2 4, rsv := w.extractLsb' 0 2 }

/-- MAJOR of a word. -/
def majorOf (w : BitVec 32) : Nat := (w.extractLsb' 26 6).toNat

/-- FN[4:0] of a word. -/
def fnOf (w : BitVec 32) : Nat := (w.extractLsb' 0 5).toNat

/-- Integer functions (Table 6 of 07): FN of an instruction of the group. -/
def Instr.vecInt : Instr → Option (Nat × VecWord)
  | .vadd _ w => some (0x00, w)
  | .vsub _ w => some (0x01, w)
  | .vmul _ w => some (0x02, w)
  | .vmulh _ w => some (0x03, w)
  | .vmulhu _ w => some (0x04, w)
  | .vmin _ w => some (0x05, w)
  | .vmax _ w => some (0x06, w)
  | .vminu _ w => some (0x07, w)
  | .vmaxu _ w => some (0x08, w)
  | .vand _ w => some (0x09, w)
  | .vor _ w => some (0x0A, w)
  | .vxor _ w => some (0x0B, w)
  | .vsll _ w => some (0x0C, w)
  | .vsrl _ w => some (0x0D, w)
  | .vsra _ w => some (0x0E, w)
  | .vsadd _ w => some (0x0F, w)
  | .vssub _ w => some (0x10, w)
  | .vmacc _ w => some (0x11, w)
  | .vid _ w => some (0x12, w)
  | _ => none

/-- Floating-point functions (Table 7 of 07): FN of an instruction of the group. -/
def Instr.vecFp : Instr → Option (Nat × VecWord)
  | .vfadd _ w => some (0x00, w)
  | .vfsub _ w => some (0x01, w)
  | .vfmul _ w => some (0x02, w)
  | .vfdiv _ w => some (0x03, w)
  | .vfsqrt _ w => some (0x04, w)
  | .vfrec _ w => some (0x05, w)
  | .vfrsqrt _ w => some (0x06, w)
  | .vfmin _ w => some (0x07, w)
  | .vfmax _ w => some (0x08, w)
  | .vfabs _ w => some (0x09, w)
  | .vfneg _ w => some (0x0A, w)
  | .vfsgnj _ w => some (0x0B, w)
  | .vfma _ w => some (0x10, w)
  | .vfms _ w => some (0x11, w)
  | .vfnma _ w => some (0x12, w)
  | .vfnms _ w => some (0x13, w)
  | _ => none

/-- Widening and dot-product functions (Table 8 of 07): FN of an instruction of the group. -/
def Instr.vecDot : Instr → Option (Nat × VecWord)
  | .vfwmul _ w => some (0x00, w)
  | .vfwma _ w => some (0x01, w)
  | .vfwadd _ w => some (0x02, w)
  | .vfwaddw _ w => some (0x03, w)
  | .vdot4I8 _ w => some (0x08, w)
  | .vdot2H _ w => some (0x09, w)
  | .vdot4E4m3 _ w => some (0x0A, w)
  | .vdot4E5m2 _ w => some (0x0B, w)
  | .vdot4E4e5 _ w => some (0x0C, w)
  | _ => none

/-- Compare functions (Table 10 of 07): FN of an instruction of the group. -/
def Instr.vecCmp : Instr → Option (Nat × VecWord)
  | .vcmpeq _ w => some (0x00, w)
  | .vcmpne _ w => some (0x01, w)
  | .vcmplt _ w => some (0x02, w)
  | .vcmple _ w => some (0x03, w)
  | .vcmpltu _ w => some (0x04, w)
  | .vcmpleu _ w => some (0x05, w)
  | .vfcmpeq _ w => some (0x10, w)
  | .vfcmpne _ w => some (0x11, w)
  | .vfcmplt _ w => some (0x12, w)
  | .vfcmple _ w => some (0x13, w)
  | .vfcmpun _ w => some (0x14, w)
  | _ => none

/-- Predicate-logic functions (Table 11 of 07): FN of an instruction of the group. -/
def Instr.vecPred : Instr → Option (Nat × VecWord)
  | .pAnd _ w => some (0x00, w)
  | .pOr _ w => some (0x01, w)
  | .pXor _ w => some (0x02, w)
  | .pAndn _ w => some (0x03, w)
  | .pNot _ w => some (0x04, w)
  | .pSet _ w => some (0x05, w)
  | .pcnt _ w => some (0x08, w)
  | .pfirst _ w => some (0x09, w)
  | _ => none

/-- Reductions and scans (Table 12 of 07): FN of an instruction of the group. -/
def Instr.vecRed : Instr → Option (Nat × VecWord)
  | .vredsum _ w => some (0x00, w)
  | .vredmin _ w => some (0x01, w)
  | .vredmax _ w => some (0x02, w)
  | .vredminu _ w => some (0x03, w)
  | .vredmaxu _ w => some (0x04, w)
  | .vfredsum _ w => some (0x08, w)
  | .vfredosum _ w => some (0x09, w)
  | .vfredmin _ w => some (0x0A, w)
  | .vfredmax _ w => some (0x0B, w)
  | .vscansum _ w => some (0x10, w)
  | .vscanmin _ w => some (0x11, w)
  | .vscanmax _ w => some (0x12, w)
  | .vfscansum _ w => some (0x18, w)
  | .vfscanmin _ w => some (0x1A, w)
  | .vfscanmax _ w => some (0x1B, w)
  | _ => none

/-- Permute functions (Table 13 of 07): FN of an instruction of the group. -/
def Instr.vecPerm : Instr → Option (Nat × VecWord)
  | .vperm _ w => some (0x00, w)
  | .vbcaste _ w => some (0x01, w)
  | .vslidedn _ w => some (0x02, w)
  | .vslideup _ w => some (0x03, w)
  | .vrev _ w => some (0x04, w)
  | .vcompress _ w => some (0x05, w)
  | .vexpand _ w => some (0x06, w)
  | _ => none

/-- Move functions (Table 16 of 07): FN of an instruction of the group. -/
def Instr.vecMove : Instr → Option (Nat × VecWord)
  | .vmv _ w => some (0x00, w)
  | .vbcast _ w => some (0x01, w)
  | .vgetx _ w => some (0x02, w)
  | .vgetf _ w => some (0x03, w)
  | .vput _ w => some (0x04, w)
  | _ => none

/-- R175, R176: whether a configuration word (Table 2 of 07) holds an instruction: a field that is not the function's is zero. -/
def Instr.inConfig (w : BitVec 32) (i : Instr) : Bool :=
  let rd := w.extractLsb' 21 5
  let ra := w.extractLsb' 16 5
  let sew := w.extractLsb' 14 2
  let imm := w.extractLsb' 0 12
  let op := (w.extractLsb' 12 2).toNat
  match i with
  | .setvl _ rd' ra' sew' => decide (op = 0) && decide (imm = 0) && decide (rd' = rd) && decide (ra' = ra) && decide (sew' = sew)
  | .setvli _ rd' sew' imm' => decide (op = 1) && decide (rd' = rd) && decide (sew' = sew) && decide (imm' = imm)
  | .getvl _ rd' => decide (op = 2) && decide (ra = 0) && decide (sew = 0) && decide (imm = 0) && decide (rd' = rd)
  | _ => false

/-! ## Vector memory words -/

/-- The vector memory word's fields (Table 1 of 08). `mbz` says that a field that the form requires to be zero, and that its
command does not carry, is not. -/
def MemWord.of (w : BitVec 32) (mbz : Bool) : MemWord :=
  { vd := w.extractLsb' 21 5, ra := w.extractLsb' 16 5, rb := w.extractLsb' 11 5, pm := w.extractLsb' 8 3
    z := w.getLsbD 7, scale := w.extractLsb' 3 2, nt := w.getLsbD 2, mbz := mbz || decide (w.extractLsb' 0 2 ≠ 0) }

/-- R207: whether a vector memory word holds an instruction, by MAJOR, MODE (bit 5) and FF (bit 6) of Table 2 of 08. -/
def Instr.inMem (w : BitVec 32) (i : Instr) : Bool :=
  let m := majorOf w
  let ff := w.getLsbD 6
  let mode := w.getLsbD 5
  match i with
  | .vld _ x => decide (m = 0x2C) && !ff && decide (x = .of w mode)
  | .vldff _ x => decide (m = 0x2C) && ff && decide (x = .of w mode)
  | .vst _ x => decide (m = 0x2D) && decide (x = .of w (mode || ff))
  | .vlds _ x => decide (m = 0x2E) && !mode && !ff && decide (x = .of w false)
  | .vldsff _ x => decide (m = 0x2E) && !mode && ff && decide (x = .of w false)
  | .vgath _ x => decide (m = 0x2E) && mode && !ff && decide (x = .of w false)
  | .vgathff _ x => decide (m = 0x2E) && mode && ff && decide (x = .of w false)
  | .vsts _ x => decide (m = 0x2F) && !mode && decide (x = .of w ff)
  | .vscat _ x => decide (m = 0x2F) && mode && decide (x = .of w ff)
  | _ => false

/-- R182: the functions of a group of Table 4 of 07 that the common word carries. -/
def Instr.vecFn (major : Nat) (i : Instr) : Option (Nat × VecWord) :=
  match major with
  | 0x21 => i.vecInt
  | 0x22 => i.vecFp
  | 0x23 => i.vecDot
  | 0x24 => i.vecCmp
  | 0x25 => i.vecPred
  | 0x26 => i.vecRed
  | 0x27 => i.vecPerm
  | 0x29 => i.vecMove
  | _ => none

/-- R182, R184: whether a vector word holds an instruction, by the groups of Table 4 of 07. A word that holds none is an illegal
instruction. -/
def Instr.inVector (w : BitVec 32) (i : Instr) : Bool :=
  match majorOf w with
  | 0x20 => i.inConfig w
  | 0x28 => (match i with | .vectorConversion _ x => decide (x = .of w) | _ => false)
  | m => i.inMem w || decide (i.vecFn m = some (fnOf w, .of w))

/-! ## Stream long forms -/

/-- R260: whether a prefix and a second word hold a stream long form (Table 2 of 10): UNIT is the engine's, and no reserved
field is nonzero. -/
def Instr.inStream (p w : BitVec 32) (i : Instr) : Bool :=
  let ok := fun (op : Nat) (e : Bool) (mem : BitVec 2) (ra : BitVec 5) =>
    decide (majorOf p = 0x3F) && decide ((p.extractLsb' 22 4).toNat = if e then 2 else 1)
      && decide ((p.extractLsb' 16 6).toNat = op) && decide (p.extractLsb' 14 2 = mem) && decide (p.extractLsb' 0 14 = 0)
      && decide (w.extractLsb' 27 5 = ra) && decide (w.extractLsb' 0 27 = 0)
  match i with
  | .scload _ e mem ra => ok 1 e mem ra
  | .scgo _ e mem ra => ok 2 e mem ra
  | _ => false

end Sys2Proof
end

