-- ==== Sys2Proof/Config.lean ====
section
/-!
DEFINITION. What the manual leaves open: the cryptography it names without giving its arithmetic, the secrets and
fuses of one part, and the free values. Every constant here is opaque: no proof can see its value, so a statement
about it holds whatever it is (notes/assumptions/1.md, 2.md, 3.md).
-/
namespace Sys2Proof.Config

/-- SHA3-512 of a byte string (R35, R64, R90, R96): the spec names the function and gives no arithmetic. -/
opaque sha3 : List Byte → Digest

/-- ML-DSA-87 verification of a signature over a message, with an empty context string (R35). -/
opaque mldsaVerify (key msg sig : List Byte) : Bool

/-- Whether bytes are a well-formed ML-DSA-87 public key (Table 4 of 03, BAD_KEY). -/
opaque mldsaKeyOk : List Byte → Bool

/-- Whether bytes are a well-formed ML-KEM-1024 encapsulation key (Table 4 of 03, BAD_KEY). -/
opaque kemKeyOk : List Byte → Bool

/-- ML-KEM-1024 encapsulation under a key, for the n-th fresh draw: ciphertext and shared secret (R68, R103). -/
opaque kemEncap (key : List Byte) (draw : Nat) : List Byte × List Byte

/-- ML-KEM-1024 key generation for the n-th fresh draw: encapsulation key and decapsulation key (R103). -/
opaque kemGen (draw : Nat) : List Byte × List Byte

/-- ML-KEM-1024 decapsulation: the shared secret of a ciphertext (R103). -/
opaque kemDecap (key ciphertext : List Byte) : List Byte

/-- AES-256-GCM sealing: key, nonce, associated data, plaintext; answers ciphertext then tag (R68). -/
opaque gcmSeal (key nonce aad plain : List Byte) : List Byte

/-- The ML-DSA-87 public key generated from a 32-byte seed (R98, R99). -/
opaque mldsaPublic : List Byte → List Byte

/-- An ML-DSA-87 signature under the key of a seed (R99, R100). -/
opaque mldsaSign (seed msg : List Byte) : List Byte

/-- The certificates that the vendor signs at manufacture: 0 the root, 1 the intermediate, 2 the identity certificate. -/
opaque factoryCert : Nat → List Byte

/-- The X.509 bytes of a boot certificate before its signature: the public key it certifies, the extension's content (R99),
and its issue. The manual gives no encoding. -/
opaque certBody (key extension : List Byte) (issue : Nat) : List Byte

/-- The unique device secret in the fuses, 32 bytes (R88). -/
opaque uds : List Byte

/-- ROOT_HASH[k], the SHA3-512 hashes of the four vendor root public keys (R88). -/
opaque rootHash : Nat → Digest

/-- DEBUG_DISABLE, one fuse (R88). -/
opaque debugDisable : Bool

/-- The cores fused off at manufacture: bit n set for core n (Table 10 of 01). -/
opaque fusedOff : BitVec 64

/-- The boot ROM image of the stepping, measured in slot 0 (R96). -/
opaque bootRom : List Byte

/-- The bundle the factory programs into bank A: its bytes (R90). -/
opaque factoryBundle : List Byte

/-- The bytes of an X.509 or SPDM object the manual does not lay out (R100): by kind and draw. -/
opaque spdmBytes (kind draw : Nat) : List Byte

/-- What the exclusion copy's read of a sector finds (R338, R353): the outcome's number, a syndrome and bytes, by draw. -/
opaque copyRead (draw sector : Nat) : Nat × Nat × List Byte

/-- A byte of the range and window tables of set 0 (R515) as the debug access port reads it: by draw and address. -/
opaque tableByte (draw addr : Nat) : Byte

/-- A dword of configuration space that the manual does not give (R381), by draw and offset. -/
opaque configDword (draw offset : Nat) : Nat

/-- The rows of SRAM that the repair map holds as replaced (Table 6 of 17), as the factory wrote them. -/
opaque sramRepairs : List Word

/-- A figure that the device measures and the manual gives no arithmetic for (utilisation and margins of R74 and R494, the
latency and bandwidth of R384): a free reading by draw and index. -/
opaque reading (draw index : Nat) : Nat

/-- The island that a compute-die sensor lies in (R485); the manual does not place the 96 sensors. -/
opaque sensorIsland (sensor : Nat) : Nat

/-- Sectors that a port's receiver can hold of each VLANE, which the manual does not give (R419). -/
opaque rxBuffer : Nat → Nat

/-- The firmware's per-part voltage table: millivolts for a frequency in MHz of an island (R483). -/
opaque voltMv (island mhz : Nat) : Nat

/-- The core monitor's entry address for a cause (R161). -/
opaque monitorEntry : Nat → Word

/-- What time adds to a counter that no rule fixes, by draw and counter: 0 to 15 those of Table 9 of 06, 16 FLT.SRAM_CE
(R446). -/
opaque freePmc (draw counter : Nat) : Word

/-- The bits of a register above a narrower result that the manual does not state (R148, R152, R157, R159): by the
result's width and value. -/
opaque freeHigh (bits v : Nat) : Word

/-- Free 64-bit values: the n-th value the manual leaves open. -/
opaque freeWord : Nat → Word

/-- The DZ and IV flags of a division by zero or of 0/0 and inf/inf, which Table 5 of 05 does not state. -/
opaque divFlags (a b : Nat) : BitVec 5

end Sys2Proof.Config
end

