-- ==== Sys2Proof/Machine/Base.lean ====
section
/-!
DEFINITION. Plain data the whole model is built on: canonical sparse tables, byte memory over them, sorted sets of
numbers, bit fields of words and little-endian byte strings (R4).
-/
namespace Sys2Proof.Machine

/-! ## Sparse tables in one canonical form -/

/-- A sparse table: keys strictly rising, no entry equal to the table's default. Unlisted keys read as the default. -/
abbrev Tab (α : Type) := List (Nat × α)

/-- The entry at a key; an unlisted key reads as the default. -/
def Tab.get {α : Type} (d : α) : Tab α → Nat → α
  | [], _ => d
  | (k, v) :: r, a => if a < k then d else if a = k then v else Tab.get d r a

/-- Writes an entry and keeps the canonical form: writing the default removes the entry. -/
def Tab.put {α : Type} [DecidableEq α] (d : α) : Tab α → Nat → α → Tab α
  | [], a, b => if b = d then [] else [(a, b)]
  | (k, v) :: r, a, b =>
    if a < k then (if b = d then (k, v) :: r else (a, b) :: (k, v) :: r)
    else if a = k then (if b = d then r else (a, b) :: r)
    else (k, v) :: Tab.put d r a b

/-- Reads, applies a function and writes back. -/
def Tab.upd {α : Type} [DecidableEq α] (d : α) (t : Tab α) (a : Nat) (f : α → α) : Tab α :=
  Tab.put d t a (f (Tab.get d t a))

/-- Removes every entry whose key meets a condition. -/
def Tab.drop {α : Type} (t : Tab α) (p : Nat → Bool) : Tab α := t.filter (fun e => !p e.1)

/-- Applies a function to every listed entry; entries that become the default are removed. -/
def Tab.mapAll {α : Type} [DecidableEq α] (d : α) (t : Tab α) (f : Nat → α → α) : Tab α :=
  (t.map (fun e => (e.1, f e.1 e.2))).filter (fun e => e.2 ≠ d)

/-- The canonical form. -/
def Tab.wf {α : Type} [DecidableEq α] (d : α) : Tab α → Bool
  | [] => true
  | [(_, v)] => decide (v ≠ d)
  | (k, v) :: (k', v') :: r => decide (v ≠ d) && decide (k < k') && Tab.wf d ((k', v') :: r)

/-! ## Byte memory -/

/-- Byte memory: a canonical list of cells; a byte that is not listed reads as zero (notes/assumptions/5.md). -/
abbrev Mem := List (Nat × Byte)

/-- The canonical form of a memory. -/
def Mem.wf (m : Mem) : Bool := Tab.wf (0 : Byte) m

/-- Reads one byte. -/
def Mem.read (m : Mem) (a : Nat) : Byte := Tab.get 0 m a

/-- Writes one byte. -/
def Mem.write (m : Mem) (a : Nat) (b : Byte) : Mem := Tab.put 0 m a b

/-- Reads n bytes at rising addresses. -/
def Mem.readBytes (m : Mem) (a : Nat) : Nat → List Byte
  | 0 => []
  | n + 1 => m.read a :: Mem.readBytes m (a + 1) n

/-- Writes bytes at rising addresses. -/
def Mem.writeBytes (m : Mem) (a : Nat) : List Byte → Mem
  | [] => m
  | b :: bs => Mem.writeBytes (m.write a b) (a + 1) bs

/-- Makes a range of bytes zero. -/
def Mem.zero (m : Mem) (a n : Nat) : Mem := Tab.drop m (fun k => decide (a ≤ k) && decide (k < a + n))

/-- Little-endian value of bytes (R4). -/
def leNat : List Byte → Nat
  | [] => 0
  | b :: bs => b.toNat + 256 * leNat bs

/-- The n low bytes of a value, least significant first (R4). -/
def leBytes : Nat → Nat → List Byte
  | 0, _ => []
  | n + 1, v => BitVec.ofNat 8 v :: leBytes n (v / 256)

/-- A little-endian read of n bytes. -/
def Mem.readLe (m : Mem) (a n : Nat) : Nat := leNat (m.readBytes a n)

/-- A little-endian write of n bytes. -/
def Mem.writeLe (m : Mem) (a n v : Nat) : Mem := m.writeBytes a (leBytes n v)

/-! ## Sorted sets of numbers -/

/-- Membership in a sorted set of numbers. -/
def nsHas (t : List Nat) (a : Nat) : Bool := t.contains a

/-- Inserts a number into a sorted set. -/
def nsIns : List Nat → Nat → List Nat
  | [], a => [a]
  | k :: r, a => if a < k then a :: k :: r else if a = k then k :: r else k :: nsIns r a

/-- Removes a number from a set. -/
def nsDel (t : List Nat) (a : Nat) : List Nat := t.filter (· ≠ a)

/-- Inserts the n numbers from a upward. -/
def nsInsRange (t : List Nat) (a : Nat) : Nat → List Nat
  | 0 => t
  | n + 1 => nsInsRange (nsIns t a) (a + 1) n

/-- Removes the n numbers from a upward. -/
def nsDelRange (t : List Nat) (a n : Nat) : List Nat := t.filter (fun k => !(decide (a ≤ k) && decide (k < a + n)))

/-! ## Lists as register files -/

/-- Applies a function to one entry of a list. -/
def modAt {α : Type} : List α → Nat → (α → α) → List α
  | [], _, _ => []
  | x :: xs, 0, f => f x :: xs
  | x :: xs, n + 1, f => x :: modAt xs n f

/-- The first index whose entry meets a condition. -/
def findIdx? {α : Type} (p : α → Bool) : List α → Option Nat
  | [] => none
  | x :: xs => if p x then some 0 else (findIdx? p xs).map (· + 1)

/-! ## Bit fields -/

/-- Bits [lo + n - 1 : lo] of a number. -/
def bits (w lo n : Nat) : Nat := (w >>> lo) % 2 ^ n

/-- One bit of a number. -/
def bit (w i : Nat) : Bool := w.testBit i

/-- A bit as a number. -/
def bnat (b : Bool) : Nat := if b then 1 else 0

/-- A field value placed at a bit position. -/
def fld (v lo : Nat) : Nat := v <<< lo

/-- Sign extension of the low n bits of a number, n at least 1. -/
def sext (n v : Nat) : Int := if bit v (n - 1) then (v % 2 ^ n : Nat) - (2 ^ n : Nat) else (v % 2 ^ n : Nat)

/-- The little-endian number at byte offset o of n bytes in a byte string; bytes beyond the string read zero. -/
def leAt (bs : List Byte) (o n : Nat) : Nat := leNat ((bs.drop o).take n)

/-- n bytes at offset o of a byte string. -/
def sliceAt (bs : List Byte) (o n : Nat) : List Byte := (bs.drop o).take n

/-- n zero bytes. -/
def zeros (n : Nat) : List Byte := List.replicate n 0

/-- Replaces the bytes at offset o of a byte string of fixed length. -/
def patch (bs : List Byte) (o : Nat) (new : List Byte) : List Byte :=
  bs.take o ++ new ++ bs.drop (o + new.length)

/-- Adds one to a count that stops at a limit. -/
def satInc (lim n : Nat) : Nat := if n < lim then n + 1 else n

end Sys2Proof.Machine
end

