-- ==== Sys2Proof/Machine/Fp.lean ====
section
/-!
DEFINITION. The number formats and the arithmetic of 05_number_formats: layouts (R118 to R123), rounding modes
(R124 to R126), conditions (R127), stochastic rounding (R128 to R130), comparison (R131), the fused dot (R132, R134),
conversions (R135, R136) and block-scaled formats (R137 to R142). Finite values are exact: a sign, a Nat
significand and a binary exponent.
-/
namespace Sys2Proof.Machine

/-- How a format spends its all-ones exponent field (R119, R120). -/
inductive FpSpecial where
  | ieee
  | e4m3
  | none
  deriving DecidableEq, Repr

/-- A floating-point layout of Table 2: exponent bits, fraction bits, bias. -/
structure FpFmt where
  eb : Nat
  fb : Nat
  bias : Nat
  special : FpSpecial
  deriving DecidableEq, Repr

def FpFmt.fp64 : FpFmt := ⟨11, 52, 1023, .ieee⟩
def FpFmt.fp32 : FpFmt := ⟨8, 23, 127, .ieee⟩
def FpFmt.bf16 : FpFmt := ⟨8, 7, 127, .ieee⟩
def FpFmt.fp16 : FpFmt := ⟨5, 10, 15, .ieee⟩
def FpFmt.e4m3 : FpFmt := ⟨4, 3, 7, .e4m3⟩
def FpFmt.e5m2 : FpFmt := ⟨5, 2, 15, .ieee⟩
def FpFmt.e2m1 : FpFmt := ⟨2, 1, 1, .none⟩

/-- Width in bits. -/
def FpFmt.width (F : FpFmt) : Nat := 1 + F.eb + F.fb

/-- emin of Table 2. -/
def FpFmt.emin (F : FpFmt) : Int := 1 - (F.bias : Int)

/-- emax of Table 2: 8 for E4M3 and 2 for E2M1, whose all-ones exponent field holds normal numbers. -/
def FpFmt.emax (F : FpFmt) : Int :=
  match F.special with
  | .ieee => (2 ^ F.eb - 2 : Nat) - (F.bias : Int)
  | _ => (2 ^ F.eb - 1 : Nat) - (F.bias : Int)

/-- The largest finite significand, in units of 2^(emax - fb): 448 is 14 units of 2^5 in E4M3. -/
def FpFmt.maxSig (F : FpFmt) : Nat :=
  match F.special with
  | .e4m3 => 2 ^ (F.fb + 1) - 2
  | _ => 2 ^ (F.fb + 1) - 1

/-- A decoded value: a NaN, an infinity, or (-1)^s × m × 2^e exactly. -/
inductive FpVal where
  | nan
  | inf (s : Bool)
  | num (s : Bool) (m : Nat) (e : Int)
  deriving DecidableEq, Repr

def FpVal.zero : FpVal := .num false 0 0

/-- R119: the value of an encoding. -/
def FpFmt.decode (F : FpFmt) (b : Nat) : FpVal :=
  let s := b.testBit (F.eb + F.fb)
  let ex := (b >>> F.fb) % 2 ^ F.eb
  let fr := b % 2 ^ F.fb
  if F.special = .ieee ∧ ex = 2 ^ F.eb - 1 then (if fr = 0 then .inf s else .nan)
  else if F.special = .e4m3 ∧ ex = 2 ^ F.eb - 1 ∧ fr = 2 ^ F.fb - 1 then .nan
  else if ex = 0 then .num s fr (F.emin - F.fb)
  else .num s (fr + 2 ^ F.fb) ((ex : Int) - F.bias - F.fb)

def FpFmt.signBit (F : FpFmt) (s : Bool) : Nat := if s then 2 ^ (F.eb + F.fb) else 0

/-- Table 3: the default NaN. -/
def FpFmt.nanBits (F : FpFmt) : Nat :=
  match F.special with
  | .ieee => (2 ^ F.eb - 1) * 2 ^ F.fb + 2 ^ (F.fb - 1)
  | .e4m3 => 2 ^ (F.eb + F.fb) - 1
  | .none => 0

def FpFmt.infBits (F : FpFmt) (s : Bool) : Nat := F.signBit s + (2 ^ F.eb - 1) * 2 ^ F.fb

/-- The largest finite value with a sign. -/
def FpFmt.maxBits (F : FpFmt) (s : Bool) : Nat :=
  F.signBit s +
    match F.special with
    | .ieee => (2 ^ F.eb - 2) * 2 ^ F.fb + (2 ^ F.fb - 1)
    | .e4m3 => 2 ^ (F.eb + F.fb) - 2
    | .none => 2 ^ (F.eb + F.fb) - 1

/-- Encodes k units of 2^q, where k is below 2^(fb+1), or equal to it. -/
def FpFmt.encodeSig (F : FpFmt) (s : Bool) (k : Nat) (q : Int) : Nat :=
  if k < 2 ^ F.fb then F.signBit s + k
  else
    let k' := if k = 2 ^ (F.fb + 1) then 2 ^ F.fb else k
    let q' := if k = 2 ^ (F.fb + 1) then q + 1 else q
    F.signBit s + (q' + F.fb + F.bias).toNat * 2 ^ F.fb + (k' - 2 ^ F.fb)

/-- The conditions of Table 5 as FFLAGS holds them: [4] IV, [3] DZ, [2] OF, [1] UF, [0] NX. -/
abbrev Cond := BitVec 5

def Cond.iv : Cond := 16#5
def Cond.dz : Cond := 8#5
def Cond.ovf : Cond := 4#5
def Cond.unf : Cond := 2#5
def Cond.nx : Cond := 1#5

/-- Table 4: the rounding modes; SR carries the element's random word (R130). -/
inductive Rm where
  | rne
  | rtz
  | rdn
  | rup
  | sr (r : BitVec 32)
  deriving DecidableEq, Repr

/-- R128: mix64. -/
def mix64 (z0 : Word) : Word :=
  let z1 := (z0 ^^^ (z0 >>> 30)) * 0xBF58476D1CE4E5B9#64
  let z2 := (z1 ^^^ (z1 >>> 27)) * 0x94D049BB133111EB#64
  z2 ^^^ (z2 >>> 31)

/-- R128, R129: the random word; the index is taken modulo 2^48. -/
def srBits (seed : Word) (stream : BitVec 16) (index : Nat) : BitVec 32 :=
  let key := mix64 (seed ^^^ ((stream.setWidth 64) <<< 48))
  ((mix64 (key + BitVec.ofNat 64 (index % 2 ^ 48))) >>> 32).setWidth 32

/-- Whether the mode rounds a value of this sign toward zero. -/
def Rm.towardZero (rm : Rm) (s : Bool) : Bool :=
  match rm with
  | .rtz => true
  | .rdn => !s
  | .rup => s
  | _ => false

/-- m × 2^e in units of 2^q, rounded, and whether it was inexact (R124, R130). -/
def roundSig (s : Bool) (m : Nat) (e q : Int) (rm : Rm) : Nat × Bool :=
  if q ≤ e then (m * 2 ^ (e - q).toNat, false)
  else
    let k := (q - e).toNat
    let lo := m / 2 ^ k
    let rem := m % 2 ^ k
    if rem = 0 then (lo, false)
    else
      let up : Bool :=
        match rm with
        | .rne => decide (2 ^ k < rem * 2) || (decide (rem * 2 = 2 ^ k) && decide (lo % 2 = 1))
        | .rtz => false
        | .rdn => s
        | .rup => !s
        | .sr r => decide (r.toNat < rem * 2 ^ 32 / 2 ^ k)
      (if up then lo + 1 else lo, true)

/-- a × 2^ea < b × 2^eb. -/
def scaledLt (a : Nat) (ea : Int) (b : Nat) (eb : Int) : Bool :=
  if ea ≤ eb then decide (a < b * 2 ^ (eb - ea).toNat) else decide (a * 2 ^ (ea - eb).toNat < b)

/-- Rounds an exact nonzero or zero value once to a format (R124 to R127, R130, R136, Table 6 of 05). An overflow into
E4M3 with SAT 0 raises IV also where the mode rounds it toward zero (Table 5 of 05). -/
def FpFmt.round (F : FpFmt) (rm : Rm) (sat : Bool) (s : Bool) (m : Nat) (e : Int) : Nat × Cond :=
  if m = 0 then (F.signBit s, 0)
  else
    let top := e + (Nat.log2 m : Int)
    let qn := top - F.fb
    let q := max qn (F.emin - F.fb)
    let r := roundSig s m e q rm
    if scaledLt F.maxSig (F.emax - F.fb) r.1 q then
      if sat then (F.maxBits s, Cond.ovf ||| Cond.nx)
      else if rm.towardZero s then
        (F.maxBits s, if F.special = .e4m3 then Cond.ovf ||| Cond.iv ||| Cond.nx else Cond.ovf ||| Cond.nx)
      else
        match F.special with
        | .ieee => (F.infBits s, Cond.ovf ||| Cond.nx)
        | .e4m3 => (F.nanBits, Cond.ovf ||| Cond.iv ||| Cond.nx)
        | .none => (F.maxBits s, Cond.ovf ||| Cond.nx)
    else
      let u := roundSig s m e qn rm
      let tiny := scaledLt u.1 qn 1 F.emin
      (F.encodeSig s r.1 q,
        if r.2 then (if tiny then Cond.unf ||| Cond.nx else Cond.nx) else 0)

/-- R121: a NaN result with the invalid condition. -/
def FpFmt.invalid (F : FpFmt) : Nat × Cond := (F.nanBits, Cond.iv)

/-- R127, R135, R136: a conversion of a decoded value to a floating-point format. -/
def FpFmt.convert (F : FpFmt) (rm : Rm) (sat : Bool) (v : FpVal) : Nat × Cond :=
  match v with
  | .nan => F.invalid
  | .inf s =>
    match F.special with
    | .ieee => (F.infBits s, 0)
    | .e4m3 => if sat then (F.maxBits s, Cond.nx) else F.invalid
    | .none => (F.maxBits s, Cond.nx)
  | .num s m e => F.round rm sat s m e

/-- R132: an exact product; 0 × inf is a NaN. -/
def FpVal.mul (a b : FpVal) : FpVal :=
  match a, b with
  | .nan, _ => .nan
  | _, .nan => .nan
  | .inf s, .inf t => .inf (s != t)
  | .inf s, .num t m _ => if m = 0 then .nan else .inf (s != t)
  | .num s m _, .inf t => if m = 0 then .nan else .inf (s != t)
  | .num s m e, .num t n f => .num (s != t) (m * n) (e + f)

/-- R133: an exact scaling by a power of two. -/
def FpVal.scale (a : FpVal) (k : Int) : FpVal :=
  match a with
  | .num s m e => .num s m (e + k)
  | v => v

def FpVal.neg (a : FpVal) : FpVal :=
  match a with
  | .nan => .nan
  | .inf s => .inf (!s)
  | .num s m e => .num (!s) m e

def FpVal.isNan (a : FpVal) : Bool := match a with | .nan => true | _ => false
def FpVal.isInf (a : FpVal) (s : Bool) : Bool := match a with | .inf t => s == t | _ => false
def FpVal.isNegZero (a : FpVal) : Bool := match a with | .num true 0 _ => true | _ => false
def FpVal.isZero (a : FpVal) : Bool := match a with | .num _ 0 _ => true | _ => false
def FpVal.sign (a : FpVal) : Bool := match a with | .nan => false | .inf s => s | .num s _ _ => s
def FpVal.expOf (a : FpVal) : Int := match a with | .num _ _ e => e | _ => 0

/-- The signed significand of a finite value in units of 2^q, q no greater than its exponent. -/
def FpVal.intAt (a : FpVal) (q : Int) : Int :=
  match a with
  | .num s m e => if s then -((m * 2 ^ (e - q).toNat : Nat) : Int) else ((m * 2 ^ (e - q).toNat : Nat) : Int)
  | _ => 0

/-- R132: the exact sum of terms, rounded once. fused says that the form is a fused one, whose exact zero under
RDN is -0 unless every rule before says otherwise; a plain sum follows IEEE 754-2019 (a sum of +0s stays +0). -/
def FpFmt.sum (F : FpFmt) (rm : Rm) (fused : Bool) (terms : List FpVal) : Nat × Cond :=
  if terms.any FpVal.isNan then F.invalid
  else if terms.any (·.isInf false) && terms.any (·.isInf true) then F.invalid
  else if terms.any (·.isInf false) then (F.infBits false, 0)
  else if terms.any (·.isInf true) then (F.infBits true, 0)
  else
    let q : Int := terms.foldl (fun (q : Int) (t : FpVal) => min q t.expOf) 0
    let z : Int := terms.foldl (fun (z : Int) (t : FpVal) => z + t.intAt q) 0
    if z = 0 then
      if terms.all FpVal.isNegZero then (F.signBit true, 0)
      else if rm = .rdn ∧ (fused ∨ terms.any (·.sign)) then (F.signBit true, 0)
      else (F.signBit false, 0)
    else F.round rm false (decide (z < 0)) z.natAbs q

/-- a × b rounded once. -/
def FpFmt.mul (F : FpFmt) (rm : Rm) (a b : FpVal) : Nat × Cond :=
  match a.mul b with
  | .nan => F.invalid
  | .inf s => (F.infBits s, 0)
  | .num s m e => F.round rm false s m e

/-- The exact quotient of positive significands with a sticky bit: enough bits to round any format once. -/
def quotSticky (m n : Nat) : Nat × Int :=
  let k := 130 + Nat.log2 n
  let a := m * 2 ^ k
  (a / n * 2 + (if a % n = 0 then 0 else 1), -((k + 1 : Nat) : Int))

/-- R188: a ÷ b, correctly rounded. The DZ and IV flags of x/0, 0/0 and inf/inf are free (notes/assumptions/3.md). -/
def FpFmt.div (F : FpFmt) (rm : Rm) (a b : FpVal) (abits bbits : Nat) : Nat × Cond :=
  match a, b with
  | .nan, _ => F.invalid
  | _, .nan => F.invalid
  | .inf _, .inf _ => (F.nanBits, Cond.iv &&& Config.divFlags abits bbits)
  | .inf s, .num t _ _ => (F.infBits (s != t), 0)
  | .num s _ _, .inf t => (F.signBit (s != t), 0)
  | .num s m e, .num t n f =>
    if n = 0 then
      if m = 0 then (F.nanBits, Cond.iv &&& Config.divFlags abits bbits)
      else (F.infBits (s != t), Cond.dz &&& Config.divFlags abits bbits)
    else if m = 0 then (F.signBit (s != t), 0)
    else
      let q := quotSticky m n
      F.round rm false (s != t) q.1 (e - f + q.2)

/-- The integer square root by bisection on the bits of the result. -/
def sqrtBits : Nat → Nat → Nat → Nat
  | 0, _, r => r
  | k + 1, n, r =>
    let c := r + 2 ^ k
    sqrtBits k n (if c * c ≤ n then c else r)

def isqrt (n : Nat) : Nat := sqrtBits (Nat.log2 n / 2 + 1) n 0

/-- sqrt(m × 2^e) with a sticky bit. -/
def sqrtSticky (m : Nat) (e : Int) : Nat × Int :=
  let k : Nat := 2 * 130 + (if (e % 2) = 0 then 0 else 1)
  let a := m * 2 ^ k
  let r := isqrt a
  (r * 2 + (if r * r = a then 0 else 1), (e - (k : Int)) / 2 - 1)

/-- R188: square root; a negative nonzero operand gives the default NaN and IV, -0 gives -0. -/
def FpFmt.sqrt (F : FpFmt) (rm : Rm) (a : FpVal) : Nat × Cond :=
  match a with
  | .nan => F.invalid
  | .inf s => if s then F.invalid else (F.infBits false, 0)
  | .num s m e =>
    if m = 0 then (F.signBit s, 0)
    else if s then F.invalid
    else
      let r := sqrtSticky m e
      F.round rm false false r.1 r.2

/-- R188, R276: reciprocal; zero gives an infinity of its sign and DZ. -/
def FpFmt.recip (F : FpFmt) (rm : Rm) (a : FpVal) : Nat × Cond :=
  match a with
  | .nan => F.invalid
  | .inf s => (F.signBit s, 0)
  | .num s m e =>
    if m = 0 then (F.infBits s, Cond.dz)
    else
      let q := quotSticky 1 m
      F.round rm false s q.1 (q.2 - e)

/-- R188, R276: reciprocal square root, from sqrt(1 / a) with sticky bits: 2^k / m is taken far beyond any format. -/
def FpFmt.rsqrt (F : FpFmt) (rm : Rm) (a : FpVal) : Nat × Cond :=
  match a with
  | .nan => F.invalid
  | .inf s => if s then F.invalid else (F.signBit false, 0)
  | .num s m e =>
    if m = 0 then (F.infBits s, Cond.dz)
    else if s then F.invalid
    else
      -- 1 / (m 2^e) = (2^k / m) 2^(-k-e), with k chosen so that the exponent is even
      let k := 400 + 2 * Nat.log2 m + (if (e % 2) = 0 then 0 else 1)
      let d := 2 ^ k / m
      let r := isqrt d
      let exact := decide (r * r * m = 2 ^ k)
      F.round rm false false (r * 2 + (if exact then 0 else 1)) ((-(k : Int) - e) / 2 - 1)

/-- R131: a < b and a = b on ordered values, with -0 equal to +0. -/
def FpVal.lt (a b : FpVal) : Bool :=
  match a, b with
  | .nan, _ => false
  | _, .nan => false
  | .inf s, .inf t => s && !t
  | .inf s, .num _ _ _ => s
  | .num _ _ _, .inf t => !t
  | .num s m e, .num t n f =>
    let q := min e f
    decide ((FpVal.num s m e).intAt q < (FpVal.num t n f).intAt q)

def FpVal.eq (a b : FpVal) : Bool := !a.isNan && !b.isNan && !a.lt b && !b.lt a

/-- R131: minimum and maximum order -0 below +0 and return the default NaN when either operand is a NaN. -/
def FpFmt.minMax (F : FpFmt) (isMax : Bool) (abits bbits : Nat) : Nat × Cond :=
  let a := F.decode abits
  let b := F.decode bbits
  if a.isNan || b.isNan then F.invalid
  else
    let below := a.lt b || (a.eq b && a.sign && !b.sign)
    (if below != isMax then abits else bbits, 0)

/-- R127, R136: a conversion to a two's-complement integer of w bits. -/
def toIntRound (w : Nat) (rm : Rm) (v : FpVal) : Int × Cond :=
  let lo : Int := -((2 ^ (w - 1) : Nat) : Int)
  let hi : Int := ((2 ^ (w - 1) : Nat) : Int) - 1
  match v with
  | .nan => (0, Cond.iv)
  | .inf s => (if s then lo else hi, Cond.iv ||| Cond.nx)
  | .num s m e =>
    let r := roundSig s m e 0 rm
    let z : Int := if s then -(r.1 : Int) else r.1
    if z < lo then (lo, Cond.iv ||| Cond.nx)
    else if hi < z then (hi, Cond.iv ||| Cond.nx)
    else (z, if r.2 then Cond.nx else 0)

def FpVal.ofInt (z : Int) : FpVal := .num (decide (z < 0)) z.natAbs 0

/-- Two's complement of an unsigned value of w bits. -/
def sextInt (w n : Nat) : Int := if n < 2 ^ (w - 1) then (n : Int) else (n : Int) - 2 ^ w

def wrapInt (w : Nat) (z : Int) : Nat := (z % (2 ^ w : Nat)).toNat

/-- Table 1 of 05: the format codes. -/
inductive NumFmt where
  | fp64 | fp32 | bf16 | fp16 | e4m3 | e5m2 | bx8e4m3 | bx8e5m2 | bx4 | int8 | int32
  deriving DecidableEq, Repr

def NumFmt.ofCode : Nat → Option NumFmt
  | 0 => some .fp64 | 1 => some .fp32 | 2 => some .bf16 | 3 => some .fp16 | 4 => some .e4m3 | 5 => some .e5m2
  | 6 => some .bx8e4m3 | 7 => some .bx8e5m2 | 8 => some .bx4 | 9 => some .int8 | 10 => some .int32 | _ => none

/-- The layout of a format's elements; INT8 and INT32 have none. -/
def NumFmt.fp : NumFmt → FpFmt
  | .fp64 => .fp64 | .fp32 => .fp32 | .bf16 => .bf16 | .fp16 => .fp16
  | .e4m3 => .e4m3 | .e5m2 => .e5m2 | .bx8e4m3 => .e4m3 | .bx8e5m2 => .e5m2 | .bx4 => .e2m1
  | .int8 => .e4m3 | .int32 => .fp32

def NumFmt.isInt : NumFmt → Bool
  | .int8 => true | .int32 => true | _ => false

def NumFmt.isBx : NumFmt → Bool
  | .bx8e4m3 => true | .bx8e5m2 => true | .bx4 => true | _ => false

/-- Storage bits per element. -/
def NumFmt.bits : NumFmt → Nat
  | .fp64 => 64 | .fp32 => 32 | .bf16 => 16 | .fp16 => 16 | .e4m3 => 8 | .e5m2 => 8
  | .bx8e4m3 => 8 | .bx8e5m2 => 8 | .bx4 => 4 | .int8 => 8 | .int32 => 32

/-- Storage bytes per element, 1 for BX4 (R239 item 6). -/
def NumFmt.bytes (f : NumFmt) : Nat := max 1 (f.bits / 8)

def NumFmt.code : NumFmt → Nat
  | .fp64 => 0 | .fp32 => 1 | .bf16 => 2 | .fp16 => 3 | .e4m3 => 4 | .e5m2 => 5
  | .bx8e4m3 => 6 | .bx8e5m2 => 7 | .bx4 => 8 | .int8 => 9 | .int32 => 10

def NumFmt.decode (f : NumFmt) (b : Nat) : FpVal :=
  if f.isInt then .ofInt (sextInt f.bits b) else f.fp.decode b

/-- A conversion between any two formats, to bits of the destination (R135, R136). -/
def NumFmt.convert (src dst : NumFmt) (rm : Rm) (sat : Bool) (b : Nat) : Nat × Cond :=
  let v := src.decode b
  if dst.isInt then
    let r := toIntRound dst.bits rm v
    (wrapInt dst.bits r.1, r.2)
  else dst.fp.convert rm sat v

/-- R124: RM codes; SR takes the given random word; reserved codes answer none. -/
def Rm.ofCode (c : Nat) (r : BitVec 32) : Option Rm :=
  match c with
  | 0 => some .rne | 1 => some .rtz | 2 => some .rdn | 3 => some .rup | 4 => some (.sr r) | _ => none

/-! ## Block-scaled formats -/

/-- R137: the value of an element of a BX block with scale S. -/
def bxVal (F : FpFmt) (scale elem : Nat) : FpVal :=
  if scale = 255 then .nan else (F.decode elem).scale ((scale : Int) - 127)

/-- R138: block size by BSZ. -/
def bxSize : Nat → Option Nat
  | 0 => some 8 | 1 => some 16 | 2 => some 32 | 3 => some 64 | 4 => some 128 | _ => none

/-- R138, R139: the block extent (rows, columns) of BDIR and BSZ; none when reserved. -/
def bxExtent (bsz bdir : Nat) : Option (Nat × Nat) :=
  match bxSize bsz, bdir with
  | some b, 0 => some (1, b)
  | some b, 1 => some (b, 1)
  | some 64, 2 => some (8, 8)
  | _, _ => none

/-- ceil(a / b), with b nonzero. -/
def ceilDiv (a b : Nat) : Nat := (a + (b - 1)) / b

/-- floor(log2 |x|) of a finite nonzero value. -/
def FpVal.log2 (v : FpVal) : Int :=
  match v with
  | .num _ m e => e + (Nat.log2 m : Int)
  | _ => 0

/-- |a| < |b| on finite values. -/
def FpVal.absLt (a b : FpVal) : Bool :=
  match a, b with
  | .num _ m e, .num _ n f => scaledLt m e n f
  | _, _ => false

def FpVal.isFinite (v : FpVal) : Bool := match v with | .num _ _ _ => true | _ => false

/-- R141 round_sat: one element, rounded once and saturated, keeping its source's sign; saturation raises no condition. -/
def bxElem (F : FpFmt) (rm : Rm) (s : Nat) (v : FpVal) : Nat × Cond :=
  match v with
  | .num sg m e =>
    let r := F.round rm true sg m (e - ((s : Int) - 127))
    (r.1, if r.2 &&& Cond.ovf = 0 then r.2 else 0)
  | _ => (0, 0)

/-- R142: an element underflows when its source is nonzero and its element value is subnormal or zero. -/
def bxUnder (F : FpFmt) (v : FpVal) (elem : Nat) : Bool :=
  !v.isZero && decide ((elem >>> F.fb) % 2 ^ F.eb = 0)

/-- What quantising a block gives: the scale, the elements, how many underflowed (R142), and the conditions (R127). -/
structure BxBlock where
  scale : Nat
  els : List Nat
  under : Nat
  cond : Cond
  deriving DecidableEq, Repr

/-- R141: quantises one block of values, each with its own rounding mode (SR draws by element index). A NaN source raises
IV, and an element that rounding changes NX and, tiny, UF (R126, R127); the elements of a NaN block raise no NX (DEDUCED,
notes/assumptions/115.md). -/
def quantBlock (F : FpFmt) (xs : List (FpVal × Rm)) : BxBlock :=
  if xs.any (fun x => !x.1.isFinite) then
    ⟨255, xs.map (fun _ => 0), 0, if xs.any (fun x => x.1.isNan) then Cond.iv else 0⟩
  else
    let amax := xs.foldl (fun a x => if a.absLt x.1 then x.1 else a) FpVal.zero
    if amax.isZero then ⟨0, xs.map (fun _ => 0), 0, 0⟩
    else
      let s := (max 0 (min 254 (amax.log2 - F.emax + 127))).toNat
      let es := xs.map (fun x => bxElem F x.2 s x.1)
      ⟨s, es.map (·.1), ((xs.zip es).filter (fun p => bxUnder F p.1.1 p.2.1)).length, es.foldl (fun c e => c ||| e.2) 0⟩

end Sys2Proof.Machine
end

