-- ==== Sys2Proof/Machine/MxOps.lean ====
section
/-!
DEFINITION. The matrix descriptor of 09_matrix_unit as data: its fields (R238, R250), the operand combinations (R228,
Table 5 of 09), the checks of R239 and R251, the extents of R240, tiles and slots (R233, R241, R242) and the addresses
of elements and scales (R139).
-/
namespace Sys2Proof.Machine

/-- One operand in memory: format, base, pitch, transposition, scale array, block size and direction codes. -/
structure MxOperand where
  fmt : Option NumFmt
  base : Nat
  pitch : Nat
  trans : Bool
  scale : Nat
  bsz : Nat
  bdir : Nat
  deriving DecidableEq, Repr

/-- A matrix descriptor (Table 3 and Table 4 of 09). -/
structure MxD where
  op : Nat
  a : MxOperand
  b : MxOperand
  c : MxOperand
  inf : Bool
  init : Nat
  keep : Bool
  rm : Nat
  sat : Bool
  seedDef : Bool
  m : Nat
  n : Nat
  k : Nat
  zbase : Nat
  zcount : Nat
  seed : Word
  stream : BitVec 16
  idxBase : Nat
  idxPitch : Nat
  status : Nat
  pair : Nat
  rsvOk : Bool
  deriving DecidableEq, Repr

/-- The descriptor in 128 bytes. -/
def MxD.parse (r : List Byte) : MxD :=
  let ctrl := leAt r 0 4
  let blk := leAt r 4 4
  { op := bits ctrl 0 4
    a := ⟨NumFmt.ofCode (bits ctrl 4 4), leAt r 0x18 8, leAt r 0x30 4, bit ctrl 17, leAt r 0x40 8, bits blk 0 3,
      bits blk 3 2⟩
    b := ⟨NumFmt.ofCode (bits ctrl 8 4), leAt r 0x20 8, leAt r 0x34 4, bit ctrl 18, leAt r 0x48 8, bits blk 5 3,
      bits blk 8 2⟩
    c := ⟨NumFmt.ofCode (bits ctrl 12 4), leAt r 0x28 8, leAt r 0x38 4, false, leAt r 0x50 8, bits blk 10 3,
      bits blk 13 2⟩
    inf := bit ctrl 16
    init := bits ctrl 19 2
    keep := bit ctrl 21
    rm := bits ctrl 22 3
    sat := bit ctrl 25
    seedDef := bit ctrl 26
    m := leAt r 0x08 2
    n := leAt r 0x0C 4
    k := leAt r 0x10 4
    zbase := leAt r 0x0A 1
    zcount := leAt r 0x0B 1
    seed := BitVec.ofNat 64 (leAt r 0x58 8)
    stream := BitVec.ofNat 16 (leAt r 0x66 2)
    idxBase := leAt r 0x60 6
    idxPitch := leAt r 0x68 6
    status := leAt r 0x70 8
    pair := leAt r 0x78 8
    rsvOk := decide (bits ctrl 27 5 = 0) && decide (bits blk 15 17 = 0) && decide (leAt r 0x14 4 = 0)
      && decide (leAt r 0x3C 4 = 0) && decide (leAt r 0x6E 2 = 0) }

/-- A row of Table 1 of 09: accumulator, dot block, K span of a tile, row interval. -/
structure MxCombo where
  acc : NumFmt
  dot : Nat
  kt : Nat
  rint : Nat
  deriving DecidableEq, Repr

def NumFmt.is8 : NumFmt → Bool
  | .e4m3 => true | .e5m2 => true | .bx8e4m3 => true | .bx8e5m2 => true | _ => false

/-- R228: the accepted combinations. -/
def mxCombo (a b : Option NumFmt) (inf : Bool) : Option MxCombo :=
  match a, b with
  | some .fp64, some .fp64 => if inf then none else some ⟨.fp64, 1, 32, 4⟩
  | some .fp32, some .fp32 => if inf then none else some ⟨.fp32, 1, 32, 1⟩
  | some .bf16, some .bf16 => if inf then none else some ⟨.fp32, 4, 128, 1⟩
  | some .fp16, some .fp16 => if inf then none else some ⟨.fp32, 4, 128, 1⟩
  | some .bx4, some .bx4 => some ⟨if inf then .fp16 else .fp32, 16, 512, 1⟩
  | some x, some y =>
    if x.is8 && y.is8 then (if inf then some ⟨.fp16, 8, 512, 1⟩ else some ⟨.fp32, 8, 256, 1⟩) else none
  | _, _ => none

/-- Table 5 of 09. -/
def mxCOk (acc : NumFmt) (c : Option NumFmt) (rm : Nat) : Bool :=
  let dir := decide (rm < 4)
  let dirSr := decide (rm < 5)
  let bx := decide (rm = 0) || decide (rm = 4)
  match acc, c with
  | .fp64, some .fp64 => dir
  | .fp64, some .fp32 => dir
  | .fp32, some .fp32 => dir
  | .fp32, some .bf16 => dirSr
  | .fp32, some .fp16 => dirSr
  | .fp32, some .e4m3 => dirSr
  | .fp32, some .e5m2 => dirSr
  | .fp16, some .fp16 => dirSr
  | .fp16, some .e4m3 => dirSr
  | .fp16, some .e5m2 => dirSr
  | .fp32, some .bx8e4m3 => bx
  | .fp32, some .bx8e5m2 => bx
  | .fp32, some .bx4 => bx
  | .fp16, some .bx8e4m3 => bx
  | .fp16, some .bx8e5m2 => bx
  | .fp16, some .bx4 => bx
  | _, _ => false

def MxOperand.isBx (o : MxOperand) : Bool := match o.fmt with | some f => f.isBx | none => false

/-- Bytes of one element; BX4 counts as 1 (R239 item 6). -/
def MxOperand.esz (o : MxOperand) : Nat := match o.fmt with | some f => f.bytes | none => 1

/-- Bytes of a stored row of `cols` elements. -/
def MxOperand.rowBytes (o : MxOperand) (cols : Nat) : Nat :=
  match o.fmt with
  | some .bx4 => (cols + 1) / 2
  | some f => cols * f.bytes
  | none => 0

/-- Stored rows and columns of a logical rows × cols operand. -/
def MxOperand.stored (o : MxOperand) (rows cols : Nat) : Nat × Nat := if o.trans then (cols, rows) else (rows, cols)

/-- R139: the block extents of a BX operand; (1, 1) when the codes are reserved. -/
def MxOperand.blk (o : MxOperand) : Nat × Nat := (bxExtent o.bsz o.bdir).getD (1, 1)

/-- R239 items 5 and 6 for one operand of logical rows × cols. -/
def MxOperand.layoutOk (o : MxOperand) (rows cols : Nat) : Bool :=
  let st := o.stored rows cols
  (if o.isBx then (bxExtent o.bsz o.bdir).isSome else decide (o.bsz = 0) && decide (o.bdir = 0) && decide (o.scale = 0))
    && decide (o.base % o.esz = 0) && decide (o.pitch % o.esz = 0) && decide (o.rowBytes st.2 ≤ o.pitch)
    && (!decide (o.fmt = some .bx4) || decide (st.2 % 2 = 0))

/-- Byte address of element (r, c) of an operand; a BX4 element shares its byte with its neighbour. -/
def MxOperand.addr (o : MxOperand) (r c : Nat) : Nat :=
  let p := o.stored r c
  o.base + p.1 * o.pitch + (if o.fmt = some .bx4 then p.2 / 2 else p.2 * o.esz)

/-- The element's bits from the bytes at its address. -/
def MxOperand.pick (o : MxOperand) (r c raw : Nat) : Nat :=
  if o.fmt = some .bx4 then (if (o.stored r c).2 % 2 = 0 then raw % 16 else raw / 16 % 16) else raw

/-- R139: the address of the scale of the block that holds element (r, c), for an operand of `cols` columns. -/
def MxOperand.scaleAddr (o : MxOperand) (cols r c : Nat) : Nat :=
  o.scale + (r / o.blk.1) * ceilDiv cols o.blk.2 + c / o.blk.2

/-- Bytes of the scale array (R139). -/
def MxOperand.scaleBytes (o : MxOperand) (rows cols : Nat) : Nat := ceilDiv rows o.blk.1 * ceilDiv cols o.blk.2

/-- The value of an element, with its scale byte for a BX operand (R133, R137, R231). -/
def MxOperand.value (o : MxOperand) (elem scale : Nat) : FpVal :=
  match o.fmt with
  | some f => if f.isBx then bxVal f.fp scale elem else f.fp.decode elem
  | none => .nan

/-- R240: an operand's extent: first byte and length. -/
def MxOperand.extent (o : MxOperand) (rows cols : Nat) : Nat × Nat :=
  let st := o.stored rows cols
  (o.base, if st.1 = 0 then 0 else (st.1 - 1) * o.pitch + o.rowBytes st.2)

/-! ## Tiles and slots -/

/-- Bytes of one tile of an accumulator format (R233). -/
def tileBytes (acc : NumFmt) : Nat := 1024 * acc.bytes

/-- Tiles that zcount slots hold (R233). -/
def tileCap (acc : NumFmt) (zcount : Nat) : Nat := zcount * 4096 / tileBytes acc

/-- Byte offset in the accumulator memory of element (i, j) of tile t counted from slot zbase. -/
def tileAddr (acc : NumFmt) (zbase t i j : Nat) : Nat := zbase * 4096 + t * tileBytes acc + acc.bytes * (32 * i + j)

/-- N tiles of a member's share (R237): those nt below NT with nt mod g = j. -/
def memberTiles (nt g j : Nat) : Nat := (nt + g - 1 - j) / g

/-- R242: N tiles of one pass. -/
def passTiles (acc : NumFmt) (zcount mt : Nat) (c : MxOperand) : Nat :=
  let ng := tileCap acc zcount / mt
  let bt := (c.blk.2) / 32
  if c.isBx && decide (c.bdir = 0) && decide (1 < bt) then ng / bt * bt else ng

/-- R242: the passes of a share of `nt` N tiles, at least one. -/
def passCount (nt ng : Nat) : Nat := max 1 (ceilDiv nt ng)

/-! ## The pair extension -/

/-- Table 7 of 09. -/
structure MxExt where
  engine : Nat
  rowsT : Nat
  mid : MxOperand
  entry : Nat
  n2 : Nat
  b2 : MxOperand
  midIn : Nat
  midInPitch : Nat
  rsvOk : Bool
  rsvB2 : Bool
  deriving DecidableEq, Repr

/-- The extension in 64 bytes. The chain's output is an operand at scratchpad offset MID_OUT, its scales after
32 × ROWS_T rows. -/
def MxExt.parse (r : List Byte) : MxExt :=
  let rowsT := leAt r 1 1
  let outP := leAt r 0x24 4
  let midOut := leAt r 0x18 8
  { engine := leAt r 0 1
    rowsT := rowsT
    mid := ⟨NumFmt.ofCode (leAt r 2 1 % 16), midOut, outP, false, midOut + 32 * rowsT * outP, bits (leAt r 3 1) 0 3,
      bits (leAt r 3 1) 3 2⟩
    entry := leAt r 4 4
    n2 := leAt r 8 4
    b2 := ⟨NumFmt.ofCode (leAt r 0xC 1 % 16), leAt r 0x28 8, leAt r 0x30 4, bit (leAt r 0xE 1) 0, leAt r 0x38 8,
      bits (leAt r 0xD 1) 0 3, bits (leAt r 0xD 1) 3 2⟩
    midIn := leAt r 0x10 8
    midInPitch := leAt r 0x20 4
    rsvOk := decide (leAt r 2 1 < 16) && decide (leAt r 3 1 < 32) && decide (leAt r 0xF 1 = 0) && decide (leAt r 0x34 4 = 0)
    rsvB2 := decide (leAt r 0xC 1 < 16) && decide (leAt r 0xD 1 < 32) && decide (leAt r 0xE 1 < 2) }

/-- R233, R237, R251: bytes of a member's slots that the first product of a pair takes, up to where the second product's
tiles may begin. -/
def MxExt.firstBytes (e : MxExt) (acc1 acc2 : NumFmt) (nt1 : Nat) : Nat :=
  ceilDiv (e.rowsT * nt1 * tileBytes acc1) (tileBytes acc2) * tileBytes acc2

/-- R250, R251: a pair extension that fits its descriptor for a vector machine of g cores, on a scratchpad of `spad` bytes.
With N2 = 0 the B2 fields are ignored. Items 5 and 6 of R239 hold for MID and B2 as for any operand
(notes/assumptions/45.md), and the slots hold the largest member's share (notes/assumptions/62.md). -/
def MxExt.ok (e : MxExt) (d : MxD) (g spad : Nat) : Bool :=
  let rows := 32 * e.rowsT
  match mxCombo d.a.fmt d.b.fmt false with
  | none => false
  | some c1 =>
    let inLen := rows * e.midInPitch
    let outLen := rows * e.mid.pitch + (if e.mid.isBx then e.mid.scaleBytes rows d.n else 0)
    let nt1 := memberTiles (ceilDiv d.n 32) g 0
    let base := e.rsvOk && decide (e.engine < 2) && decide (1 ≤ e.rowsT) && decide (e.rowsT ≤ 64)
      && decide (e.entry < 4096) && decide (e.n2 < 2 ^ 24) && !d.inf && decide (d.init = 0) && !d.keep
      && decide (e.midIn + inLen ≤ spad) && decide (e.mid.base + outLen ≤ spad)
      && (decide (e.midIn + inLen ≤ e.mid.base) || decide (e.mid.base + outLen ≤ e.midIn))
      && decide (d.n * c1.acc.bytes ≤ e.midInPitch)
    if e.n2 = 0 then base && decide (e.rowsT * nt1 * tileBytes c1.acc ≤ d.zcount * 4096)
    else
      match mxCombo e.mid.fmt e.b2.fmt false with
      | none => false
      | some c2 => base && e.rsvB2 && mxCOk c2.acc d.c.fmt d.rm
        && { e.mid with scale := if e.mid.isBx then e.mid.scale else 0 }.layoutOk rows d.n && e.b2.layoutOk d.n e.n2
        && decide (e.firstBytes c1.acc c2.acc nt1 + e.rowsT * memberTiles (ceilDiv e.n2 32) g 0 * tileBytes c2.acc
            ≤ d.zcount * 4096)
        && (!decide (c2.acc = .fp64) || (decide (d.zbase % 2 = 0) && decide (d.zcount % 2 = 0)))

/-! ## Checks of MXGO -/

/-- The columns of the C that a descriptor writes; none where it writes no C, or is a pair whose extension is not read. -/
def MxD.cCols (d : MxD) (ext : Option MxExt) : Option Nat :=
  if d.op = 2 then (match ext with | some e => if e.n2 = 0 then none else some e.n2 | none => none)
  else if d.keep then none else some d.n

/-- R239: whether the descriptor is legal for a vector machine of g cores; `cap` asks for item 8. The pair rules of item 9,
and what item 3 asks of a pair's C, wait until the extension has been read. -/
def MxD.okCap (d : MxD) (cap : Bool) (g : Nat) (ext : Option MxExt) (spad : Nat) : Bool :=
  match mxCombo d.a.fmt d.b.fmt d.inf with
  | none => false
  | some cb =>
    let isPair := decide (d.op = 2)
    let mt := ceilDiv d.m 32
    let nt := memberTiles (ceilDiv d.n 32) g 0
    let ng := passTiles cb.acc d.zcount mt d.c
    d.rsvOk && (decide (d.op = 1) || isPair) && decide (1 ≤ d.m) && decide (d.m ≤ 4096)
      && decide (d.zbase < 64) && decide (1 ≤ d.zcount) && decide (d.zbase + d.zcount ≤ 64)
      && decide (1 ≤ d.n) && decide (d.n < 2 ^ 24) && decide (d.k < 2 ^ 24) && decide (d.init < 3)
      && decide (d.status % 16 = 0) && (isPair || decide (d.pair = 0))
      && d.a.layoutOk d.m d.k && d.b.layoutOk d.k d.n
      && (isPair || d.keep || mxCOk cb.acc d.c.fmt d.rm)
      && (match d.cCols ext with | some n => d.c.layoutOk d.m n | none => true)
      && (!decide (d.init = 1) || (decide (d.c.fmt = some cb.acc) && decide (d.c.base % d.c.esz = 0)
        && decide (d.c.pitch % d.c.esz = 0) && decide (d.c.rowBytes d.n ≤ d.c.pitch)))
      && (!decide (cb.acc = .fp64) || (decide (d.zbase % 2 = 0) && decide (d.zcount % 2 = 0)))
      && (!cap || isPair || decide (mt * nt ≤ tileCap cb.acc d.zcount) || (decide (0 < ng) && !d.keep && !decide (d.init = 2)))
      && (!isPair || (decide (d.pair % 64 = 0) && (match ext with | some e => e.ok d g spad | none => true)))

/-- R239: every item. -/
def MxD.ok (d : MxD) (g : Nat) (ext : Option MxExt) (spad : Nat) : Bool := d.okCap true g ext spad

/-- R240: the extents to check, in order: first byte, length, and whether it is written. The extension comes ninth, and with
it what it says. -/
def MxD.extents (d : MxD) (ext : Option MxExt) : List (Nat × Nat × Bool) :=
  let rd := fun (o : MxOperand) (r c : Nat) => [((o.extent r c).1, (o.extent r c).2, false)]
  let sc := fun (o : MxOperand) (r c : Nat) (w : Bool) => if o.isBx then [(o.scale, o.scaleBytes r c, w)] else []
  (if d.k = 0 then [] else rd d.a d.m d.k ++ sc d.a d.m d.k false ++ rd d.b d.k d.n ++ sc d.b d.k d.n false)
    ++ (if d.init = 1 then rd d.c d.m d.n else [])
    ++ (match d.cCols ext with
      | some n => [((d.c.extent d.m n).1, (d.c.extent d.m n).2, true)] ++ sc d.c d.m n true
      | none => [])
    ++ (if d.status = 0 then [] else [(d.status, 16, true)])
    ++ (if d.op = 2 then [(d.pair, 64, false)]
        ++ (match ext with
          | some e => if e.n2 = 0 then [] else rd e.b2 d.n e.n2 ++ sc e.b2 d.n e.n2 false
          | none => []) else [])

/-- Whether two extents share a byte; an empty one shares none. -/
def extMeet (a b : Nat × Nat) : Bool :=
  decide (a.2 ≠ 0) && decide (b.2 ≠ 0) && decide (a.1 < b.1 + b.2) && decide (b.1 < a.1 + a.2)

/-- R246: whether what a descriptor writes meets what a later one reads. -/
def MxD.feeds (d : MxD) (ext : Option MxExt) (d2 : MxD) (ext2 : Option MxExt) : Bool :=
  (d.extents ext).any (fun x => x.2.2 && (d2.extents ext2).any (fun y => !y.2.2 && extMeet (x.1, x.2.1) (y.1, y.2.1)))

end Sys2Proof.Machine
end

