-- ==== Sys2Proof/Machine/Trans.lean ====
section
/-!
DEFINITION. The exactly rounded EXP, LOG and TANH of R276. Each value is computed in fixed point with 320 bits after the
point and handed to the one rounding of the format with a sticky bit: a transcendental value of a nonzero rational is
never a representable number or a midpoint, so the bits beyond decide nothing else (notes/assumptions/8.md).
-/
namespace Sys2Proof.Machine

/-- Bits after the point. -/
def fxBits : Nat := 320

/-- One in fixed point. -/
def fxOne : Nat := 2 ^ fxBits

/-- The sum of the Taylor series of e^r from term t = r^k / k! on, for n terms; r in fixed point. -/
def expSeries (r : Nat) : Nat → Nat → Nat → Nat
  | 0, _, _ => 0
  | n + 1, k, t => t + expSeries r n (k + 1) (t * r / fxOne / (k + 1))

/-- e^r in fixed point, r in fixed point below one. -/
def fxExp (r : Nat) : Nat := expSeries r 100 0 fxOne

/-- The series z + z^3/3 + z^5/5 + .. from term p = z^k on, for n terms. -/
def atanhSeries (z2 : Nat) : Nat → Nat → Nat → Nat
  | 0, _, _ => 0
  | n + 1, k, p => p / k + atanhSeries z2 n (k + 2) (p * z2 / fxOne)

/-- ln m in fixed point for m in fixed point from one to two: 2 atanh((m - 1) / (m + 1)). -/
def fxLog (m : Nat) : Nat :=
  let z := (m - fxOne) * fxOne / (m + fxOne)
  2 * atanhSeries (z * z / fxOne) 110 1 z

/-- ln 2 in fixed point. -/
def fxLn2 : Nat := fxLog (2 * fxOne)

/-- m × 2^e in fixed point, truncated. -/
def toFx (m : Nat) (e : Int) : Nat :=
  let k := e + (fxBits : Int)
  if 0 ≤ k then m * 2 ^ k.toNat else m / 2 ^ (-k).toNat

/-- A fixed-point value known to about 300 bits, with a sticky bit, times 2^sh. -/
def fxRound (F : FpFmt) (s : Bool) (v : Nat) (sh : Int) : Nat × Cond :=
  F.round .rne false s (v / 2 ^ 16 * 2 + 1) (sh - (fxBits : Int) + 15)

/-- R276: EXP. -/
def FpFmt.exp (F : FpFmt) (a : FpVal) : Nat × Cond :=
  match a with
  | .nan => F.invalid
  | .inf s => if s then (F.signBit false, 0) else (F.infBits false, 0)
  | .num s m e =>
    if m = 0 then F.round .rne false false 1 0
    else if 12 ≤ e + (Nat.log2 m : Int) then
      if s then F.round .rne false false 1 (-5000) else F.round .rne false false 1 5000
    else
      let x := toFx m e
      let n := x / fxLn2
      let r := x % fxLn2
      if s then fxRound F false (fxExp (fxLn2 - r)) (-(n : Int) - 1)
      else fxRound F false (fxExp r) n

/-- R276: LOG. -/
def FpFmt.log (F : FpFmt) (a : FpVal) : Nat × Cond :=
  match a with
  | .nan => F.invalid
  | .inf s => if s then F.invalid else (F.infBits false, 0)
  | .num s m e =>
    if m = 0 then (F.infBits true, Cond.dz)
    else if s then F.invalid
    else
      let k := e + (Nat.log2 m : Int)
      let f := toFx m (-(Nat.log2 m : Int))
      let v : Int := (fxLog f : Int) + k * (fxLn2 : Int)
      if m = 2 ^ Nat.log2 m ∧ k = 0 then (F.signBit false, 0)
      else fxRound F (decide (v < 0)) v.natAbs 0

/-- R276: TANH; below 2^-100 the value is the operand less a sticky amount. -/
def FpFmt.tanh (F : FpFmt) (a : FpVal) : Nat × Cond :=
  match a with
  | .nan => F.invalid
  | .inf s => F.round .rne false s 1 0
  | .num s m e =>
    let top := e + (Nat.log2 m : Int)
    if m = 0 then (F.signBit s, 0)
    else if top < -100 then F.round .rne false s (m * 2 ^ 200 - 1) (e - 200)
    else if 8 ≤ top then F.round .rne false s (2 ^ 200 - 1) (-200)
    else
      let x := toFx (2 * m) e
      let n := x / fxLn2
      let r := x % fxLn2
      let ex := fxExp r * 2 ^ n
      fxRound F s (fxOne - 2 * fxOne * fxOne / (ex + fxOne)) 0

end Sys2Proof.Machine
end

