-- ==== Sys2Proof/Machine/VecOps.lean ====
section
/-!
DEFINITION. Vector register operations of 07_vector_instructions as functions of the vector state alone: elements,
masks and writes (R172, R173, R178 to R181), integer and floating-point element functions (R183, R186 to R190),
reductions and scans (R192 to R194), permutes (R195), conversions (R196, R197) and moves (R198).
-/
namespace Sys2Proof.Machine

/-- A vector machine's state, held by the lead core of the gang (R172, R205). Byte k of vector register r is cell
16384 × r + k of `v`; a predicate register is one bit vector; `sew` is 0 to 3 for 8 to 64 bits. -/
structure Vec where
  v : Mem
  p : List (BitVec 16384)
  vl : Nat
  sew : Nat
  vxr : BitVec 7
  deriving DecidableEq, Repr

/-- R172: zeroed vector state has SEW 64 and vl 0. -/
def Vec.reset : Vec := ⟨[], List.replicate 8 0, 0, 3, 0⟩

/-- Bytes of an element at a SEW code. -/
def eszOf (sew : Nat) : Nat := 2 ^ sew

/-- R173: vlmax for a gang size and a SEW code. -/
def vlmaxOf (g sew : Nat) : Nat := 4096 * g / eszOf sew

/-- Element i of a register at an element size in bytes. -/
def Vec.el (x : Vec) (esz r i : Nat) : Nat := x.v.readLe (16384 * r + i * esz) esz

/-- Writes element i of a register. -/
def Vec.setEl (x : Vec) (esz r i val : Nat) : Vec := { x with v := x.v.writeLe (16384 * r + i * esz) esz val }

/-- Bit i of a predicate register; p0 reads as all ones (R178). -/
def Vec.pbit (x : Vec) (m i : Nat) : Bool := decide (m = 0) || ((x.p.getD m 0).getLsbD i && decide (i < 16384))

/-- R179: whether element i is active. -/
def Vec.active (x : Vec) (pm i : Nat) : Bool := decide (i < x.vl) && x.pbit pm i

/-- ORs flags into VXR (R199). -/
def Vec.flag (x : Vec) (f : BitVec 7) : Vec := { x with vxr := x.vxr ||| f }

/-- Writes a predicate register whole; p0 discards the write (R178). -/
def Vec.setP (x : Vec) (m : Nat) (b : BitVec 16384) : Vec :=
  if m = 0 then x else { x with p := x.p.set m b }

/-- PERM_OOR and SAT of VXR (Table 17 of 07). -/
def vxrOor : BitVec 7 := 64
def vxrSat : BitVec 7 := 32

/-- The conditions of Table 5 of 05 as bits of VXR. -/
def vxrCond (c : Cond) : BitVec 7 := c.setWidth 7

/-- Applies f k for k = 0, 1, .., n - 1 in order. -/
def loop {α : Type} (f : Nat → α → α) : Nat → α → α
  | 0, x => x
  | n + 1, x => f n (loop f n x)

/-- R179: writes an element-wise result: active elements receive it, inactive ones keep or are zeroed, tails keep. -/
def Vec.map (x : Vec) (esz vd pm : Nat) (z : Bool) (f : Nat → Nat × BitVec 7) : Vec :=
  loop (fun i y =>
    if x.active pm i then ((y.setEl esz vd i (f i).1).flag (f i).2)
    else if z then y.setEl esz vd i 0 else y) x.vl x

/-- Where element i of a register pair lies, at the pair's element size: the register and the position (08 of the
widening group). -/
def pairAt (g esz vd i : Nat) : Nat × Nat :=
  let m := 4096 * g / esz
  if i < m then (vd, i) else (vd + 1, i - m)

/-- Element i of a register pair. -/
def Vec.elPair (x : Vec) (g esz r i : Nat) : Nat := x.el esz (pairAt g esz r i).1 (pairAt g esz r i).2

/-- As Vec.map, into a register pair. -/
def Vec.mapPair (x : Vec) (g esz vd pm : Nat) (z : Bool) (f : Nat → Nat × BitVec 7) : Vec :=
  loop (fun i y =>
    let w := fun (val : Nat) => y.setEl esz (pairAt g esz vd i).1 (pairAt g esz vd i).2 val
    if x.active pm i then (w (f i).1).flag (f i).2
    else if z then w 0 else y) x.vl x

/-- R180: a predicate built from its active bits; every other bit is 0. -/
def Vec.predOf (x : Vec) (pm : Nat) (f : Nat → Bool) : BitVec 16384 :=
  loop (fun i b => if x.active pm i && f i then b ||| (BitVec.ofNat 16384 1 <<< i) else b) x.vl 0

/-- ORs the flags of every active element. -/
def Vec.flagsOf (x : Vec) (pm : Nat) (f : Nat → BitVec 7) : BitVec 7 :=
  loop (fun i b => if x.active pm i then b ||| f i else b) x.vl 0

/-! ## Integer functions (Table 6 of 07) -/

inductive VIntFn where
  | add | sub | mul | mulh | mulhu | min | max | minu | maxu | and | or | xor | sll | srl | sra | sadd | ssub | macc | vid
  deriving DecidableEq, Repr

/-- The most positive and most negative values of a width. -/
def intHi (w : Nat) : Int := ((2 ^ (w - 1) : Nat) : Int) - 1
def intLo (w : Nat) : Int := -((2 ^ (w - 1) : Nat) : Int)

/-- Saturation with its flag (R186). -/
def satInt (w : Nat) (z : Int) : Nat × BitVec 7 :=
  if intHi w < z then (wrapInt w (intHi w), vxrSat)
  else if z < intLo w then (wrapInt w (intLo w), vxrSat)
  else (wrapInt w z, 0)

/-- R186: one element of an integer function of width w: operands a and b, old destination d, index i. -/
def vIntEl (fn : VIntFn) (w a b d i : Nat) : Nat × BitVec 7 :=
  let sa := sextInt w a
  let sb := sextInt w b
  let sh := b % w
  match fn with
  | .add => ((a + b) % 2 ^ w, 0)
  | .sub => ((a + 2 ^ w - b) % 2 ^ w, 0)
  | .mul => ((a * b) % 2 ^ w, 0)
  | .mulh => (wrapInt w ((sa * sb) / ((2 ^ w : Nat) : Int)), 0)
  | .mulhu => (a * b / 2 ^ w, 0)
  | .min => (if sa ≤ sb then a else b, 0)
  | .max => (if sa ≤ sb then b else a, 0)
  | .minu => (if a ≤ b then a else b, 0)
  | .maxu => (if a ≤ b then b else a, 0)
  | .and => (a &&& b, 0)
  | .or => (a ||| b, 0)
  | .xor => (a ^^^ b, 0)
  | .sll => ((a <<< sh) % 2 ^ w, 0)
  | .srl => (a >>> sh, 0)
  | .sra => (wrapInt w (sa / ((2 ^ sh : Nat) : Int)), 0)
  | .sadd => satInt w (sa + sb)
  | .ssub => satInt w (sa - sb)
  | .macc => ((d + a * b) % 2 ^ w, 0)
  | .vid => (i % 2 ^ w, 0)

/-! ## Floating-point functions (Table 7 of 07) -/

inductive VFpFn where
  | add | sub | mul | div | sqrt | recip | rsqrt | min | max | abs | neg | sgnj | fma | fms | fnma | fnms
  deriving DecidableEq, Repr

/-- R183: the format of a SEW code and ALT. -/
def fpOfSew (sew : Nat) (alt : Bool) : FpFmt :=
  if sew = 1 then (if alt then .bf16 else .fp16) else if sew = 2 then .fp32 else .fp64

/-- R121 for the sign functions: a with a given sign; a NaN becomes the default NaN with that sign. -/
def fpWithSign (F : FpFmt) (a : Nat) (sgn : Bool) : Nat :=
  let body := if (F.decode a).isNan then F.nanBits else a % 2 ^ (F.eb + F.fb)
  F.signBit sgn + body

/-- R188: one element of a floating-point function. -/
def fpEl (fn : VFpFn) (F : FpFmt) (rm : Rm) (a b d : Nat) : Nat × Cond :=
  let va := F.decode a
  let vb := F.decode b
  let vd := F.decode d
  match fn with
  | .add => F.sum rm false [va, vb]
  | .sub => F.sum rm false [va, vb.neg]
  | .mul => F.mul rm va vb
  | .div => F.div rm va vb a b
  | .sqrt => F.sqrt rm va
  | .recip => F.recip rm va
  | .rsqrt => F.rsqrt rm va
  | .min => F.minMax false a b
  | .max => F.minMax true a b
  | .abs => (fpWithSign F a false, 0)
  | .neg => (fpWithSign F a (!a.testBit (F.eb + F.fb)), 0)
  | .sgnj => (fpWithSign F a (b.testBit (F.eb + F.fb)), 0)
  | .fma => F.sum rm true [va.mul vb, vd]
  | .fms => F.sum rm true [va.mul vb, vd.neg]
  | .fnma => F.sum rm true [(va.mul vb).neg, vd]
  | .fnms => F.sum rm true [(va.mul vb).neg, vd.neg]

/-! ## Widening and dot products (Table 8 of 07) -/

inductive VWideFn where
  | mul | ma | add | addw
  deriving DecidableEq, Repr

/-- The format of a pair's elements: FP32 for SEW 16, FP64 for SEW 32. -/
def wideOf (sew : Nat) : FpFmt := if sew = 1 then .fp32 else .fp64

/-- R189: one element of a widening function: narrow operands a and b in F, the pair element d (and, for VFWADDW, the
source pair element a) in W. -/
def vWideEl (fn : VWideFn) (F W : FpFmt) (rm : Rm) (a b d : Nat) : Nat × Cond :=
  match fn with
  | .mul => W.mul rm (F.decode a) (F.decode b)
  | .ma => W.sum rm true [(F.decode a).mul (F.decode b), W.decode d]
  | .add => W.sum rm false [F.decode a, F.decode b]
  | .addw => W.sum rm false [W.decode a, F.decode b]

inductive VDotFn where
  | i8 | h | e4m3 | e5m2 | e4e5
  deriving DecidableEq, Repr

/-- R134: INT8 products accumulate into INT32, wrapping. -/
def dotI8 (d : Nat) (a b : List Nat) : Nat :=
  wrapInt 32 (sextInt 32 d + ((a.zip b).map (fun p => sextInt 8 p.1 * sextInt 8 p.2)).sum)

/-- The q fields of n bits of a slot, lowest first. -/
def slotFields (q n x : Nat) : List Nat := (List.range q).map (fun j => bits x (j * n) n)

/-- R132: a fused dot into FP32, rounded once. -/
def dotFp (A B : FpFmt) (rm : Rm) (d : Nat) (a b : List Nat) : Nat × Cond :=
  FpFmt.sum .fp32 rm true (FpFmt.fp32.decode d :: (a.zip b).map (fun p => (A.decode p.1).mul (B.decode p.2)))

/-- R189: one 32-bit slot of a dot product; floating-point dots round under RNE. -/
def vDotEl (fn : VDotFn) (alt : Bool) (a b d : Nat) : Nat × Cond :=
  match fn with
  | .i8 => (dotI8 d (slotFields 4 8 a) (slotFields 4 8 b), 0)
  | .h =>
    let F := if alt then FpFmt.bf16 else FpFmt.fp16
    dotFp F F .rne d (slotFields 2 16 a) (slotFields 2 16 b)
  | .e4m3 => dotFp .e4m3 .e4m3 .rne d (slotFields 4 8 a) (slotFields 4 8 b)
  | .e5m2 => dotFp .e5m2 .e5m2 .rne d (slotFields 4 8 a) (slotFields 4 8 b)
  | .e4e5 => dotFp .e4m3 .e5m2 .rne d (slotFields 4 8 a) (slotFields 4 8 b)

/-! ## Compares (Table 10 of 07) -/

inductive VCmpFn where
  | eq | ne | lt | le | ltu | leu
  deriving DecidableEq, Repr

def vCmpEl (fn : VCmpFn) (w a b : Nat) : Bool :=
  match fn with
  | .eq => decide (a = b)
  | .ne => decide (a ≠ b)
  | .lt => decide (sextInt w a < sextInt w b)
  | .le => decide (sextInt w a ≤ sextInt w b)
  | .ltu => decide (a < b)
  | .leu => decide (a ≤ b)

inductive FpCmpFn where
  | eq | ne | lt | le | un
  deriving DecidableEq, Repr

/-- R190, R131: a floating-point compare and its condition: a NaN operand raises IV. -/
def fpCmp (fn : FpCmpFn) (F : FpFmt) (a b : Nat) : Bool × Cond :=
  let va := F.decode a
  let vb := F.decode b
  let un := va.isNan || vb.isNan
  let r := match fn with
    | .eq => va.eq vb
    | .ne => un || !va.eq vb
    | .lt => va.lt vb
    | .le => va.lt vb || va.eq vb
    | .un => un
  (r, if un then Cond.iv else 0)

/-! ## Reductions and scans (Table 12 of 07) -/

inductive RedFn where
  | sum | min | max | minu | maxu
  deriving DecidableEq, Repr

/-- The operator of an integer reduction. -/
def redInt (fn : RedFn) (w a b : Nat) : Nat × Cond :=
  match fn with
  | .sum => ((a + b) % 2 ^ w, 0)
  | .min => (if sextInt w a ≤ sextInt w b then a else b, 0)
  | .max => (if sextInt w a ≤ sextInt w b then b else a, 0)
  | .minu => (if a ≤ b then a else b, 0)
  | .maxu => (if a ≤ b then b else a, 0)

/-- The operator of a floating-point reduction: sum, minimum or maximum. -/
def redFp (fn : RedFn) (F : FpFmt) (rm : Rm) (a b : Nat) : Nat × Cond :=
  match fn with
  | .sum => F.sum rm false [F.decode a, F.decode b]
  | .min => F.minMax false a b
  | .minu => F.minMax false a b
  | .max => F.minMax true a b
  | .maxu => F.minMax true a b

/-- An operator on values that may be absent (R192): a missing operand answers the other. -/
def optOp (op : Nat → Nat → Nat × Cond) (a b : Option Nat × Cond) : Option Nat × Cond :=
  match a.1, b.1 with
  | some x, some y => (some (op x y).1, a.2 ||| b.2 ||| (op x y).2)
  | some x, none => (some x, a.2 ||| b.2)
  | none, y => (y, a.2 ||| b.2)

/-- One round of the tree of R192: adjacent pairs combine; a last odd element stays. -/
def pairUp (op : Nat → Nat → Nat × Cond) : List (Option Nat × Cond) → List (Option Nat × Cond)
  | a :: b :: r => optOp op a b :: pairUp op r
  | l => l

/-- The tree reduction of R192; every round at least halves the list, so its length bounds the rounds. -/
def treeRed (op : Nat → Nat → Nat × Cond) : Nat → List (Option Nat × Cond) → Option Nat × Cond
  | _, [] => (none, 0)
  | _, [a] => a
  | 0, a :: _ => a
  | n + 1, l => treeRed op n (pairUp op l)

/-- The elements that a reduction or scan reads. -/
def Vec.terms (x : Vec) (esz va pm : Nat) : List (Option Nat × Cond) :=
  (List.range x.vl).map (fun i => (if x.active pm i then some (x.el esz va i) else none, 0))

/-- R193: the sequential sum. -/
def seqRed (op : Nat → Nat → Nat × Cond) (init : Option Nat × Cond) (l : List (Option Nat × Cond)) :
    Option Nat × Cond := l.foldl (optOp op) init

/-- One step of a scan (R194): each position beyond the first d combines with the position d before it. -/
def scanStep (op : Nat → Nat → Nat × Cond) (d : Nat) (s : List ((Option Nat × Cond) × Bool)) :
    List ((Option Nat × Cond) × Bool) :=
  s.take d ++ (s.zip (s.drop d)).map (fun p =>
    (if p.2.2 then p.2.1 else
      let r := optOp op (p.1.1.1, 0) (p.2.1.1, 0)
      (r.1, p.2.1.2 ||| r.2), p.2.2 || p.1.2))

/-- R194: the scan, with d = 1, 2, 4, .. below vl. -/
def scanAll (op : Nat → Nat → Nat × Cond) : Nat → Nat → List ((Option Nat × Cond) × Bool) →
    List ((Option Nat × Cond) × Bool)
  | 0, _, s => s
  | n + 1, d, s => if d < s.length then scanAll op n (2 * d) (scanStep op d s) else s

/-! ## Conversions (Table 15 of 07) -/

/-- R196: the accepted pairs. -/
def convPairOk (a b : NumFmt) : Bool :=
  match a, b with
  | .fp64, .fp32 => true | .fp64, .int32 => true
  | .fp32, .fp64 => true | .fp32, .fp16 => true | .fp32, .bf16 => true | .fp32, .e4m3 => true
  | .fp32, .e5m2 => true | .fp32, .int32 => true | .fp32, .int8 => true
  | .fp16, .fp32 => true | .fp16, .bf16 => true | .fp16, .e4m3 => true | .fp16, .e5m2 => true | .fp16, .int8 => true
  | .bf16, .fp32 => true | .bf16, .fp16 => true | .bf16, .e4m3 => true | .bf16, .e5m2 => true | .bf16, .int8 => true
  | .e4m3, .fp16 => true | .e4m3, .bf16 => true
  | .e5m2, .fp16 => true | .e5m2, .bf16 => true
  | .int32, .fp64 => true | .int32, .fp32 => true
  | .int8, .fp16 => true | .int8, .bf16 => true
  | _, _ => false

/-- R197: the destinations that take SR. -/
def srDst (b : NumFmt) : Bool :=
  match b with
  | .fp16 => true | .bf16 => true | .e4m3 => true | .e5m2 => true | _ => false

end Sys2Proof.Machine
end

