-- ==== Sys2Proof/Machine/StreamOps.lean ====
section
/-!
DEFINITION. The stream chain engine of 10_stream_chain_engine as data: sequencer words (R264 to R268), configuration
slots (R269), stage words and their arithmetic (R272, R273, R276, R277), taps (R274), the terminals (R279 to R281), the
checks of a chain (R270) and the blocks that start it (R261, R262, R284).
-/
namespace Sys2Proof.Machine

/-- A sequencer word (Tables 5 and 6 of 10, R268). -/
inductive SeqWord where
  | nop
  | halt
  | chain (nst slot : Nat) (adv : Bool)
  | ldcf (slot sa : Nat)
  | dma (sa tag : Nat)
  | waitd (tag : Nat)
  | waitc
  | lds (d a imm : Nat)
  | ldc (t a imm : Nat)
  | addss (d a : Nat)
  | addsn (d n : Nat)
  | movs (d a : Nat)
  | setlen (n : Nat)
  | addni (n : Nat) (imm : Int)
  | loop (k b : Nat)
  deriving DecidableEq, Repr

/-- R264 to R268: the word that 14 bits encode; none where the class or a field is reserved, or for a stage word. -/
def SeqWord.decode (w : Nat) : Option SeqWord :=
  let z := fun (lo n : Nat) => decide (bits w lo n = 0)
  let ok := fun (c : Bool) (x : SeqWord) => if c then some x else none
  match bits w 12 2 with
  | 0 =>
    match bits w 8 4 with
    | 0 => ok (z 0 8) .nop
    | 1 => ok (z 0 8) .halt
    | 2 => ok (z 0 2) (.chain (bits w 5 3 + 1) (bits w 3 2) (bit w 2))
    | 3 => ok (z 0 3) (.ldcf (bits w 6 2) (bits w 3 3))
    | 4 => ok (z 0 3) (.dma (bits w 5 3) (bits w 3 2))
    | 5 => ok (z 0 3 && z 5 3) (.waitd (bits w 3 2))
    | 6 => ok (z 0 8) .waitc
    | _ => none
  | 1 => ok (decide (bits w 0 10 ≠ 0)) (.loop (bits w 10 2) (bits w 0 10))
  | 2 =>
    match bits w 9 3 with
    | 0 => some (.lds (bits w 6 3) (bits w 3 3) (bits w 0 3))
    | 1 => some (.ldc (bits w 6 3) (bits w 3 3) (bits w 0 3))
    | 2 => ok (z 0 3) (.addss (bits w 6 3) (bits w 3 3))
    | 3 => ok (z 0 4) (.addsn (bits w 6 3) (bits w 4 2))
    | 4 => ok (z 0 3) (.movs (bits w 6 3) (bits w 3 3))
    | 5 => ok (z 0 7) (.setlen (bits w 7 2))
    | 6 => some (.addni (bits w 7 2) (sext 7 (bits w 0 7)))
    | _ => none
  | _ => none

/-- A chain configuration slot (Table 7 of 10). K is held converted to WF. -/
structure Slot where
  i0 : Nat
  i1 : Nat
  i2 : Nat
  bc1 : Bool
  bc2 : Bool
  o : Nat
  rm : Nat
  sat : Bool
  seedDef : Bool
  bsz : Nat
  topk : Nat
  wf64 : Bool
  k : Nat
  pitch : List Nat
  stream : BitVec 16
  seed : Word
  idxBase : Nat
  idxPitch : Nat
  rsvOk : Bool
  deriving DecidableEq, Repr

/-- The zeroed slot. -/
def Slot.zero : Slot :=
  ⟨0, 0, 0, false, false, 0, 0, false, false, 0, 0, false, 0, [0, 0, 0, 0, 0], 0, 0, 0, 0, true⟩

/-- R269: a slot from its 64 bytes; K is converted to WF under RNE. -/
def Slot.parse (r : List Byte) : Slot :=
  let by_ := fun (o : Nat) => leAt r o 1
  let wf64 := bit (by_ 7) 0
  let k64 := leAt r 8 8
  { i0 := by_ 0 % 16, i1 := by_ 1 % 16, i2 := by_ 2 % 16, bc1 := bit (by_ 1) 4, bc2 := bit (by_ 2) 4
    o := by_ 3 % 16, rm := bits (by_ 4) 0 3, sat := bit (by_ 4) 3, seedDef := bit (by_ 4) 4
    bsz := bits (by_ 5) 0 3, topk := by_ 6, wf64 := wf64
    k := (NumFmt.convert .fp64 (if wf64 then .fp64 else .fp32) .rne false k64).1
    pitch := (List.range 5).map (fun j => leAt r (0x10 + 4 * j) 4)
    stream := BitVec.ofNat 16 (leAt r 0x24 2)
    seed := BitVec.ofNat 64 (leAt r 0x28 8)
    idxBase := leAt r 0x30 6
    idxPitch := leAt r 0x38 6
    rsvOk := decide (by_ 0 < 16) && decide (by_ 1 < 32) && decide (by_ 2 < 32) && decide (by_ 3 < 16)
      && decide (by_ 4 < 32) && decide (by_ 5 < 8) && decide (by_ 7 < 2) && decide (leAt r 0x26 2 = 0)
      && decide (leAt r 0x36 2 = 0) && decide (leAt r 0x3E 2 = 0) }

/-- The working format. -/
def Slot.wf (c : Slot) : NumFmt := if c.wf64 then .fp64 else .fp32

/-- Elements in a beat. -/
def Slot.beat (c : Slot) : Nat := if c.wf64 then 16 else 32

/-- Format code and broadcast of input j. -/
def Slot.inFmt (c : Slot) (j : Nat) : Nat := if j = 0 then c.i0 else if j = 1 then c.i1 else c.i2
def Slot.inBc (c : Slot) (j : Nat) : Bool := (decide (j = 1) && c.bc1) || (decide (j = 2) && c.bc2)

/-! ## Stage words -/

/-- The operation, sources and M of a stage word (R272). -/
def stOp (w : Nat) : Nat := bits w 7 5
def stSa (w : Nat) : Nat := bits w 4 3
def stSb (w : Nat) : Nat := bits w 1 3
def stM (w : Nat) : Bool := bit w 0

/-- Terminals of Table 10 of 10. -/
def stTerminal (op : Nat) : Bool := decide (0x18 ≤ op) && decide (op ≤ 0x1C)

/-- Operations that Table 10 of 10 lists. -/
def stKnown (op : Nat) : Bool := decide (op ≤ 0x11) || stTerminal op

/-- Operations that ignore SB: PASS, ABS, NEG, RCP to TANH, and the terminals. -/
def stUnary (op : Nat) : Bool :=
  decide (op = 0) || decide (op = 7) || decide (op = 8) || (decide (0x0D ≤ op) && decide (op ≤ 0x11)) || stTerminal op

/-- The span S of an operation. -/
def stSpan (op : Nat) : Nat := if 0x0D ≤ op ∧ op ≤ 0x11 then 3 else 1

/-- One element with its flag. -/
abbrev Lane := Nat × Bool

/-- R121, R276, R277: one element of a stage operation in the working format. -/
def stageEl (op : Nat) (F : FpFmt) (k : Nat) (a b : Lane) : Lane × Cond :=
  let va := F.decode a.1
  let vb := F.decode b.1
  let val := fun (r : Nat × Cond) => ((r.1, false), r.2)
  let cmp := fun (fn : FpCmpFn) =>
    let r := match fn with
      | .lt => va.lt vb
      | .le => va.lt vb || va.eq vb
      | _ => va.eq vb
    ((a.1, r), if va.isNan || vb.isNan then Cond.iv else 0)
  let pick := fun (v : Nat) => if (F.decode v).isNan then F.invalid else (v, 0)
  match op with
  | 0x00 => val (pick a.1)
  | 0x01 => val (F.sum .rne false [va, vb])
  | 0x02 => val (F.sum .rne false [va, vb.neg])
  | 0x03 => val (F.mul .rne va vb)
  | 0x04 => val (F.sum .rne true [va.mul vb, F.decode k])
  | 0x05 => val (F.minMax false a.1 b.1)
  | 0x06 => val (F.minMax true a.1 b.1)
  | 0x07 => if va.isNan then val F.invalid else ((a.1 % 2 ^ (F.eb + F.fb), false), 0)
  | 0x08 => if va.isNan then val F.invalid
      else ((a.1 % 2 ^ (F.eb + F.fb) + F.signBit (!a.1.testBit (F.eb + F.fb)), false), 0)
  | 0x09 => cmp .lt
  | 0x0A => cmp .le
  | 0x0B => cmp .eq
  | 0x0C => ((((pick (if a.2 then a.1 else b.1)).1, false)), (pick a.1).2 ||| (pick b.1).2)
  | 0x0D => val (F.recip .rne va)
  | 0x0E => val (F.rsqrt .rne va)
  | 0x0F => val (F.exp va)
  | 0x10 => val (F.log va)
  | 0x11 => val (F.tanh va)
  | _ => ((0, false), 0)

/-- A source's beat for a stage at position q: an input, K, or the tap at distance d, whose producer's span decides how
many beats it is late (R274). `hist` holds earlier beats' results, newest first, each by position; `cur` holds this
beat's results so far, by position. -/
def stageSrc (code q beat n k : Nat) (stages : List Nat) (ins : List (List Nat)) (cur : List (List Lane))
    (hist : List (List (List Lane))) : List Lane :=
  let zero := List.replicate n ((0, false) : Lane)
  if code < 3 then ((ins.getD code []).map (fun v => ((v, false) : Lane)))
  else if code = 3 then List.replicate n (k, false)
  else
    let d := code - 3
    let p := q - d
    let sp := stSpan (stOp (stages.getD p 0))
    if sp ≤ d then cur.getD p zero
    else
      let late := 4 * (sp - d)
      if beat < late then zero else (hist.getD (late - 1) []).getD p zero

/-- One beat through the stages before a terminal: the results by position and the conditions of in-range lanes
(R271: lanes at or beyond `live` raise none). -/
def beatStages (F : FpFmt) (k beat n live : Nat) (stages : List Nat) (ins : List (List Nat))
    (hist : List (List (List Lane))) : Nat → List (List Lane) × Cond
  | 0 => ([], 0)
  | q + 1 =>
    let prev := beatStages F k beat n live stages ins hist q
    let w := stages.getD q 0
    let a := stageSrc (stSa w) q beat n k stages ins prev.1 hist
    let b := stageSrc (stSb w) q beat n k stages ins prev.1 hist
    let r := (List.range n).map (fun i => stageEl (stOp w) F k (a.getD i (0, false)) (b.getD i (0, false)))
    (prev.1 ++ [r.map (·.1)], (r.take live).foldl (fun c x => c ||| x.2) prev.2)

/-! ## Terminals -/

/-- The value and format code pairs that a TOPK ranks by: NaN above numbers, then by value, then by lower position. -/
def topBefore (F : FpFmt) (a b : Nat × Nat) : Bool :=
  let va := F.decode a.1
  let vb := F.decode b.1
  if va.isNan then (if vb.isNan then decide (a.2 < b.2) else true)
  else if vb.isNan then false
  else if vb.lt va then true
  else if va.lt vb then false
  else decide (a.2 < b.2)

/-- Inserts an element into a list in rank order. -/
def topIns (F : FpFmt) (x : Nat × Nat) : List (Nat × Nat) → List (Nat × Nat)
  | [] => [x]
  | y :: r => if topBefore F x y then x :: y :: r else y :: topIns F x r

/-- R280: the k elements of highest rank with their positions, the row extended by -inf. -/
def topK (F : FpFmt) (k : Nat) (xs : List Nat) : List (Nat × Nat) :=
  let ext := xs ++ List.replicate (k - xs.length) (F.infBits true)
  ((ext.zip (List.range ext.length)).foldl (fun l x => topIns F x l) []).take k

/-- R279: SUM, RMAX and RMIN over the row, by the tree of R192, each step rounding to WF under RNE. -/
def rowRed (op : Nat) (F : FpFmt) (xs : List Nat) : Nat × Cond :=
  let fn := if op = 0x18 then RedFn.sum else if op = 0x19 then RedFn.max else RedFn.min
  let r := treeRed (redFp fn F .rne) xs.length (xs.map (fun x => (some x, 0)))
  (r.1.getD 0, r.2)

/-! ## Checks of a chain (R270) -/

/-- The inputs that the stages read. -/
def chainInputs (stages : List Nat) : List Nat :=
  [0, 1, 2].filter (fun j => stages.any (fun w => decide (stSa w = j) || (!stUnary (stOp w) && decide (stSb w = j))))

/-- Whether an input format is accepted (Table 8 of 10). -/
def inFmtOk (wf64 : Bool) (c : Nat) : Bool := decide (c ≤ 5) && (wf64 || decide (c ≠ 0))

/-- Whether an output format and its controls are accepted for an M stage or SUM, RMAX, RMIN, TOPK (Table 8 of 10). -/
def outFmtOk (c : Slot) : Bool :=
  (if c.wf64 then decide (c.o = 0) || decide (c.o = 1) else decide (1 ≤ c.o) && decide (c.o ≤ 5))
    && (decide (c.rm < 4) || (decide (c.rm = 4) && decide (2 ≤ c.o)))

/-- Whether QNT's output controls are accepted. -/
def qntOk (c : Slot) : Bool :=
  decide (6 ≤ c.o) && decide (c.o ≤ 8) && decide (c.bsz ≤ 4) && (decide (c.rm = 0) || decide (c.rm = 4))

/-- Bytes that element size and count take; BX4 packs two. -/
def fmtBytes (code n : Nat) : Nat :=
  match NumFmt.ofCode code with
  | some .bx4 => (n + 1) / 2
  | some f => n * f.bytes
  | none => 0

def fmtSize (code : Nat) : Nat := match NumFmt.ofCode code with | some f => f.bytes | none => 1

/-- Element size in bits, 4 for BX4. -/
def fmtBits (code : Nat) : Nat := match NumFmt.ofCode code with | some f => f.bits | none => 8

/-- The extents of a chain: inputs as (base, bytes, element size in bits), then O and the second output. `s` is s0 to s4. -/
def chainIn (c : Slot) (s : List Nat) (len j : Nat) : Nat × Nat × Nat :=
  let base := if j = 0 then s.getD 0 0 else if j = 1 then s.getD 1 0 else s.getD 4 0
  (base, fmtBytes (c.inFmt j) (if c.inBc j then 1 else len), fmtBits (c.inFmt j))

def chainOut (c : Slot) (op : Nat) (s : List Nat) (len : Nat) : List (Nat × Nat × Nat) :=
  let o := s.getD 2 0
  let o2 := s.getD 3 0
  if op = 0x1B then [(o, fmtBytes c.o c.topk, fmtBits c.o), (o2, 4 * c.topk, 32)]
  else if op = 0x1C then [(o, fmtBytes c.o len, fmtBits c.o), (o2, ceilDiv len ((bxSize c.bsz).getD 8), 8)]
  else if stTerminal op then [(o, fmtBytes c.o 1, fmtBits c.o)]
  else [(o, fmtBytes c.o len, fmtBits c.o)]

/-- Two byte extents share a byte; an empty one shares none. -/
def overlaps (a b : Nat × Nat × Nat) : Bool :=
  decide (a.2.1 ≠ 0) && decide (b.2.1 ≠ 0) && decide (a.1 < b.1 + b.2.1) && decide (b.1 < a.1 + a.2.1)

/-- Two by two, no overlap. -/
def noPairOverlap : List (Nat × Nat × Nat) → Bool
  | [] => true
  | x :: r => r.all (fun y => !overlaps x y) && noPairOverlap r

/-- R270: the extents of a chain; one with LEN 0 reads and writes nothing. -/
def extsFor (len : Nat) (l : List (Nat × Nat × Nat)) : List (Nat × Nat × Nat) :=
  if len = 0 then l.map (fun e => (e.1, 0, e.2.2)) else l

/-- R270: cause 2 (BAD_CHAIN), 3 (OUT_OF_SCRATCHPAD), 4 (MISALIGNED), or 0. -/
def chainCheck (c : Slot) (stages s : List Nat) (len spad : Nat) : Nat :=
  let last := stOp (stages.getLastD 0)
  let term := stTerminal last
  let idx := List.range stages.length
  let badStage := idx.any (fun q =>
    let w := stages.getD q 0
    let tapBad := fun code => decide (4 ≤ code) && decide (q < code - 3)
    !stKnown (stOp w) || tapBad (stSa w) || (!stUnary (stOp w) && tapBad (stSb w))
      || (stTerminal (stOp w) && decide (q + 1 < stages.length)))
  let ms := (stages.filter (fun w => !stTerminal (stOp w) && stM w)).length
  let ins := chainInputs stages
  let iext := extsFor len (ins.map (chainIn c s len))
  let oext := extsFor len (chainOut c last s len)
  let outOk := if last = 0x1C then qntOk c && decide (c.topk = 0)
    else outFmtOk c && (if last = 0x1B then decide (1 ≤ c.topk) && decide (c.topk ≤ 64) else decide (c.topk = 0))
  let inPlace := fun (o i : Nat × Nat × Nat) => decide (o.1 = i.1) && decide (o.2.2 = i.2.2)
  if badStage || (if term then decide (ms ≠ 0) else decide (ms ≠ 1)) || !c.rsvOk
      || ins.any (fun j => !inFmtOk c.wf64 (c.inFmt j)) || !noPairOverlap iext || !outOk
      || oext.any (fun o => iext.any (fun i => overlaps o i && !inPlace o i)) then 2
  else if (iext ++ oext).any (fun e => decide (e.2.1 ≠ 0) && decide (spad < e.1 + e.2.1)) then 3
  else if (iext ++ oext).any (fun e => decide (e.1 % max 1 (e.2.2 / 8) ≠ 0)) then 4
  else 0

/-! ## Start, load and DMA blocks -/

/-- R261: the load block of 16 bytes: SRC, DST, COUNT, or none when illegal. -/
def loadBlock (r : List Byte) : Option (Nat × Nat × Nat) :=
  let src := leAt r 0 8
  let dst := leAt r 8 2
  let cnt := leAt r 0xA 2
  if cnt = 0 ∨ 4096 < dst + cnt ∨ src % 2 = 1 ∨ leAt r 0xC 4 ≠ 0 then none else some (src, dst, cnt)

/-- R262: the start block of 64 bytes: ENTRY, S, N, LC, or none when illegal. -/
def startBlock (r : List Byte) : Option (Nat × List Nat × List Nat × List Nat) :=
  let sv := (List.range 8).map (fun i => leAt r (8 + 4 * i) 4)
  let nv := (List.range 4).map (fun i => leAt r (0x28 + 4 * i) 4)
  let lv := (List.range 4).map (fun i => leAt r (0x38 + 2 * i) 2)
  if 4095 < leAt r 0 2 ∨ leAt r 2 6 ≠ 0 ∨ (sv ++ nv).any (fun v => decide (2 ^ 24 ≤ v)) then none
  else some (leAt r 0 2, sv, nv, lv)

/-- A DMA descriptor (Table 11 of 10). -/
structure DmaD where
  vaddr : Nat
  spoff : Nat
  rowBytes : Nat
  rows : Nat
  toDram : Bool
  vpitch : Nat
  spitch : Nat
  ok : Bool
  deriving DecidableEq, Repr

def DmaD.parse (r : List Byte) : DmaD :=
  let rows := leAt r 0x10 2
  let rb := leAt r 0x0C 4
  { vaddr := leAt r 0 8, spoff := leAt r 8 4, rowBytes := rb, rows := rows, toDram := bit (leAt r 0x12 1) 0
    vpitch := leAt r 0x14 4, spitch := leAt r 0x18 4
    ok := decide (leAt r 8 4 < 2 ^ 24) && decide (1 ≤ rb) && decide (rb < 2 ^ 24) && decide (1 ≤ rows)
      && decide (leAt r 0x12 1 < 2) && decide (leAt r 0x13 1 = 0) && decide (leAt r 0x1C 4 = 0)
      && (decide (rows = 1) || (decide (rb ≤ leAt r 0x14 4) && decide (rb ≤ leAt r 0x18 4))) }

/-- The last byte offset past the scratchpad extent, and past the virtual extent. -/
def DmaD.spLen (d : DmaD) : Nat := (d.rows - 1) * d.spitch + d.rowBytes
def DmaD.vLen (d : DmaD) : Nat := (d.rows - 1) * d.vpitch + d.rowBytes

end Sys2Proof.Machine
end

