-- ==== Sys2Proof/Machine/State.lean ====
section
/-!
DEFINITION. The state of the device, all of it plain data: every register, ring, queue, buffer, counter and pin that the
spec names, held by block, and the queue of commands that wait. Registers that only copy other state are computed from
it where they are read (Machine/RegRead.lean). State.reset is the device right after power-on reset is released.
-/
namespace Sys2Proof.Machine

/-! ## Command blocks -/

/-- The command state of a block's STATUS register: BUSY, DROPPED, DONE, the last OP and the outcome CODE. -/
structure CmdSt where
  busy : Bool
  dropped : Bool
  done : Bool
  op : Nat
  code : Nat
  deriving DecidableEq, Repr

def CmdSt.reset : CmdSt := ⟨false, false, false, 0, 0⟩

/-! ## 12: memory -/

/-- Parameters' companion of one arbiter (R24 to R28): the holder, its consecutive grants, the index most recently
granted at each priority, each requester's wait counter, and the forced candidates in the order they reached S. -/
structure Arb where
  holder : Option Nat
  burst : Nat
  last : List Nat
  wait : List Nat
  forced : List Nat
  deriving DecidableEq, Repr

/-- A line of the near-stack cache (R332): valid, dirty and pinned, and the time of its last use. The poison bit of a
sector is the device's one mark for that sector (Dram.poison), since copies are coherent (R331, R334, R340). -/
structure NscLine where
  valid : BitVec 8
  dirty : BitVec 8
  pinned : Bool
  used : Nat
  deriving DecidableEq, Repr

def NscLine.none : NscLine := ⟨0, 0, false, 0⟩

/-- A copy of a line in a core's L1 data cache or private cache: absent, shared, exclusive, or exclusive and dirty. -/
inductive CopySt where
  | absent
  | shared
  | excl
  | dirty
  deriving DecidableEq, Repr

/-- A directory entry of a line (R334): invalid with no sharers, shared, or exclusive. -/
structure DirEntry where
  excl : Bool
  sharers : BitVec 64
  host : Bool
  deriving DecidableEq, Repr

def DirEntry.none : DirEntry := ⟨false, 0, false⟩

/-- DRAM as every unit sees it. `bytes` holds one value for each byte and `poison` the poisoned sectors (pa / 32),
wherever their newest copies lie. -/
structure Dram where
  bytes : Mem
  poison : List Nat
  /-- 64 KiB blocks (pa / 65536) that are not scrub-pending (R76, R81). -/
  clean : List Nat
  nsc : Tab NscLine
  dir : Tab DirEntry
  nscClock : Nat
  /-- Sectors (pa / 32) whose copy in DRAM is poisoned while a cache holds a good one (R353). -/
  lost : List Nat
  /-- Requests that have reached the slices: their order (R331). -/
  arrivals : Nat
  /-- Groups in STACK configuration, pairs in HALF mode and class 3 sets (R323). -/
  stackGroups : List Nat
  halfPairs : List Nat
  class3 : List Nat
  /-- Sets being zero-filled before a change of configuration (R325), and the blocks a command waits for (R76). -/
  filling : List Nat
  deriving DecidableEq, Repr

/-- The state of a channel (Table 12 of 12). -/
inductive ChanSt where
  | ready
  | retraining
  | failedReadable
  | failedUnreadable
  | copying
  | excluded
  deriving DecidableEq, Repr

/-- A transaction of a controller (R330): one granule of the normal path, or one sector of the narrow path. `mask` names
its sectors in this controller's stack, `be` the bytes of the line that a write changes, `seq` its place in the order in
which requests reached the slices (R331). -/
structure Txn where
  narrow : Bool
  cls : Nat
  write : Bool
  line : Nat
  mask : BitVec 8
  be : BitVec 256
  seq : Nat
  deriving DecidableEq, Repr

/-- One channel of a stack: counters, state, the writes buffered in a retrain, and the times of recent events. -/
structure Chan where
  ce : BitVec 32
  retrains : BitVec 16
  st : ChanSt
  failed : Bool
  buffered : List Txn
  ceTimes : List Nat
  retrainTimes : List Nat
  deriving DecidableEq, Repr

def Chan.reset : Chan := ⟨0, 0, .ready, false, [], [], []⟩

/-- Thermal states of a stack (Table 5 of 12). -/
inductive ThermSt where
  | normal
  | warm
  | gapped
  | stopped
  deriving DecidableEq, Repr

/-- One memory controller, its registers and its queues (R330, R342, R347, R356). -/
structure Mcu where
  cmd : CmdSt
  cmdChan : Nat
  normal : List Txn
  narrow : List Txn
  waiting : List Txn
  classArb : Arb
  /-- The command slots' arbiters of the 64 pseudo-channels (Table 4 of 01). -/
  slots : List Arb
  therm : ThermSt
  stoppedAt : Nat
  hotC : BitVec 8
  gap : Nat
  ceCount : Word
  ueCount : Word
  ch : List Chan
  dieTemp : List (BitVec 16)
  /-- The channel in retraining, and the triggers that wait for it (R347). -/
  retraining : Option Nat
  retrainWait : List Nat
  turn : Nat
  patrolPos : Nat
  deriving DecidableEq, Repr

/-- The exclusion of the device (R351 to R355): retiring groups, the copy in progress and the repair map's channel. -/
structure Excl where
  retiring : Bool
  copying : Option Nat
  /-- The channel being copied cannot be read (R350, R353). -/
  dead : Bool
  row : Nat
  /-- The excluded channel of the repair map: non-volatile. -/
  inForce : Option Nat
  deriving DecidableEq, Repr

/-! ## 13: contexts and translation -/

/-- Table 2 of 13. -/
inductive RangeKind where
  | device
  | placed
  | window
  | scratch
  deriving DecidableEq, Repr

/-- A range of a context (Table 1 of 13), its interleave class and home in effect, the bases of its 16 MiB segments
(R363), and whether it is being drained or switched (R364 item 4). -/
structure Range where
  valid : Bool
  vbase : Nat
  len : Nat
  target : Nat
  kind : RangeKind
  perm : BitVec 4
  clsByte : Nat
  homeByte : Nat
  cls : Nat
  home : Nat
  segs : List Nat
  draining : Bool
  switching : Bool
  deriving DecidableEq, Repr

def Range.none : Range := ⟨false, 0, 0, 0, .device, 0, 0, 0, 0, 0, [], false, false⟩

/-- A context: whether it exists, the status of its kill, its ranges and its counter totals (R358, R406, R409). -/
structure Ctx where
  live : Bool
  killed : Bool
  ranges : Tab Range
  totals : List Word
  deriving DecidableEq, Repr

def Ctx.none : Ctx := ⟨false, false, [], []⟩

/-- Who waits on a fault record: a core's pipeline, a stream chain engine, or a descriptor at the translation unit. -/
inductive Waiter where
  | core (n : Nat)
  | engine (n e : Nat)
  | desc (id : Nat)
  deriving DecidableEq, Repr

/-- A fault record's fields (Table 3 of 13). -/
structure FaultRec where
  fid : Nat
  ctx : Nat
  change : Bool
  access : BitVec 3
  vaddr : Nat
  waiters : Nat
  range : Nat
  firstUnit : Nat
  queue : Nat
  reqPerm : Nat
  deriving DecidableEq, Repr

def FaultRec.none : FaultRec := ⟨0, 0, false, 0, 0, 0, 0, 0, 0, 0⟩

/-- An unresolved record: its fields, who waits on it, and its ring slot. -/
structure Unresolved where
  rcd : FaultRec
  who : List Waiter
  slot : Nat
  deriving DecidableEq, Repr

/-- A stale record (Table 6 of 13). -/
structure StaleRec where
  sid : Nat
  ctx : Nat
  range : Nat
  cause : Nat
  entry : Nat
  gen : Nat
  port : Nat
  offset : Nat
  queue : Nat
  deriving DecidableEq, Repr

def StaleRec.none : StaleRec := ⟨0, 0, 0, 0, 0, 0, 0, 0, 0⟩

/-- A window table entry (R373). -/
structure WinEntry where
  valid : Bool
  gen : BitVec 16
  ctx : Nat
  range : Nat
  offset : Nat
  len : Nat
  ports : BitVec 16
  perm : BitVec 2
  deriving DecidableEq, Repr

def WinEntry.none : WinEntry := ⟨false, 0, 0, 0, 0, 0, 0, 0⟩

/-- The change that a draining command applies at step 5 of Table 4 of 13. -/
inductive Drain where
  | invalidate
  | destroy (range : Nat)
  | change (range : Nat) (len : Nat) (perm : BitVec 4)
  | destroyCtx
  | winClose (entry : Nat)
  deriving DecidableEq, Repr

/-- The translation block (R377) and its rings. -/
structure Xlt where
  cmd : CmdSt
  arg : List Word
  resultGen : BitVec 16
  fqHead : Nat
  fqTail : Nat
  sqHead : Nat
  sqTail : Nat
  sqLost : Bool
  rtbMiss : Word
  fq : Tab FaultRec
  sq : Tab StaleRec
  unresolved : List Unresolved
  /-- Faults that wait unrecorded, oldest first (R368). -/
  unrecorded : List Unresolved
  nextFid : Nat
  nextSid : Nat
  /-- Eight cluster buffers and the translation unit's, each a list of keys ctx × 64 + range, most recently used
  first (R365). -/
  rtb : List (List Nat)
  win : Tab WinEntry
  /-- Window table entries whose stored bits are poisoned (R449). -/
  winPoison : List Nat
  /-- The command in progress: its context, the ranges it drains, and its change. -/
  drain : Option (Nat × List Nat × Drain)
  /-- A RANGE_CREATE or growth that waits for the zero-fill of these blocks (R76), and the range it installs: context,
  index and range. -/
  fillWait : List Nat
  creating : Option (Nat × Nat × Range)
  /-- For a growth that moves its last segment (R372): the segment's old and new base, and its bytes. -/
  tail : Option (Nat × Nat × Nat)
  deriving DecidableEq, Repr

/-! ## 14: host interface and queues -/

/-- The life of a descriptor: its read issued, fetched, started, waiting on a fault record, or ended. -/
inductive DescSt where
  | reading
  | fetched
  | running
  | ended
  deriving DecidableEq, Repr

/-- A descriptor in flight. `raw` is its 64 bytes; `marks` the statuses that apply to it so far (R13); `stop` says
that it is being cancelled; `pos` the bytes or steps done; `detail` the DETAIL of its record. -/
structure Desc where
  id : Nat
  queue : Nat
  index : Nat
  ctx : Nat
  st : DescSt
  raw : List Byte
  marks : List Nat
  stop : Bool
  pos : Nat
  detail : Word
  status : Nat
  /-- It waits on a fault record. -/
  waiting : Bool
  /-- Its own checks have passed and its work is under way. -/
  ready : Bool
  /-- WINDOW ranges of a COPY for which a stale record has been written (R375). -/
  stales : List Nat
  deriving DecidableEq, Repr

/-- Table 7 of 14. -/
inductive QState where
  | absent
  | opened
  | closing
  | aborting
  | closed
  | dead
  deriving DecidableEq, Repr

/-- A queue (R389, Table 16 of 14). -/
structure Queue where
  st : QState
  ctx : Nat
  slot : Nat
  sqBase : Nat
  cqBase : Nat
  log2 : Nat
  vector : Nat
  tail : Nat
  head : Nat
  cqHead : Nat
  cqTail : Nat
  phase : Bool
  overrun : Bool
  deriving DecidableEq, Repr

def Queue.none : Queue := ⟨.absent, 0, 0, 0, 0, 0, 0, 0, 0, 0, 0, false, false⟩

/-- The queue manager (R408). -/
structure Qmg where
  cmd : CmdSt
  qctlCode : Nat
  qsel : Nat
  ctxSel : Nat
  aqcMiss : Word
  arg : List Word
  queues : Tab Queue
  /-- The active-queue cache: queue numbers, most recently used first (R390), and the state reads under way. -/
  cached : List Nat
  reading : List Nat
  lastServed : Nat
  descs : List Desc
  nextDesc : Nat
  /-- Ended descriptors whose records are not written, in the order in which they ended (R394). -/
  ended : List Nat
  /-- First block of the queue backing store of the image in force, and its blocks (R390). -/
  store : Nat
  storeBlocks : Nat
  deriving DecidableEq, Repr

/-- A host access held behind a BISnp of its line (R386): the line's address and, for a write, its data and poison. -/
structure HostReq where
  addr : Nat
  write : Bool
  data : List Byte
  poison : Bool
  deriving DecidableEq, Repr

/-- An HDM decoder (R383). -/
structure Hdm where
  committed : Bool
  notCommitted : Bool
  base : Nat
  size : Nat
  ways : Nat
  gran : Nat
  deriving DecidableEq, Repr

def Hdm.reset : Hdm := ⟨false, false, 0, 0, 0, 0⟩

/-- An entry of the MSI-X table (Table 3 of 14): the message and its mask bit. -/
structure MsixEntry where
  addr : Nat
  data : Nat
  mask : Bool
  deriving DecidableEq, Repr

def MsixEntry.none : MsixEntry := ⟨0, 0, true⟩

/-- The host side: decoders, snoops, power state, interrupts raised, the answers given, and host memory as the device
writes it. -/
structure HostIf where
  hdm : List Hdm
  bisnp : List Nat
  heldReqs : List HostReq
  d3hot : Bool
  busMaster : Bool
  /-- Interrupts raised, by vector (R388). -/
  msix : Tab Word
  /-- MSI-X: enable and function mask of Message Control, the table and the pending-bit array (R382, R388). -/
  msixOn : Bool
  msixMask : Bool
  msixTable : Tab MsixEntry
  msixPba : List Nat
  /-- The bases of BAR0, BAR2 and BAR4 (R382). -/
  bars : List Nat
  /-- IDE: the enable bits of the link stream and the selective stream, and whether they have keys (R379). -/
  ideOn : List Bool
  ideKeyed : Bool
  /-- The answer to the last host read, snoop or configuration request: its bytes and its poison indication. -/
  answer : List Byte
  answerPoison : Bool
  answerCode : Nat
  /-- Bytes of host memory written by the device: completion records. -/
  mem : Mem
  deriving DecidableEq, Repr

/-! ## 16: faults -/

/-- A fault record (Table 4 of 16); the record of all zeros is an empty slot. -/
structure LogRec where
  rid : Nat
  type : Nat
  severity : Nat
  status : Nat
  flags : BitVec 8
  addr : Nat
  ctx : Nat
  range : Nat
  unit : Nat
  index : Nat
  channel : Nat
  cause : Nat
  syndrome : Nat
  count : Nat
  aux : Nat
  data : List Byte
  deriving DecidableEq, Repr

def LogRec.none : LogRec := ⟨0, 0, 0, 0, 0, 0, 0, 0, 0, 0, 0, 0, 0, 0, 0, []⟩

/-- A patrol test's state for one core (Table 15 of 16). -/
structure Patrol where
  /-- The clock when the last test ended, or at commit. -/
  since : Nat
  due : Bool
  dueAt : Nat
  overdue : Bool
  running : Bool
  last : Nat
  /-- Contexts whose cells the machine has run since the test fell due, and contexts that have completed a
  CHECKPOINT or PHASE since then (R463). -/
  ran : List Nat
  saved : List Nat
  deriving DecidableEq, Repr

def Patrol.reset : Patrol := ⟨0, false, 0, false, false, 0, [], []⟩

/-- A recheck (R460): its phase, verdict, context, suspect core, argument addresses and status. -/
structure Recheck where
  phase : Nat
  verdict : Nat
  status : Nat
  core : Nat
  ctx : Nat
  grid : Nat
  chkA : Nat
  chkB : Nat
  /-- The status of the run that has ended and is not yet compared. -/
  ran : Option Nat
  deriving DecidableEq, Repr

/-- The fault log block and fleet service (R472). -/
structure Flt where
  cmd : CmdSt
  arg : List Word
  log : Tab LogRec
  tail : Nat
  head : Nat
  lost : Word
  nextRid : Nat
  sramCe : Word
  svpStage : Nat
  svpLoad : List Nat
  /-- Since when the SVP's total load has been over 900 and below 700 thousandths (R457). -/
  svpOver : Option Nat
  svpUnder : Option Nat
  recheck : Recheck
  patrolSel : Nat
  patrol : List Patrol
  testPass : BitVec 64
  testFail : BitVec 64
  squall : Bool
  /-- Times at which records fell due in the last 10 ms, and when more than 32 last had. -/
  dueTimes : List Nat
  heavyAt : Nat
  /-- Records of the current 10 ms period in squall mode: the slots that may still coalesce, and the period. -/
  period : Nat
  periodSlots : List Nat
  /-- Slots written while a debug session was open (R454). -/
  sessionSlots : List Nat
  deriving DecidableEq, Repr

/-! ## 00 and 01: lifecycle and identity -/

/-- The lifecycle states (R14). -/
inductive Life where
  | off
  | boot
  | unclaimed
  | held
  | service
  | test
  | recovery
  deriving DecidableEq, Repr

/-- The device as a whole: lifecycle, GID's stored bits, how BOOT, TEST and RECOVERY were entered, and the pins. -/
structure Dev where
  life : Life
  frost : Bool
  stateChanged : Bool
  faultNew : Bool
  coreAvail : BitVec 64
  /-- BOOT held before step 8 by PACK_BEGIN, and the clock when the last pack command or run ended (R466). -/
  bootHeld : Bool
  bootHeldAt : Nat
  /-- The RECOVERY of the boot ROM, entered because no bank passed (R92). -/
  romRecovery : Bool
  /-- TEST entered through a vendor factory image (R53), not by PACK_BEGIN. -/
  testFactory : Bool
  /-- A debug session is open (R113 to R116). -/
  dbgOpen : Bool
  porN : Bool
  wrstN : Bool
  perstN : Bool
  twnAliveOut : Bool
  twnHbOut : Bool
  twnAliveIn : Bool
  twnHbIn : Bool
  thermTrip : Bool
  pmbAlertN : Bool
  deriving DecidableEq, Repr

/-! ## 02: structure image -/

/-- The sections of an image (Table 4 of 02), with the defaults of R37 for absent ones, its sequence and digest, its
signer, and its bytes. -/
structure Image where
  seq : Nat
  digest : Digest
  vendor : Bool
  gang : List Nat
  spad : List Nat
  spares : List Nat
  pinWays : Nat
  ctxPinMib : Nat
  policy : Nat
  fixedAllowed : Bool
  defaultClass : Nat
  role : List Nat
  paired : Bool
  mirrorGib : Nat
  waiver : Nat
  capW : Nat
  drizzle : Nat
  fmin : List Nat
  fmax : List Nat
  vmax : List Nat
  maxCtx : Nat
  queuesPerCtx : Nat
  rangesPerCtx : Nat
  totalQueues : Nat
  t1Host : Bool
  faultData : Bool
  interval : Nat
  deadline : Nat
  allowUnordered : Bool
  srSeed : Word
  bytes : List Byte
  deriving DecidableEq, Repr

/-- A SIM command that runs after its write: the checks of VERIFY or COMMIT, or a RELEASE. -/
inductive SimRun where
  | verify
  | commit
  | release
  deriving DecidableEq, Repr

/-- The structure image manager (R60). Floors and floor digests are non-volatile (R46, R47). -/
structure Sim where
  cmd : CmdSt
  section_ : Nat
  fieldOffset : Nat
  chunkLen : Nat
  chunkOff : Nat
  chunk : Mem
  staging : Mem
  /-- Poisoned 32-byte sectors of the staging SRAM (R446). -/
  stagingPoison : List Nat
  present : List Nat
  image : Option Image
  ownerFloor : Nat
  ownerDigest : Digest
  vendorFloor : Nat
  vendorDigest : Digest
  run : Option SimRun
  deriving DecidableEq, Repr

/-! ## 06 to 08: cores -/

/-- CORE.STATUS.RUN without the gated code, which the island's power state gives (Table 11 of 06). -/
inductive RunSt where
  | idle
  | running
  | waiting
  deriving DecidableEq, Repr

/-- A committed store in the store buffer (R152): the bytes it writes at their physical places, and the virtual range
it writes, which loads compare with. An entry whose parity fails holds a poisoned value (R446). -/
structure StoreEnt where
  vaddr : Nat
  size : Nat
  cells : List (Nat × Byte)
  poison : Bool
  deriving DecidableEq, Repr

/-- A register whose value is poisoned (R446): the file and its number. -/
inductive RegName where
  | g (n : Nat)
  | d (n : Nat)
  | v (n : Nat)
  | p (n : Nat)
  deriving DecidableEq, Repr

/-- What a core runs: nothing, a cell (grid identifier, cell number), a product cell of the matrix unit, a test pack,
the combine of a split window, or a patrol test. -/
inductive Work where
  | none
  | cell (grid cell : Nat)
  | product (grid cell : Nat)
  | combine (grid cell : Nat)
  | pack
  | patrol
  deriving DecidableEq, Repr

/-! ## 09: matrix unit -/

/-- Where a matrix job stands: about to begin a stationary load, streaming rows of A, in the output stage, waiting for
a pair chain, or complete for its member. -/
inductive MxPhase where
  | load
  | stream
  | output
  | chain
  | done
  deriving DecidableEq, Repr

/-- A matrix descriptor accepted by one core's unit. Each member of a gang holds its own copy for its share (R237). The
window gives the rows, columns and K span it computes, in the coordinates of the whole product (R301, R305). -/
structure MxJob where
  id : Nat
  raw : List Byte
  ext : List Byte
  member : Nat
  gang : Nat
  m0 : Nat
  mN : Nat
  n0 : Nat
  nN : Nat
  k0 : Nat
  kN : Nat
  /-- A split work item writes its accumulators here instead of C (R305). -/
  partialBase : Option Nat
  /-- Progress: pass, K span, N tile within the pass, next row of A or of output. -/
  pass : Nat
  kc : Nat
  nt : Nat
  row : Nat
  phase : MxPhase
  /-- PAIR: the block of rows, and whether the second product runs. -/
  blk : Nat
  second : Bool
  /-- An abort or kill has come: cancelled at its next boundary (R256). -/
  stop : Bool
  /-- The stationary tile: element (k, c) at 32 k + c. -/
  tile : List FpVal
  /-- PAIR: accumulators of rows of C whose block of a BX C goes on in the next block of rows, at (row × N2 + column) ×
  element size (R253). -/
  carry : Mem
  flags : Cond
  under : Nat
  deriving DecidableEq, Repr

/-- A core's matrix unit (R233, R257). Accumulator memory is 256 KiB of bytes; poisoned words are held by number. -/
structure Mx where
  jobs : List MxJob
  z : Mem
  zPoison : List Nat
  close : Bool
  flags : Cond
  spills : BitVec 32
  desc : Word
  stall : Word
  drizzle : Word
  underflow : Word
  cold : Bool
  drizzling : Bool
  deriving DecidableEq, Repr

def Mx.reset : Mx := ⟨[], [], [], false, 0, 0, 0, 0, 0, 0, true, false⟩

/-! ## 10: stream chain engines -/

/-- A write that a chain has computed and not performed: its beat, whether a terminal makes it, its scratchpad offset
and its bytes. -/
structure ChainWrite where
  beat : Nat
  terminal : Bool
  off : Nat
  bytes : List Byte
  deriving DecidableEq, Repr

/-- An issued chain: what it latched (R270), the beats entered, the taps of recent beats, the terminal's elements so
far, and the writes to come. -/
structure ChainRun where
  id : Nat
  len : Nat
  s : List Nat
  slot : Slot
  stages : List Nat
  entered : Nat
  bcast : List Nat
  hist : List (List (List Lane))
  row : List Nat
  pend : List ChainWrite
  /-- The address of its CHAIN word (R289). -/
  pc : Nat
  deriving DecidableEq, Repr

/-- A load that has not landed (R267): words still to execute, and where it lands. -/
inductive LoadDst where
  | s (i : Nat)
  | n (i : Nat)
  | lc (i : Nat)
  | slot (i : Nat)
  deriving DecidableEq, Repr

structure PendLoad where
  left : Nat
  dst : LoadDst
  value : Nat
  slot : Slot
  deriving DecidableEq, Repr

/-- A start: the entry and register values (R262, R263); `pair` says that the matrix unit made it. -/
structure Start where
  entry : Nat
  s : List Nat
  n : List Nat
  lc : List Nat
  pair : Bool
  deriving DecidableEq, Repr

/-- A DMA in progress on a tag: its descriptor's bytes. -/
abbrev DmaTag := Option (List Byte)

inductive SceRun where
  | idle
  | loading
  | running
  | waiting
  deriving DecidableEq, Repr

/-- One stream chain engine (Table 1 of 10, R293). -/
structure Sce where
  run : SceRun
  pm : Tab Nat
  pmPoison : List Nat
  pc : Nat
  s : List Nat
  n : List Nat
  lc : List Nat
  ls : List Nat
  le : List Nat
  act : List Bool
  len : Nat
  cf : List Slot
  chains : List ChainRun
  nextChain : Nat
  tags : List DmaTag
  held : Option Start
  loads : List PendLoad
  pair : Bool
  close : Bool
  flags : Cond
  faultPc : Nat
  faultX : Nat
  fault : Nat
  nChains : Word
  nBeats : Word
  nStall : Word
  nUnder : Word
  deriving DecidableEq, Repr

def Sce.reset : Sce :=
  { run := .idle, pm := [], pmPoison := [], pc := 0, s := List.replicate 8 0, n := List.replicate 4 0
    lc := List.replicate 4 0, ls := List.replicate 4 0, le := List.replicate 4 0, act := List.replicate 4 false
    len := 0, cf := List.replicate 4 Slot.zero, chains := [], nextChain := 0, tags := List.replicate 4 none
    held := none, loads := [], pair := false, close := false, flags := 0, faultPc := 0, faultX := 0, fault := 0
    nChains := 0, nBeats := 0, nStall := 0, nUnder := 0 }

/-! ## The core -/

/-- An exception delivered for the next instruction boundary (R164, R289): cause, address, information, the unit that
reports it (UNIT of Table 4 of 16) and the sector that held poison. -/
structure Deliver where
  cause : Nat
  addr : Word
  info : Word
  unit : Nat
  sector : Option Nat
  deriving DecidableEq, Repr

/-- One Ebkan core: scalar state (R147, R151), run state (Table 11 of 06), store buffer (R152), counters (R169), the
vector machine it leads, its matrix unit and engines. A partner's vector, system and counter registers are its lead's. -/
structure Core where
  run : RunSt
  ctxValid : Bool
  ctx : Nat
  /-- 0 single, 1 lead, 2 parked partner; members of the machine it leads, itself first. -/
  gangRole : Nat
  members : List Nat
  spare : Bool
  steward : Bool
  g : List Word
  d : List Word
  pc : Word
  fflags : BitVec 5
  frm : BitVec 3
  xcause : Word
  xpc : Word
  xaddr : Word
  xinfo : Word
  sscratch : Word
  pmc : List Word
  sb : List StoreEnt
  /-- The 32 KiB Steward data store (R160); how monitor code addresses it the manual does not say. -/
  stew : Mem
  deliver : Option Deliver
  /-- Its share has ended but for matrix work that has not reached its boundary (R256, R298). -/
  ending : Bool
  regPoison : List RegName
  work : Work
  /-- The descriptor it serves. -/
  desc : Nat
  vec : Vec
  mx : Mx
  sce : List Sce
  /-- Lines in the L1 data cache, by address / 64, and in the private cache, by address / 256 (R214, R326). Their bytes are
  the device's one value for each byte (R334). -/
  l1 : Tab CopySt
  priv : Tab CopySt
  deriving DecidableEq, Repr

/-- A core after reset: idle, every register zero (R77; notes/assumptions/6.md). -/
def Core.reset : Core :=
  { run := .idle, ctxValid := false, ctx := 0, gangRole := 0, members := [], spare := false, steward := false
    g := List.replicate 32 0, d := List.replicate 32 0, pc := 0, fflags := 0, frm := 0, xcause := 0, xpc := 0
    xaddr := 0, xinfo := 0, sscratch := 0, pmc := List.replicate 16 0, sb := [], stew := [], deliver := none, ending := false, regPoison := []
    work := .none, desc := 0, vec := Vec.reset, mx := Mx.reset, sce := [Sce.reset, Sce.reset]
    l1 := [], priv := [] }

/-! ## 11: placement engine -/

/-- What a started descriptor runs on the cores: a program grid, a product grid, or a CHAIN's cells. -/
inductive GridKind where
  | program
  | product
  | chain
  deriving DecidableEq, Repr

/-- A KERNEL or CHAIN descriptor that has started: its blocks as read, its shape (R302), and the progress of its cells
and work items (R298, R305). -/
structure Grid where
  desc : Nat
  ctx : Nat
  kind : GridKind
  block : List Byte
  mraw : List Byte
  fixed : List Byte
  gm : Nat
  gn : Nat
  ks : Nat
  /-- Gang size a program grid needs; 0 for any. -/
  gang : Nat
  hint : Nat
  vmMax : Nat
  /-- CHAIN: the engine, and the addresses of its load and start blocks. -/
  engine : Nat
  load : Nat
  startAt : Nat
  next : Nat
  /-- Work items running: number and lead core; ended items; windows whose partials are all performed and wait for a
  combine; combines running: window and lead core; windows combined. -/
  running : List (Nat × Nat)
  ended : List Nat
  ready : List Nat
  combining : List (Nat × Nat)
  combined : List Nat
  stopping : Bool
  flags : Cond
  spill : Nat
  under : Nat
  deriving DecidableEq, Repr

/-- A vector machine (R309, Table 10 of 11): its members, lead first, and the grid it serves. -/
structure VecMachine where
  members : List Nat
  busy : Bool
  ctx : Nat
  desc : Nat
  deriving DecidableEq, Repr

/-- A placement move (R313). -/
structure Move where
  ctx : Nat
  range : Nat
  cls : Nat
  home : Nat
  pin : Nat
  started : Bool
  newSegs : List Nat
  deriving DecidableEq, Repr

/-- Lines pinned for a context (R308): by a product grid's descriptor, or by a PHASE entry for a range. -/
structure Pin where
  ctx : Nat
  desc : Option Nat
  range : Nat
  lines : List Nat
  deriving DecidableEq, Repr

/-- The placement engine (R320). -/
structure Ple where
  moveClose : Bool
  cellClose : Bool
  lastKs : Nat
  lastGm : Nat
  lastGn : Nat
  moveBytes : Word
  cells : Word
  swaps : Word
  vms : List VecMachine
  grids : List Grid
  moves : List Move
  pins : List Pin
  deriving DecidableEq, Repr

def Ple.reset : Ple := ⟨false, false, 0, 0, 0, 0, 0, 0, [], [], [], []⟩

/-! ## 03: trust and key manager -/

/-- A pending full-scrub record (R80, R84): a change record of an ownership change or of the opening of a debug session,
or a session record. Non-volatile. -/
inductive PendRec where
  | claim (key : List Byte)
  | transfer (key : List Byte)
  | renounce
  | dbgOpen (duration scope : Nat) (secretHash : Digest) (counter : Nat)
  | session
  deriving DecidableEq, Repr

/-- The trust and key manager (R87). The owner key, the counter and the pending record are non-volatile. -/
structure Tkm where
  cmd : CmdSt
  reqType : Nat
  ownerKey : Option (List Byte)
  ownerCtr : Nat
  pending : Option PendRec
  /-- A full scrub runs, its cause (Table 14 of 03) and the thousandths done. -/
  scrubActive : Bool
  scrubCause : Nat
  scrubDone : Nat
  req : Mem
  /-- The submitted request, while its checks run. -/
  checking : Option (List Byte)
  resp : List Byte
  /-- Counter of the ML-KEM encapsulations made, each with a fresh draw. -/
  kemDraws : Nat
  deriving DecidableEq, Repr

/-! ## 04: boot, measurement, service mailbox -/

/-- A firmware bank: held valid, and its bytes (R90, R91). Non-volatile. -/
structure Bank where
  valid : Bool
  bytes : Mem
  deriving DecidableEq, Repr

/-- An open debug session (R113, R114): the clock at which its countdown ends, the scopes the token sets, the hash of
its secret, wrong secrets so far, and the scopes granted. -/
structure DbgSession where
  endsAt : Nat
  scope : Nat
  secretHash : Digest
  wrong : Nat
  granted : Nat
  deriving DecidableEq, Repr

/-- A pack run (R469): its cores still running, when RUN_MS passes, and its pack. -/
structure PackRun where
  cores : List Nat
  endsAt : Nat
  vendor : Bool
  expect : Digest
  deriving DecidableEq, Repr

/-- Why an SVM command runs after its write. -/
inductive SvmRun where
  | fwEnd
  deriving DecidableEq, Repr

/-- The service mailbox and the boot chain (R88, R91, R96, R117, R466). Fuses and banks are non-volatile. -/
structure Svm where
  cmd : CmdSt
  fwVersion : Nat
  svn : Nat
  fallback : Bool
  bank : Nat
  fwFloor : Nat
  rootRevoked : BitVec 4
  banks : List Bank
  fill : Nat
  chunk : Mem
  fwBegun : Bool
  run : Option SvmRun
  slots : List Digest
  /-- The alias key pair's seed, while the device holds its secret half (R99, R106, R113). -/
  aliasSeed : Option (List Byte)
  /-- The boot certificate issued at this boot (R99). -/
  bootCert : List Byte
  /-- The core monitor in the monitor store of every core (R160); empty before step 7 of Table 3 of 04. -/
  monitor : List Byte
  dbg : Option DbgSession
  /-- Test packs (R466): PACK_BEGIN has come, the staged bytes, and a run. -/
  packBegun : Bool
  pack : Mem
  packRun : Option PackRun
  /-- The boot ROM has selected a bank in this BOOT (R91), or found that none passes. -/
  booted : Bool
  /-- The model's count of alias certificates issued: one for each boot of a bank (R99, R116). -/
  issue : Nat
  deriving DecidableEq, Repr

/-- An SPDM session: its number, whether FINISH has come, and its key updates. -/
structure SpdmSession where
  id : Nat
  finished : Bool
  updates : Nat
  deriving DecidableEq, Repr

/-- The SPDM responder of the DOE mailbox: its sessions (R100, R101), and the model's count of responses made. -/
structure Spdm where
  sessions : List SpdmSession
  nextSession : Nat
  draws : Nat
  deriving DecidableEq, Repr

/-- The instructions of the test access port (R110). -/
inductive TapIr where
  | bypass
  | idcode
  | samplePreload
  | extest
  | extestPulse
  | extestTrain
  | clamp
  | highz
  | dbgUnlock
  deriving DecidableEq, Repr

/-- The test access port: its instruction, and the value its data register captured last. -/
structure Tap where
  ir : TapIr
  capture : Nat
  deriving DecidableEq, Repr

/-! ## 15: ports -/

/-- The states of a port (Table 1 of 15). -/
inductive PortSt where
  | off
  | down
  | training
  | trained
  | admitting
  | service
  | relock
  | retraining
  | refused
  deriving DecidableEq, Repr

/-- A frame without its encryption (Tables 3 and 4 of 15): TYPE, CTL_OP of a CTRL frame, VLANE, poison by payload sector,
the 16 bytes of INFO and the payload. -/
structure Frame where
  type : Nat
  vlane : Nat
  poison : BitVec 32
  info : List Byte
  payload : List Byte
  deriving DecidableEq, Repr

/-- Who a frame of this device serves: no one, a COPY (descriptor and chunk offset), a collective (group and SEQ), or a
checkpoint, import or send. -/
inductive FrameOf where
  | none
  | copy (desc off : Nat)
  | coll (group seq : Nat)
  | mirror (desc : Nat)
  deriving DecidableEq, Repr

/-- A frame that waits at the egress, or that is sent and unacknowledged: with its LSEQ once sent. -/
structure OutFrame where
  frame : Frame
  of : FrameOf
  /-- Forwarded or answered rather than locally originated (R442). -/
  forwarded : Bool
  /-- Kept back from the egress because the port is closed (R442). -/
  held : Bool
  lseq : Nat
  /-- The frame count of the nonce under which it was encrypted last (R103, R418). -/
  count : Nat
  deriving DecidableEq, Repr

/-- A live HOLD notice (R433): its fields and the clock at its last refresh. -/
structure Notice where
  origin : Nat
  cls : Nat
  cause : Nat
  hops : Nat
  unit : Nat
  at_ : Nat
  deriving DecidableEq, Repr

/-- A window frame of a COPY that waits for its answer, matched by RTAG (R420): the COPY's byte at which it begins, its
window offset, its bytes and its direction. -/
structure WinReq where
  rtag : Nat
  desc : Nat
  pos : Nat
  off : Nat
  len : Nat
  write : Bool
  deriving DecidableEq, Repr

/-- One port (R410 to R420, R443). -/
structure Port where
  close : Bool
  st : PortSt
  check : Nat
  lost : Bool
  reversed : Bool
  peer : Option Ident
  peerNode : Option Nat
  txBytes : Word
  rxBytes : Word
  replays : Word
  tagFail : Word
  /-- It has been in SERVICE since reset; when it last received a valid frame, and when it last left SERVICE, or for both
  when the last notice lapsed (R415). -/
  hadService : Bool
  quietSince : Nat
  outSince : Nat
  /-- When it last entered RELOCK (R413). -/
  relockAt : Nat
  queue : List OutFrame
  unacked : List OutFrame
  nextLseq : Nat
  lastRx : Nat
  credit : List Nat
  /-- Sectors of each VLANE that this device is to grant with its next CTRL CREDIT (R419). -/
  owed : List Nat
  egress : Arb
  notices : List Notice
  /-- Admission (R102, R105): the peer's digest as it first came; whether this device initiates; the requests that this
  device and the peer have had answered in their turns; checks passed; the twin proof sent, and the peer's matched; and
  every message of the exchange so far, whose hash is its transcript hash. -/
  seen : Option Ident
  initiator : Bool
  asked : Nat
  answered : Nat
  admitted : Bool
  proofSent : Bool
  proofOk : Bool
  transcript : List Byte
  /-- Keys (R103, R104): the decapsulation key of an exchange under way, the direction keys, those of a change under way,
  and whether the port has direction keys. -/
  kemKey : Option (List Byte)
  txKey : Option (List Byte)
  rxKey : Option (List Byte)
  nextTx : Option (List Byte)
  nextRx : Option (List Byte)
  keyed : Bool
  rekeying : Bool
  frameCount : Nat
  rxMarked : Bool
  badTags : Nat
  uncorTimes : List Nat
  wins : List WinReq
  nextRtag : Nat
  deriving DecidableEq, Repr

/-! ## 15: collective engine -/

/-- A collective in flight or waiting to start (R424 to R431). Frame f of block j has key (j, f): `acc` counts the
children combined and holds the bytes so far, `early` holds what arrived before its turn. -/
structure Coll where
  desc : Nat
  ctx : Nat
  group : Nat
  seq : Nat
  op : Nat
  fmt : Nat
  func : Nat
  mode : Nat
  root : Nat
  count : Nat
  src : Nat
  dst : Nat
  n : Nat
  rank : Nat
  nodes : List Nat
  wake : Option (Nat × Nat × Nat)
  started : Bool
  /-- Block, frame, children combined (one more once it is passed on), bytes, poisoned sectors. -/
  acc : List (Nat × Nat × Nat × List Byte × BitVec 32)
  /-- Block, frame, sending rank, bytes, poisoned sectors. -/
  early : List (Nat × Nat × Nat × List Byte × BitVec 32)
  /-- Frames performed or combined: sending rank, kind, block, frame. -/
  got : List (Nat × Nat × Nat × Nat)
  /-- Block and frame written with final values; DETAIL counts their elements. -/
  written : List (Nat × Nat × Nat)
  /-- Chunks sent and not yet acknowledged: destination rank, kind, block, chunk. -/
  owed : List (Nat × Nat × Nat × Nat)
  /-- Grants received: rank, block, first chunk that may not be sent. -/
  grants : List (Nat × Nat × Nat)
  waiting : Option Nat
  cancel : Option Nat
  deriving DecidableEq, Repr

/-- A group (Table 18 of 15). -/
structure Group where
  valid : Bool
  size : Nat
  rank : Nat
  ctx : Nat
  deriving DecidableEq, Repr

def Group.none : Group := ⟨false, 0, 0, 0⟩

/-- The collective engine (R444). -/
structure Cle where
  close : Bool
  nodeValid : Bool
  node : Nat
  noroute : Word
  lost : List Nat
  groups : Tab Group
  coreGen : List (BitVec 16)
  route : Tab Nat
  rankmap : Tab Nat
  colls : List Coll
  /-- Cancels recorded before the collective started: group, SEQ, status (R432). -/
  cancels : List (Nat × Nat × Nat)
  /-- COLL frames for collectives not started (R428), with their ports. -/
  pool : List (Nat × Frame)
  /-- LOST notices seen: node, reporter, event (R434). -/
  seen : List (Nat × Nat × Nat)
  nextEvent : Nat
  nextWtag : Nat
  /-- Link wakes recorded, by core (R422). -/
  linkWakes : List Nat
  /-- First block of the collective staging area of the image in force (R428). -/
  stage : Nat
  deriving DecidableEq, Repr

/-! ## 15: twin controller -/

inductive TwinSt where
  | unpaired
  | pairing
  | paired
  | unmirrored
  | released
  deriving DecidableEq, Repr

inductive CatKind where
  | progress
  | completed
  | retained
  deriving DecidableEq, Repr

/-- A catalogue entry (Table 21 of 15): its origin, context, CKPT, RANGES, the lengths of the named ranges in ascending
index, and its blocks. -/
structure CatEntry where
  kind : CatKind
  ctx : Nat
  ckpt : Nat
  ranges : Nat
  lens : List Nat
  origin : Ident
  blocks : List Nat
  /-- Bytes received while in progress. -/
  got : Nat
  deriving DecidableEq, Repr

/-- A CHECKPOINT under way (R438): descriptor, the twin's entry, the (range, offset) chunks still to send, all its bytes,
and the bytes acknowledged. Its descriptor says whether it stops at the next boundary. -/
structure CkptRun where
  desc : Nat
  entry : Nat
  todo : List (Nat × Nat)
  total : Nat
  acked : Nat
  deriving DecidableEq, Repr

/-- An IMPORT or SEND under way: entry, context, chunks done. -/
structure TwinRun where
  send : Bool
  entry : Nat
  ctx : Nat
  pos : Nat
  /-- SEND: the twin's entry, and bytes acknowledged. -/
  peerEntry : Nat
  acked : Nat
  /-- It is to stop at the next chunk boundary (R442). -/
  stop : Bool
  deriving DecidableEq, Repr

/-- The twin controller (R435 to R441, R445). -/
structure Twc where
  cmd : CmdSt
  detail : Nat
  close : Bool
  catSel : Nat
  st : TwinSt
  emptied : Bool
  peer : Option Ident
  cat : Tab (Option CatEntry)
  /-- First block of the mirror reserve, its blocks, and the peer whose checkpoints it last held (R436). -/
  reserve : Nat
  reserveBlocks : Nat
  reserveOf : Option Ident
  kept : Bool
  /-- A CHECKPOINT has completed since this device's last commit. -/
  ckptDone : Bool
  ckpts : List CkptRun
  run : Option TwinRun
  /-- Clock at the last change of TWN_HB_IN, and whether the heartbeat is live. -/
  hbAt : Option Nat
  hbLive : Bool
  deriving DecidableEq, Repr

/-! ## 17: power, clocks, timers -/

inductive IslSt where
  | running
  | lull
  | calm
  | off
  deriving DecidableEq, Repr

/-- An island (Table 1 of 17, Table 10 of 17): state, clock, voltage, whether it wakes, when it last became idle or met
an event, and a raise of frequency that waits for its voltage. -/
structure Island where
  st : IslSt
  waking : Bool
  mhz : Nat
  mv : Nat
  since : Nat
  raise : Option Nat
  droopAt : Option Nat
  deriving DecidableEq, Repr

/-- A countdown timer (R475): the clock at which it expires while armed, the descriptor that holds it, EXPIRED. -/
structure CTimer where
  due : Option Nat
  held : Option Nat
  expired : Bool
  deriving DecidableEq, Repr

/-- A BAR0 write held for a gated island (R482). -/
structure HeldWrite where
  off : Nat
  size : Nat
  value : Nat
  deriving DecidableEq, Repr

/-- The power manager and the monitors (R477 to R486, R495). Temperatures are in units of 0.125 °C; powers of 0.1 W. -/
structure Pcm where
  monKind : Nat
  monIndex : Nat
  monPeak : Int
  dieTemp : List Int
  droopMv : List Nat
  worstDroop : List Nat
  islands : List Island
  timers : List CTimer
  capUnmet : Bool
  thermLimit : Bool
  resetRefused : Bool
  softBusy : Bool
  frostEntry : Bool
  frostWaking : Bool
  /-- Power samples of the last 1 ms, newest first: each the 18 islands' powers, then the stacks'. -/
  samples : List (List Nat)
  belowSince : Option Nat
  held : List HeldWrite
  /-- Cores marked failed since power-on (R461), and those the non-volatile repair map holds as failed (R469). -/
  failed : BitVec 64
  repairMap : BitVec 64
  deriving DecidableEq, Repr

/-! ## The whole device -/

/-- Why a step of the device would stop without a next state. No meaning of this model uses it: the manual gives every
command an effect (NOTES.md, Stops). -/
inductive Fault where
  /-- Raised by nothing: kept so that the outcome type has a fault. Safe. -/
  | none
  deriving DecidableEq, Repr

/-- Why the model gives a command no meaning. -/
inductive Refusal where
  /-- Raised by an arm of exec whose command has no meaning yet, by its mnemonic. Safe: it stops. -/
  | notModelled (mnemonic : String)
  deriving DecidableEq, Repr

/-- The device: the queue of waiting commands, the model's clock in microseconds (notes/assumptions/4.md), the count of
free values drawn (notes/assumptions/3.md), and every block. -/
structure State where
  pending : List Instr
  now : Nat
  free : Nat
  dev : Dev
  sim : Sim
  dram : Dram
  mcu : List Mcu
  excl : Excl
  ctxs : Tab Ctx
  xlt : Xlt
  qmg : Qmg
  host : HostIf
  flt : Flt
  cores : List Core
  ple : Ple
  tkm : Tkm
  svm : Svm
  spdm : Spdm
  tap : Tap
  ports : List Port
  cle : Cle
  twc : Twc
  pcm : Pcm
  deriving DecidableEq, Repr

/-- An arbiter that has granted nothing. R26 does not say where round-robin order starts then: at index 0 here (DESIGN
CHOICE, notes/assumptions/108.md). -/
def Arb.reset (n : Nat) : Arb := ⟨none, 0, List.replicate n (n - 1), List.replicate n 0, []⟩

def Mcu.reset : Mcu :=
  { cmd := CmdSt.reset, cmdChan := 0, normal := [], narrow := [], waiting := [], classArb := Arb.reset 4, slots := List.replicate 64 (Arb.reset 2)
    therm := .normal, stoppedAt := 0, hotC := 0, gap := 0, ceCount := 0, ueCount := 0
    ch := List.replicate 32 Chan.reset, dieTemp := List.replicate 12 0, retraining := none, retrainWait := []
    turn := 0, patrolPos := 0 }

def Dram.reset : Dram := ⟨[], [], [], [], [], 0, [], 0, [], [], [], []⟩

def Xlt.reset : Xlt :=
  { cmd := CmdSt.reset, arg := List.replicate 4 0, resultGen := 0, fqHead := 0, fqTail := 0, sqHead := 0, sqTail := 0
    sqLost := false, rtbMiss := 0, fq := [], sq := [], unresolved := [], unrecorded := [], nextFid := 1, nextSid := 1
    rtb := List.replicate 9 [], win := [], winPoison := [], drain := none, fillWait := [], creating := none, tail := none }

def Qmg.reset : Qmg :=
  { cmd := CmdSt.reset, qctlCode := 0, qsel := 0, ctxSel := 0, aqcMiss := 0, arg := List.replicate 4 0, queues := []
    cached := [], reading := [], lastServed := 0, descs := [], nextDesc := 1, ended := [], store := 0
    storeBlocks := 0 }

def HostIf.reset : HostIf :=
  { hdm := List.replicate 4 Hdm.reset, bisnp := [], heldReqs := [], d3hot := false, busMaster := false, msix := []
    msixOn := false, msixMask := false, msixTable := [], msixPba := [], bars := [0, 0, 0], ideOn := [false, false], ideKeyed := false
    answer := [], answerPoison := false, answerCode := 0, mem := [] }

def Flt.reset : Flt :=
  { cmd := CmdSt.reset, arg := List.replicate 4 0, log := [], tail := 0, head := 0, lost := 0, nextRid := 1, sramCe := 0
    svpStage := 0, svpLoad := List.replicate 5 0, svpOver := none, svpUnder := none, recheck := ⟨0, 0, 0, 0, 0, 0, 0, 0, none⟩, patrolSel := 0
    patrol := List.replicate 64 Patrol.reset, testPass := 0, testFail := 0, squall := false, dueTimes := [], heavyAt := 0
    period := 0, periodSlots := [], sessionSlots := [] }

def Sim.reset : Sim :=
  { cmd := CmdSt.reset, section_ := 0, fieldOffset := 0, chunkLen := 0, chunkOff := 0, chunk := [], staging := [], stagingPoison := []
    present := [], image := none, ownerFloor := 0, ownerDigest := 0, vendorFloor := 0, vendorDigest := 0, run := none }

def Dev.reset : Dev :=
  { life := .boot, frost := false, stateChanged := false, faultNew := false, coreAvail := 0, bootHeld := false
    bootHeldAt := 0, romRecovery := false, testFactory := false, dbgOpen := false, porN := true, wrstN := true, perstN := true
    twnAliveOut := false, twnHbOut := false, twnAliveIn := false, twnHbIn := false, thermTrip := false
    pmbAlertN := true }

def Tkm.reset : Tkm :=
  { cmd := CmdSt.reset, reqType := 0, ownerKey := none, ownerCtr := 0, pending := none, scrubActive := false
    scrubCause := 0, scrubDone := 0, req := [], checking := none, resp := [], kemDraws := 0 }

def Svm.reset : Svm :=
  { cmd := CmdSt.reset, fwVersion := 0, svn := 0, fallback := false, bank := 0, fwFloor := 0, rootRevoked := 0
    banks := [⟨true, Mem.writeBytes [] 0 Config.factoryBundle⟩, ⟨false, []⟩], fill := 0, chunk := [], fwBegun := false
    run := none, slots := List.replicate 32 0, aliasSeed := none, bootCert := [], monitor := [], dbg := none
    packBegun := false, pack := [], packRun := none, booted := false, issue := 0 }

def Spdm.reset : Spdm := ⟨[], 1, 0⟩

def Port.reset : Port :=
  { close := false, st := .down, check := 0, lost := false, reversed := false, peer := none, peerNode := none
    txBytes := 0, rxBytes := 0, replays := 0, tagFail := 0, hadService := false, quietSince := 0, outSince := 0, relockAt := 0, queue := []
    unacked := [], nextLseq := 0, lastRx := 0xFFFFFFFF, credit := List.replicate 5 0, owed := List.replicate 5 0, egress := Arb.reset 4
    notices := [], seen := none, initiator := false, asked := 0, answered := 0, admitted := false, proofSent := false
    proofOk := false, transcript := [], kemKey := none, txKey := none, rxKey := none, nextTx := none, nextRx := none
    keyed := false, rekeying := false, frameCount := 0, rxMarked := false, badTags := 0, uncorTimes := [], wins := [], nextRtag := 0 }

def Cle.reset : Cle :=
  { close := false, nodeValid := false, node := 0, noroute := 0, lost := [], groups := []
    coreGen := List.replicate 64 0, route := [], rankmap := [], colls := [], cancels := [], pool := [], seen := []
    nextEvent := 0, nextWtag := 0, linkWakes := [], stage := 0 }

def Twc.reset : Twc :=
  { cmd := CmdSt.reset, detail := 0, close := false, catSel := 0, st := .unpaired, emptied := false, peer := none
    cat := [], reserve := 0, reserveBlocks := 0, reserveOf := none, kept := false, ckptDone := false, ckpts := []
    run := none, hbAt := none, hbLive := false }

/-- The fixed clocks of islands 8 to 17 in MHz (Table 1 of 17). -/
def fixedMhz (i : Nat) : Nat :=
  if i < 10 then 1600 else if i < 14 then 1200 else if i = 14 then 1562 else if i < 17 then 1000 else 25

/-- An island out of reset: a core island stands at 400 MHz and 0.75 V (R500; notes/assumptions/6.md). -/
def Island.reset (i : Nat) : Island :=
  { st := .running, waking := false, mhz := if i < 8 then 400 else fixedMhz i, mv := if i < 8 then 750 else 800
    since := 0, raise := none, droopAt := none }

def Pcm.reset : Pcm :=
  { monKind := 0, monIndex := 0, monPeak := 0, dieTemp := List.replicate 96 0, droopMv := List.replicate 144 0
    worstDroop := List.replicate 144 0, islands := (List.range 18).map Island.reset
    timers := List.replicate 16 ⟨none, none, false⟩, capUnmet := false, thermLimit := false, resetRefused := false
    softBusy := false, frostEntry := false, frostWaking := false, samples := [], belowSince := none, held := []
    failed := 0, repairMap := 0 }

/-- The device right after power-on reset is released: BOOT, before step 8, every register at its Reset value. -/
def State.reset : State :=
  { pending := [], now := 0, free := 0, dev := Dev.reset, sim := Sim.reset, dram := Dram.reset
    mcu := List.replicate 8 Mcu.reset, excl := ⟨false, none, false, 0, none⟩, ctxs := [], xlt := Xlt.reset, qmg := Qmg.reset
    host := HostIf.reset, flt := Flt.reset, cores := List.replicate 64 Core.reset, ple := Ple.reset, tkm := Tkm.reset
    svm := Svm.reset, spdm := Spdm.reset, tap := ⟨.bypass, 0⟩, ports := List.replicate 16 Port.reset
    cle := Cle.reset, twc := Twc.reset, pcm := Pcm.reset }

end Sys2Proof.Machine
end

