-- ==== Sys2Proof/Machine/ArbOps.lean ====
section
/-!
DEFINITION. The arbiter of R24 to R28, and its parameters for each instance of Table 4 of 01. The port egress, the controller
class arbiter and the pseudo-channel command slot arbitrate what commands serve. A local-store bank, a router output and the
bridge arbitrate single cycles, which no command of the table shows, so State holds no arbiter of them (NOTES.md, Scope;
notes/assumptions/108.md).
-/
namespace Sys2Proof.Machine

/-- A requester's priority, burst limit B and starvation limit S. -/
structure ArbParam where
  prio : Nat
  b : Nat
  s : Option Nat
  deriving DecidableEq, Repr

/-- Port egress: control frames, collective engine, twin mirror, window traffic. -/
def egressParams : List ArbParam := [⟨1, 1, none⟩, ⟨0, 8, some 32⟩, ⟨0, 8, some 32⟩, ⟨0, 8, some 32⟩]

/-- Controller class arbiter: classes 0 to 3, class 0 highest. -/
def classParams : List ArbParam := [⟨3, 16, none⟩, ⟨2, 16, some 64⟩, ⟨1, 16, some 128⟩, ⟨0, 16, some 256⟩]

/-- Pseudo-channel command slot: normal path, narrow path. -/
def slotParams : List ArbParam := [⟨0, 8, some 16⟩, ⟨1, 4, none⟩]

/-- Local-store bank: matrix operand fetch, vector load and store pipes, gather unit, SCE0, SCE1, scalar L1, DMA. -/
def bankParams : List ArbParam := List.replicate 8 ⟨0, 4, some 8⟩

/-- A fabric router output of n input ports. -/
def routerParams (n : Nat) : List ArbParam := List.replicate n ⟨0, 4, some 16⟩

/-- The bridge, each direction: the four clusters of the sending half, memory responses, the link, host and service islands. -/
def bridgeParams : List ArbParam := List.replicate 8 ⟨0, 8, some 32⟩

def ArbParam.none : ArbParam := ⟨0, 1, Option.none⟩

/-- Indices in round-robin order from the one after i, of n. -/
def rrFrom (i n : Nat) : List Nat := (List.range n).map (fun k => (i + 1 + k) % n)

/-- R27, R28: the arbiter once the requests are those of `req`: a holder that requests no more has released, and a request
withdrawn has a wait counter of zero and is no longer forced. -/
def Arb.settle (a : Arb) (req : Nat → Bool) : Arb :=
  let gone := match a.holder with | some h => !req h | none => true
  { a with
    holder := if gone then none else a.holder
    burst := if gone then 0 else a.burst
    wait := (List.range a.wait.length).map (fun i => if req i then a.wait.getD i 0 else 0)
    forced := a.forced.filter req }

/-- R28: whether the holder keeps the grant: it has not released it nor completed its burst. -/
def Arb.keeps (a : Arb) (ps : List ArbParam) (req : Nat → Bool) : Bool :=
  match a.holder with
  | some h => req h && decide (0 < a.burst) && decide (a.burst < (ps.getD h ArbParam.none).b)
  | none => false

/-- R26: the requester that a decision grants. -/
def Arb.pick (a : Arb) (ps : List ArbParam) (req : Nat → Bool) : Option Nat :=
  match a.forced.find? req with
  | some w => some w
  | none =>
    let cand := (List.range ps.length).filter req
    let top := (cand.map (fun i => (ps.getD i ArbParam.none).prio)).foldl max 0
    (rrFrom (a.last.getD top 0) ps.length).find? (fun i => req i && decide ((ps.getD i ArbParam.none).prio = top))

/-- R27: the wait counters after a decision that grants w, and the requesters that reach their limits; those that reach them
in one decision stand in round-robin order from the index after w, the last granted (R26 and its example). -/
def Arb.granted (a : Arb) (ps : List ArbParam) (req : Nat → Bool) (w : Nat) : Arb :=
  let wait1 := (List.range ps.length).map (fun i =>
    if i = w ∨ !req i then 0
    else match (ps.getD i ArbParam.none).s with
      | some k => min k (a.wait.getD i 0 + 1)
      | none => 0)
  let reached := (rrFrom w ps.length).filter (fun i =>
    match (ps.getD i ArbParam.none).s with
    | some k => decide (wait1.getD i 0 = k) && !a.forced.contains i
    | none => false)
  { holder := some w
    burst := 1
    last := modAt a.last (ps.getD w ArbParam.none).prio (fun _ => w)
    wait := wait1
    forced := a.forced.filter (fun i => decide (i ≠ w) && req i) ++ reached }

/-- R24 to R28: one grant unit: the requester served, and the arbiter after it. -/
def Arb.serve (a : Arb) (ps : List ArbParam) (req : Nat → Bool) : Option (Nat × Arb) :=
  if a.keeps ps req then a.holder.map (fun h => (h, { a with burst := a.burst + 1 }))
  else (a.pick ps req).map (fun w => (w, a.granted ps req w))

end Sys2Proof.Machine
end

