-- ==== Sys2Proof/Machine/MemOps.lean ====
section
/-!
DEFINITION. Device memory: interleave classes and the address map (R323, R324), the channel that holds an address,
poison marks (R338 to R340), and reads and writes of bytes at device physical addresses (R331, R339, R350, R515). DRAM
lies below 2^39; the scratchpad window of core n begins at 2^39 + n × 0x40_0000.
-/
namespace Sys2Proof.Machine

/-- First address past DRAM, and the base of a core's scratchpad window (R515). -/
def dramTop : Nat := 2 ^ 39
def spadBase (n : Nat) : Nat := 2 ^ 39 + n * 0x400000

/-- R212: the local-store bank, and the row in it, of a scratchpad byte at an offset, under SPAD of its core. Which of a
bank's requesters is granted first is timing (notes/assumptions/108.md). -/
def spadBank (spad o : Nat) : Nat := o / 64 % (8 * spad)
def spadRow (spad o : Nat) : Nat := o / 64 / (8 * spad)

/-- R323: the interleave class of a set. -/
def Dram.classOf (m : Dram) (set : Nat) : Nat :=
  if nsHas m.stackGroups (set / 8) then 2
  else if nsHas m.halfPairs (set / 2) then 1
  else if nsHas m.class3 set then 3
  else 0

/-- A place in DRAM: global channel, row, and byte offset within the row. -/
structure ChanAddr where
  ch : Nat
  row : Nat
  off : Nat
  deriving DecidableEq, Repr

/-- R324: the place of an address under a class, before exclusion. -/
def mapClass (cls pa : Nat) : ChanAddr :=
  let set := pa / 2 ^ 24
  let b := pa / 2 ^ 16 % 256
  let o := pa % 2 ^ 16
  if cls = 3 then
    let x := (b * 65536 + o) / 32
    let y := x / 512
    let pc := (x + y) % 512
    ⟨pc / 2, set, y / 4 * 256 + (pc % 2 * 128 + y % 4 * 32 + o % 32)⟩
  else
    let g := b * 256 + o / 256
    let w := if cls = 0 then 256 else if cls = 1 then 128 else 32
    let base := if cls = 0 then 0 else if cls = 1 then 128 * (set % 2) else 32 * (set % 8)
    let q0 := if cls = 0 then set else if cls = 1 then set / 2 * 2 else set / 8 * 8
    let p := g / w
    ⟨base + (g + p) % w, q0 + p / 256, p % 256 * 256 + o % 256⟩

/-- The address whose place under a class is row `row`, byte `off` of channel `ch`: the inverse of mapClass. -/
def unmapClass (cls : Nat) (a : ChanAddr) : Nat :=
  if cls = 3 then
    let y := a.off / 256 * 4 + a.off % 128 / 32
    let x := y * 512 + (a.ch * 2 + a.off % 256 / 128 + 512 - y % 512) % 512
    a.row * 2 ^ 24 + x * 32 + a.off % 32
  else
    let w := if cls = 0 then 256 else if cls = 1 then 128 else 32
    let q0 := if cls = 0 then a.row else if cls = 1 then a.row / 2 * 2 else a.row / 8 * 8
    let p := (a.row - q0) * 256 + a.off / 256
    let set := if cls = 0 then a.row else q0 + a.ch / w
    set * 2 ^ 24 + (p * w + (a.ch % w + w - p % w) % w) * 256 + a.off % 256

/-- R324: the substitute of a row of the excluded channel f. -/
def exclMap (f : Nat) (a : ChanAddr) : ChanAddr :=
  if a.ch = f then
    let i := a.row % 255
    ⟨if i < f then i else i + 1, 32640 + a.row / 255, a.off⟩
  else a

/-- R324, R353: the place of a DRAM address now. During the copy of an exclusion, rows already copied are switched. -/
def State.chanOf (s : State) (pa : Nat) : ChanAddr :=
  let a := mapClass (s.dram.classOf (pa / 2 ^ 24)) pa
  match s.excl.inForce with
  | some f => exclMap f a
  | none =>
    match s.excl.copying with
    | some f => if a.row < s.excl.row then exclMap f a else a
    | none => a

/-- R324, R353: the row of the excluded channel that a substitute row holds; any other row is its own. -/
def exclUnmap (f : Nat) (a : ChanAddr) : ChanAddr :=
  if 32640 ≤ a.row then
    let i := if a.ch < f then a.ch else a.ch - 1
    ⟨f, (a.row - 32640) * 255 + i, a.off⟩
  else a

/-- The DRAM address that a place holds now; none for a place that holds none: a row of the excluded channel that has been
switched, or a substitute row that holds no slice yet. -/
def State.addrAt (s : State) (a : ChanAddr) : Option Nat :=
  let back := fun (f : Nat) (done : Nat) =>
    if 32640 ≤ a.row then (let b := exclUnmap f a; if b.row < done then some b else none)
    else if a.ch = f ∧ a.row < done then none
    else some a
  let b := match s.excl.inForce with
    | some f => back f 32640
    | none =>
      match s.excl.copying with
      | some f => if a.ch = f ∧ a.row < s.excl.row then none
          else if 32640 ≤ a.row then back f s.excl.row else some a
      | none => some a
  b.map (fun x => unmapClass (s.dram.classOf (x.row)) x)

/-- The channel address of R324: row × 65536 + slot × 256 + byte. -/
def ChanAddr.chaddr (a : ChanAddr) : Nat := a.row * 65536 + a.off

/-- The state of a global channel. -/
def State.chan (s : State) (ch : Nat) : Chan :=
  match s.mcu[ch / 32]? with
  | some m => m.ch.getD (ch % 32) Chan.reset
  | none => Chan.reset

/-- Applies a function to one channel. -/
def State.updChan (s : State) (ch : Nat) (f : Chan → Chan) : State :=
  { s with mcu := modAt s.mcu (ch / 32) (fun m => { m with ch := modAt m.ch (ch % 32) f }) }

/-- R354, R515: whether DRAM exists at an address: all 512 GiB, or 510 GiB once an exclusion is in force. -/
def State.present (s : State) (pa : Nat) : Bool :=
  match s.excl.inForce with
  | some _ => decide (pa < 32640 * 2 ^ 24)
  | none => decide (pa < dramTop)

/-- The slice line of an address, and whether the slice holds the address's sector. -/
def State.inSlice (s : State) (pa : Nat) : Bool :=
  (Tab.get NscLine.none s.dram.nsc (pa / 256)).valid.getLsbD (pa / 32 % 8)

/-- Whether a cache holds a copy of the sector of an address: its home slice, or a core's private or L1 data cache. -/
def State.copied (s : State) (pa : Nat) : Bool :=
  s.inSlice pa || s.cores.any (fun c =>
    decide (Tab.get CopySt.absent c.priv (pa / 256) ≠ .absent) || decide (Tab.get CopySt.absent c.l1 (pa / 64) ≠ .absent))

/-- R350, R353: whether the channel that holds an address returns nothing. -/
def State.chanDead (s : State) (pa : Nat) : Bool :=
  let st := (s.chan (s.chanOf pa).ch).st
  decide (pa < dramTop) && (decide (st = .failedUnreadable) || (decide (st = .copying) && s.excl.dead))

/-- R350: whether an address can be neither read nor written: its channel is dead and no cache holds its sector. -/
def State.unreadable (s : State) (pa : Nat) : Bool := s.chanDead pa && !s.copied pa

/-- Whether the byte at an address is poisoned: its sector is marked, or only DRAM holds it and DRAM has lost it. -/
def State.bad (s : State) (pa : Nat) : Bool :=
  nsHas s.dram.poison (pa / 32) || s.unreadable pa || (nsHas s.dram.lost (pa / 32) && !s.copied pa)

/-- Reads one byte at a device physical address. -/
def State.rdByte (s : State) (pa : Nat) : Byte := s.dram.bytes.read pa

/-- Reads bytes at physical addresses. -/
def State.rdAt (s : State) (pas : List Nat) : List Byte := pas.map s.rdByte

/-- Writes bytes at physical addresses, in order; a write to an unreadable channel is discarded (R350). -/
def State.putCells (s : State) : List (Nat × Byte) → State
  | [] => s
  | (a, b) :: r =>
    let s1 := if s.unreadable a then s else { s with dram := { s.dram with bytes := s.dram.bytes.write a b } }
    State.putCells s1 r

/-- R339: the sectors that a write covers whole. -/
def fullSectors (cells : List (Nat × Byte)) : List Nat :=
  let as := cells.map (·.1)
  ((as.filter (fun a => decide (a % 32 = 0))).map (· / 32)).filter
    (fun k => (List.range 32).all (fun j => as.contains (32 * k + j)))

/-- R339: a store: its bytes are written, and the mark of each sector that it covers whole is cleared. -/
def State.store (s : State) (cells : List (Nat × Byte)) : State :=
  let s1 := s.putCells cells
  { s1 with dram := { s1.dram with
      poison := (fullSectors cells).foldl nsDel s1.dram.poison
      lost := (fullSectors cells).foldl nsDel s1.dram.lost } }

/-- Marks the sectors of addresses poisoned. -/
def State.mark (s : State) (pas : List Nat) : State :=
  { s with dram := { s.dram with poison := pas.foldl (fun t a => nsIns t (a / 32)) s.dram.poison } }

/-- R340: a movement of bytes that carries marks: each (source, destination) byte is copied; destination sectors that
are written whole take their sources' marks alone, others keep theirs as well. -/
def State.moveBytes (s : State) (ps : List (Nat × Nat)) : State :=
  let badDst := (ps.filter (fun p => s.bad p.1)).map (·.2)
  (s.store (ps.map (fun p => (p.2, s.rdByte p.1)))).mark badDst

/-- n consecutive addresses. -/
def addrs (a n : Nat) : List Nat := (List.range n).map (a + ·)

/-- R76, R340: zero-fills a 64 KiB block: its bytes, its marks and its scrub-pending state. -/
def State.zeroBlock (s : State) (b : Nat) : State :=
  { s with dram := { s.dram with
      bytes := s.dram.bytes.zero (b * 65536) 65536
      poison := nsDelRange s.dram.poison (b * 2048) 2048
      lost := nsDelRange s.dram.lost (b * 2048) 2048
      clean := nsIns s.dram.clean b } }

/-- R76: makes blocks scrub-pending. -/
def State.dirtyBlocks (s : State) (bs : List Nat) : State :=
  { s with dram := { s.dram with clean := s.dram.clean.filter (fun b => !bs.contains b) } }

/-- R212, R77: zeroes the scratchpad of a core, marks included. -/
def State.zeroSpad (s : State) (n : Nat) : State :=
  { s with dram := { s.dram with
      bytes := s.dram.bytes.zero (spadBase n) 0x400000
      poison := nsDelRange s.dram.poison (spadBase n / 32) 0x20000 } }

end Sys2Proof.Machine
end

