-- ==== Sys2Proof/Machine/FaultOps.lean ====
section
/-!
DEFINITION. Status bits and interrupts (R14, R32, R388) and the fault log: records falling due, written, coalesced in
squall mode or lost (R452 to R454, R458).
-/
namespace Sys2Proof.Machine

/-- R388: whether the message of a vector may be sent: MSI-X is enabled and neither the function nor the vector is masked,
and the function may write host memory (R489) and is not in D3hot, as PCIe has it (PRESUMED, notes/assumptions/120.md). -/
def HostIf.sends (h : HostIf) (v : Nat) : Bool :=
  h.msixOn && !h.msixMask && h.busMaster && !h.d3hot && !(Tab.get MsixEntry.none h.msixTable v).mask

/-- R388: a vector is raised: its message is sent, or its pending bit set. -/
def HostIf.raised (h : HostIf) (v : Nat) : HostIf :=
  if h.sends v then { h with msix := Tab.upd (0 : Word) h.msix v (· + 1) } else { h with msixPba := nsIns h.msixPba v }

/-- R388: the messages of pending vectors that may be sent now are sent. -/
def HostIf.unmasked (h : HostIf) : HostIf :=
  (h.msixPba.filter h.sends).foldl (fun x v => { x with msixPba := nsDel x.msixPba v }.raised v) h

/-- Raises an MSI-X vector (R388). -/
def State.raise (s : State) (v : Nat) : State := { s with host := s.host.raised v }

/-- Sets GID.GSTATUS.STATE_CHANGED, and raises vector 0 when it rises (Table 9 of 01, R388). -/
def State.setChanged (s : State) : State :=
  if s.dev.stateChanged then s else { s with dev := { s.dev with stateChanged := true } }.raise 0

/-- Sets GID.GSTATUS.FAULT_NEW, and raises vector 0 when it rises. -/
def State.setFaultNew (s : State) : State :=
  if s.dev.faultNew then s else { s with dev := { s.dev with faultNew := true } }.raise 0

/-- Changes LIFE; FROST reads 0 once LIFE leaves SERVICE (R15), and a change sets STATE_CHANGED. -/
def State.setLife (s : State) (l : Life) : State :=
  let fr := s.dev.frost && decide (l = .service)
  let s1 := { s with dev := { s.dev with life := l, frost := fr } }
  if decide (s.dev.life = l) && (s.dev.frost == fr) then s1 else s1.setChanged

/-- Changes FROST within SERVICE. -/
def State.setFrost (s : State) (b : Bool) : State :=
  if s.dev.frost = b then s else { s with dev := { s.dev with frost := b } }.setChanged

/-- Record types and severities of Table 5 of 16. -/
def sevRecoverable : Nat := 0
def sevFatal : Nat := 1
def sevCorrected : Nat := 2
def sevInfo : Nat := 3

/-- A record with a type, severity and cause; CTX, RANGE, INDEX and CHANNEL as fields that do not apply. -/
def LogRec.mk0 (type sev cause unit : Nat) : LogRec :=
  { LogRec.none with
    type := type
    severity := sev
    cause := cause
    unit := unit
    range := 0xFF
    index := 0xFF
    channel := 0xFF
    count := 1 }

/-- Adds a context, an address (virtual or physical), an index, a queue. -/
def LogRec.withCtx (r : LogRec) (c : Nat) : LogRec := { r with ctx := c, flags := r.flags ||| 2 }
def LogRec.withAddr (r : LogRec) (a : Nat) (virt : Bool) : LogRec :=
  { r with addr := a, flags := r.flags ||| (if virt then 12 else 4) }
def LogRec.withIndex (r : LogRec) (i : Nat) : LogRec := { r with index := i }
def LogRec.withQueue (r : LogRec) (q : Nat) : LogRec := { r with aux := q }
def LogRec.withStatus (r : LogRec) (st : Nat) : LogRec := { r with status := st }
def LogRec.withData (r : LogRec) (d : List Byte) : LogRec :=
  { r with data := d, flags := r.flags ||| 1 }

/-- The signature of R458. -/
def LogRec.sameSig (a b : LogRec) : Bool :=
  decide (a.type = b.type) && decide (a.unit = b.unit) && decide (a.index = b.index) && decide (a.channel = b.channel)
    && decide (a.cause = b.cause) && decide (a.ctx = b.ctx)

/-- Unread records of the log. -/
def Flt.unread (f : Flt) : Nat := (f.tail + 1024 - f.head) % 1024

/-- The RID after one (Table 4 of 16). -/
def ridAfter (r : Nat) : Nat := if r = 0xFFFFFFFF then 1 else r + 1

/-- R454: writes a record at TAIL, or counts it in LOST when 1,023 are unread. `open_` says a debug session is open. -/
def Flt.write (f : Flt) (open_ : Bool) (r : LogRec) : Flt :=
  if f.unread = 1023 then { f with lost := f.lost + 1 }
  else { f with
    log := Tab.put LogRec.none f.log f.tail { r with rid := f.nextRid }
    tail := (f.tail + 1) % 1024
    nextRid := ridAfter f.nextRid
    periodSlots := f.periodSlots ++ [f.tail]
    sessionSlots := if open_ then f.sessionSlots ++ [f.tail] else f.sessionSlots }

/-- R458: writes a record in squall mode: it joins a record of its signature of the same 10 ms period, or is written;
either record has COALESCED set. -/
def Flt.coalesce (f : Flt) (open_ : Bool) (r : LogRec) : Flt :=
  match f.periodSlots.find? (fun k => (Tab.get LogRec.none f.log k).sameSig r) with
  | some k => { f with log := Tab.upd LogRec.none f.log k (fun x => { x with count := x.count + 1, flags := x.flags ||| 16 }) }
  | none => f.write open_ { r with flags := r.flags ||| 16 }

/-- Starts a new 10 ms period of the model's clock when it has come. -/
def Flt.roll (f : Flt) (now : Nat) : Flt :=
  if f.period = now / 10000 then f else { f with period := now / 10000, periodSlots := [] }

/-- R453, R454, R458: a record falls due. More than 256 within 10 ms start squall mode, whose own record is never
coalesced. -/
def State.post (s : State) (r : LogRec) : State :=
  let f0 := s.flt.roll s.now
  let times := s.now :: f0.dueTimes.filter (fun t => decide (s.now < t + 10000))
  let f1 := { f0 with dueTimes := times, heavyAt := if 32 < times.length then s.now else f0.heavyAt }
  let op := s.dev.dbgOpen
  let f2 := if f1.squall && !decide (r.type = 0x0F) then f1.coalesce op r else f1.write op r
  let f3 := if !f2.squall && decide (256 < times.length) then
      { f2 with squall := true }.write op (LogRec.mk0 0x0F sevInfo 1 0x0F) else f2
  { s with flt := f3 }.setFaultNew

/-- A free value: an unconstrained word, a fresh one for each draw. -/
def State.freeWord (s : State) : Word := Config.freeWord s.free

/-- Moves to the next free value. -/
def State.drawn (s : State) : State := { s with free := s.free + 1 }

end Sys2Proof.Machine
end

