-- ==== Sys2Proof/Machine/Slice.lean ====
section
/-!
DEFINITION. The near-stack cache and its directory (R326 to R336), the copies of lines in the cores' own caches (R214,
R326), and the requests that units make of the home slices (R329). A byte has one value in the model wherever its copies
lie, so these functions move lines, marks and transactions, and never bytes.
-/
namespace Sys2Proof.Machine

def State.core (s : State) (n : Nat) : Core := s.cores.getD n Core.reset

def State.updCore (s : State) (n : Nat) (f : Core → Core) : State := { s with cores := modAt s.cores n f }

def State.stack (s : State) (i : Nat) : Mcu := s.mcu.getD i Mcu.reset
def State.updMcu (s : State) (i : Nat) (f : Mcu → Mcu) : State := { s with mcu := modAt s.mcu i f }

def State.line (s : State) (l : Nat) : NscLine := Tab.get NscLine.none s.dram.nsc l
def State.dirOf (s : State) (l : Nat) : DirEntry := Tab.get DirEntry.none s.dram.dir l
def State.putDir (s : State) (l : Nat) (d : DirEntry) : State :=
  { s with dram := { s.dram with dir := Tab.put DirEntry.none s.dram.dir l d } }

/-- Sectors of a line in a mask, by number 0 to 7. -/
def maskSectors (m : BitVec 8) : List Nat := (List.range 8).filter (fun k => m.getLsbD k)

/-- Byte enables of one sector of a line, and the sectors that enables cover in part. -/
def beOf (be : BitVec 256) (k : Nat) : BitVec 32 := be.extractLsb' (32 * k) 32
def bePart (be : BitVec 256) (m : BitVec 8) : List Nat := (maskSectors m).filter (fun k => decide (beOf be k ≠ 0xFFFFFFFF#32))

/-- The 256-byte lines of DRAM that hold some of a set of addresses, each with its sectors and its byte enables. -/
def byLine (pas : List Nat) : Tab (BitVec 8 × BitVec 256) :=
  pas.foldr (fun a t => if a < dramTop then Tab.upd ((0, 0) : BitVec 8 × BitVec 256) t (a / 256) (fun x =>
    (x.1 ||| BitVec.ofNat 8 (2 ^ (a / 32 % 8)), x.2 ||| BitVec.ofNat 256 (2 ^ (a % 256)))) else t) []

/-- The 64-byte lines of DRAM that hold some of a set of addresses, ascending. -/
def lines64 (pas : List Nat) : List Nat := pas.foldr (fun a t => if a < dramTop then nsIns t (a / 64) else t) []

/-! ## Transactions (R330) -/

/-- The stacks that hold a line's masked sectors, each with its part of the mask. -/
def State.byStack (s : State) (l : Nat) (m : BitVec 8) : List (Nat × BitVec 8) :=
  let st := fun (k : Nat) => (s.chanOf (256 * l + 32 * k)).ch / 32
  ((maskSectors m).map st).eraseDups.map (fun i =>
    (i, (maskSectors m).foldl (fun (a : BitVec 8) k => if st k = i then a ||| BitVec.ofNat 8 (2 ^ k) else a) 0))

/-- R330: one transaction for each stack that a granule lies on, or for each sector of the narrow path, waits for its
controller. -/
def State.sendTxn (s : State) (narrow : Bool) (cls : Nat) (write : Bool) (l : Nat) (m : BitVec 8) (be : BitVec 256) : State :=
  let parts := if narrow then (maskSectors m).flatMap (fun k => s.byStack l (BitVec.ofNat 8 (2 ^ k))) else s.byStack l m
  let q := s.dram.arrivals
  parts.foldl (fun t p => t.updMcu p.1 (fun x => { x with waiting := x.waiting ++ [⟨narrow, cls, write, l, p.2, be, q⟩] }))
    { s with dram := { s.dram with arrivals := q + 1 } }

/-! ## The host's copies (R334, R386) -/

/-- Whether a committed decoder's span holds an address. -/
def State.decoded (s : State) (dpa : Nat) : Bool :=
  s.host.hdm.any (fun h => h.committed && decide (h.base ≤ dpa) && decide (dpa < h.base + h.size))

/-- Whether the host may hold a line: its host bit is set, and a committed decoder lets the host have it. -/
def State.hostHolds (s : State) (l : Nat) : Bool := (s.dirOf l).host && s.decoded (256 * l)

/-- R334, R386: the host's copy of a line is recalled through CXL.mem. -/
def State.recallHost (s : State) (l : Nat) : State :=
  { s with host := { s.host with bisnp := nsIns s.host.bisnp (256 * l) } }

/-- Among lines, those that the host may hold. -/
def State.heldLines (s : State) (ls : List Nat) : List Nat := ls.filter s.hostHolds

/-- R334: work that needs the host to hold none of some lines: it is done, or waits while BISnps of them are out. -/
def State.whenRecalled (s : State) (ls : List Nat) (k : State → State) : State :=
  match s.heldLines ls with
  | [] => k s
  | h => h.foldl State.recallHost s

/-! ## Lines of a slice -/

/-- R332: the set of a line in its home slice. -/
def setOf (line : Nat) : Nat := (line ^^^ (line >>> 13) ^^^ (line >>> 26)) &&& 0x1FFF

/-- R326: the stack whose slice is a line's home: that of its byte 0. -/
def State.homeOf (s : State) (line : Nat) : Nat := (s.chanOf (256 * line)).ch / 32

/-- Lines held by a slice in a set. -/
def State.linesIn (s : State) (home set : Nat) : List (Nat × NscLine) :=
  s.dram.nsc.filter (fun e => decide (setOf e.1 = set) && decide (s.homeOf e.1 = home))

/-- Marks a line as used now. -/
def State.touchLine (s : State) (line : Nat) (f : NscLine → NscLine) : State :=
  { s with dram := { s.dram with
      nsc := Tab.upd NscLine.none s.dram.nsc line (fun l => { f l with used := s.dram.nscClock })
      nscClock := s.dram.nscClock + 1 } }

/-- The bits that a dirty copy of a core adds to its line: all of it, or the two sectors of a 64-byte line. -/
def Core.dirtyOf (c : Core) (l : Nat) : BitVec 8 :=
  (if Tab.get CopySt.absent c.priv l = .dirty then 0xFF else 0)
    ||| (List.range 4).foldl (fun (m : BitVec 8) j =>
      if Tab.get CopySt.absent c.l1 (4 * l + j) = .dirty then m ||| BitVec.ofNat 8 (3 * 2 ^ (2 * j)) else m) 0

/-- Drops a core's copies of a line. -/
def Core.dropLine (c : Core) (l : Nat) : Core :=
  { c with priv := Tab.put .absent c.priv l .absent, l1 := Tab.drop c.l1 (fun k => decide (k / 4 = l)) }

/-- The cores other than `keep` that hold copies of a line. -/
def State.sharersOf (s : State) (l : Nat) (keep : Option Nat) : List Nat :=
  (List.range 64).filter (fun n => (s.dirOf l).sharers.getLsbD n && decide (some n ≠ keep))

/-- R334: dirty sectors that the caches hold of a line: a sharer's invalidation returns them. -/
def State.returned (s : State) (l : Nat) (keep : Option Nat) : BitVec 8 :=
  (s.sharersOf l keep).foldl (fun m n => m ||| (s.core n).dirtyOf l) 0

/-- R333: evicts a line: its sharers are invalidated, and its dirty sectors, with those they return, are written back as
class 2. The poison of a sector that only DRAM then holds shows again (R350, R353). -/
def State.evict (s : State) (l : Nat) : State :=
  let x := s.line l
  let d := x.dirty ||| s.returned l none
  let s1 := (s.sharersOf l none).foldl (fun t n => t.updCore n (fun c => c.dropLine l)) s
  let s2 : State := (s1.putDir l ⟨false, 0, (s.dirOf l).host⟩)
  let s3 : State := { s2 with dram := { s2.dram with
    nsc := Tab.put NscLine.none s2.dram.nsc l NscLine.none
    lost := (maskSectors d).foldl (fun t k => nsDel t (8 * l + k)) s2.dram.lost } }
  if d = 0 then s3 else s3.sendTxn false 2 true l d (BitVec.allOnes 256)

/-- R333: the line that makes room for another in its set of sixteen ways: the least recently used unpinned one. -/
inductive Room where
  | free
  | evict (line : Nat)
  | none
  deriving DecidableEq, Repr

def State.room (s : State) (l : Nat) : Room :=
  if s.line l ≠ NscLine.none then .free
  else
    let ls := s.linesIn (s.homeOf l) (setOf l)
    if ls.length < 16 then .free
    else
      match (ls.filter (fun e => !e.2.pinned)).foldl (fun (b : Option (Nat × NscLine)) e =>
        match b with | Option.none => some e | some x => if e.2.used < x.2.used then some e else b) Option.none with
      | some e => .evict e.1
      | Option.none => .none

/-- The sectors of a mask that the channels cannot return and no cache holds. -/
def State.deadOf (s : State) (l : Nat) (m : BitVec 8) : List Nat :=
  ((maskSectors m).map (8 * l + ·)).filter (fun k => s.bad (32 * k) && !nsHas s.dram.poison k)

/-- Allocates sectors of a line in its slice, poisoned where they could not be read; those in `fresh` are written whole and
need no read. -/
def State.allocate (s : State) (l : Nat) (m fresh dirty : BitVec 8) : State :=
  let go := fun (t : State) =>
    (t.mark ((t.deadOf l (m &&& ~~~fresh)).map (32 * ·))).touchLine l (fun x =>
      { x with valid := x.valid ||| m, dirty := x.dirty ||| dirty })
  match s.room l with
  | .free => go s
  | .evict v => go (s.evict v)
  | .none => s

/-- Whether the slice holds sectors of a line. -/
def State.hits (s : State) (l : Nat) (m : BitVec 8) : Bool := decide ((s.line l).valid &&& m = m)

/-- R327: whether a normal request of a class allocates. -/
def clsAllocates (cls : Nat) : Bool := decide (cls = 0) || decide (cls = 2)

/-- A core's exclusive and dirty copies of a line become shared ones. -/
def Core.shareLine (c : Core) (l : Nat) : Core :=
  let down := fun (x : CopySt) => if x = .absent then CopySt.absent else CopySt.shared
  { c with
    priv := Tab.upd .absent c.priv l down
    l1 := (List.range 4).foldl (fun t j => Tab.upd .absent t (4 * l + j) down) c.l1 }

/-- Copies of a line come back to its slice: each core in `ns` drops its copy, or with `keep` goes on sharing it, and the
sectors that it held dirty lie dirty in the slice. -/
def State.recallCores (s : State) (l : Nat) (ns : List Nat) (keep : Bool) : State :=
  let back := ns.foldl (fun (m : BitVec 8) n => m ||| (s.core n).dirtyOf l) 0
  let s1 := ns.foldl (fun t n => t.updCore n (fun c => if keep then c.shareLine l else c.dropLine l)) s
  if back = 0 then s1 else s1.allocate l back back back

/-- R334: a unit takes a copy of a line, or reads past one: exclusive access takes every other core's copy away, and dirty
data comes back with it. A read of a line that a core holds exclusive leaves that core a sharer, for R331 lets the read
see its bytes (DEDUCED, notes/assumptions/109.md). -/
def State.takeCopy (s : State) (l : Nat) (core : Option Nat) (excl : Bool) : State :=
  let d := s.dirOf l
  let own : BitVec 64 := match core with | some c => BitVec.ofNat 64 (2 ^ c) | none => 0
  if excl then (s.recallCores l (s.sharersOf l core) false).putDir l ⟨core.isSome, own, false⟩
  else
    let s1 := if d.excl && d.sharers != own then s.recallCores l (s.sharersOf l core) true else s
    s1.putDir l ⟨d.excl && d.sharers == own, d.sharers ||| own, d.host⟩

/-! ## Requests that the model performs whole (R326 to R329) -/

/-- The lines whose host copies a request must wait for: its own when it is exclusive or writes, and the line that must
leave its set when the request allocates or a core's dirty data comes back. -/
def State.waitsFor (s : State) (l : Nat) (own alloc : Bool) : List Nat :=
  (if own then [l] else []) ++
    (if alloc || (s.dirOf l).excl then (match s.room l with | .evict v => [v] | _ => []) else [])

/-- R327, R328: a read of sectors is served from the line, or reads the absent ones; the requester's path and class say
what the slice then holds. -/
def State.serveRead (s : State) (who : Requester) (core : Option Nat) (excl : Bool) (l : Nat) (m : BitVec 8) : State :=
  let s1 := s.takeCopy l core excl
  if s1.hits l m then s1.touchLine l id
  else if who.narrow then s1.allocate l m 0 0
  else if clsAllocates who.cls then s1.allocate l 0xFF 0 0
  else if (s1.line l).valid &&& m ≠ 0 then s1.touchLine l id
  else s1

/-- R327, R328: a write of bytes of a line: into the line that a class 2 request or a narrow hit leaves dirty, or through to
DRAM beside the line. Other units' copies go. -/
def State.serveWrite (s : State) (who : Requester) (core : Option Nat) (l : Nat) (m : BitVec 8) (be : BitVec 256) : State :=
  let s1 := s.takeCopy l core true
  let full := (bePart be m).foldl (fun (a : BitVec 8) k => a &&& ~~~(BitVec.ofNat 8 (2 ^ k))) m
  if who.narrow then
    if s1.hits l m then s1.allocate l m full m
    else (s1.allocate l m full 0).sendTxn true 0 true l m be
  else if clsAllocates who.cls then s1.allocate l m full m
  else
    let s2 := if (s1.line l).valid &&& m ≠ 0 then s1.touchLine l id else s1
    if who.cls = 3 then s2 else s2.sendTxn false who.cls true l m be

/-- R334, R385: a host access to a line: a read lets the host hold it, and a write leaves the host's bit. -/
def State.hostServe (s : State) (write : Bool) (l : Nat) (m : BitVec 8) : State :=
  let t := if write then s.serveWrite .hostWrite none l m (BitVec.allOnes 256) else s.serveRead .hostRead none false l m
  t.putDir l { t.dirOf l with host := !write || (s.dirOf l).host }

/-- A unit's reads of bytes of DRAM. -/
def State.unitRead (s : State) (who : Requester) (pas : List Nat) : State :=
  (byLine pas).foldl (fun t e => t.serveRead who none false e.1 e.2.1) s

/-- A unit's writes of bytes of DRAM. -/
def State.unitWrite (s : State) (who : Requester) (pas : List Nat) : State :=
  (byLine pas).foldl (fun t e => t.serveWrite who none e.1 e.2.1 e.2.2) s

/-- The lines that a unit's writes of bytes must wait for. -/
def State.writeWaits (s : State) (who : Requester) (pas : List Nat) : List Nat :=
  (byLine pas).flatMap (fun e => s.waitsFor e.1 true (who.narrow || clsAllocates who.cls))

/-- The lines that a unit's reads of bytes must wait for. -/
def State.readWaits (s : State) (who : Requester) (pas : List Nat) : List Nat :=
  (byLine pas).flatMap (fun e => s.waitsFor e.1 false (who.narrow || clsAllocates who.cls))

/-! ## The cores' own caches -/

/-- Lines that the private cache of a core holds at most: the banks that the image leaves it (08, Local store banks). -/
def State.privLines (s : State) (n : Nat) : Nat :=
  match s.sim.image with | some i => (48 - 8 * i.spad.getD n 0) * 256 | none => 0

/-- A core gives up a line of its private cache: dirty, it is written back as class 2. -/
def State.dropPriv (s : State) (n l : Nat) : State :=
  let d := Tab.get CopySt.absent (s.core n).priv l
  let s1 := s.updCore n (fun c => { c with priv := Tab.put .absent c.priv l .absent })
  if d = .dirty then s1.serveWrite .writeBack none l 0xFF (BitVec.allOnes 256) else s1

/-- A core gives up a 64-byte line of its L1 data cache: dirty, its two sectors are written on the narrow path. -/
def State.dropL1 (s : State) (n k : Nat) : State :=
  let d := Tab.get CopySt.absent (s.core n).l1 k
  let s1 := s.updCore n (fun c => { c with l1 := Tab.put .absent c.l1 k .absent })
  let m := BitVec.ofNat 8 (3 * 2 ^ (2 * (k % 4)))
  if d = .dirty then s1.serveWrite .scalar none (k / 4) m (BitVec.allOnes 256) else s1

/-- Puts a line in a private cache. Which line a full cache gives up the manual does not say: it is free
(notes/assumptions/109.md). -/
def State.putPriv (s : State) (n l : Nat) (x : CopySt) : State :=
  let p := (s.core n).priv
  let s1 := if Tab.get CopySt.absent p l = .absent ∧ s.privLines n ≤ p.length ∧ p ≠ [] then
      (s.dropPriv n ((p.getD (s.freeWord.toNat % p.length) (l, .absent)).1)).drawn else s
  s1.updCore n (fun c => { c with priv := Tab.put .absent c.priv l x })

/-- Puts a line in an L1 data cache of 256 sets of four ways; the way that a full set gives up is free. -/
def State.putL1 (s : State) (n k : Nat) (x : CopySt) : State :=
  let set := (s.core n).l1.filter (fun e => decide (e.1 % 256 = k % 256))
  let s1 := if Tab.get CopySt.absent (s.core n).l1 k = .absent ∧ 4 ≤ set.length then
      (s.dropL1 n ((set.getD (s.freeWord.toNat % set.length) (k, .absent)).1)).drawn else s
  s1.updCore n (fun c => { c with l1 := Tab.put .absent c.l1 k x })

/-- R214, R329: a core's unit-stride or matrix read of bytes: lines absent from the private cache are filled, or with `nt`
read past it. -/
def State.coreRead (s : State) (n : Nat) (nt : Bool) (pas : List Nat) : State :=
  (byLine pas).foldl (fun t e =>
    if Tab.get CopySt.absent (t.core n).priv e.1 ≠ .absent then t
    else if nt then t.serveRead .stream none false e.1 e.2.1
    else (t.serveRead .fill (some n) false e.1 0xFF).putPriv n e.1 .shared) s

/-- R214, R329: a core's unit-stride or matrix write of bytes: into the private cache, which first takes the line alone, or
with `nt` past a cache that does not hold it. -/
def State.coreWrite (s : State) (n : Nat) (nt : Bool) (pas : List Nat) : State :=
  (byLine pas).foldl (fun t e =>
    let x := Tab.get CopySt.absent (t.core n).priv e.1
    if x = .absent ∧ nt = true then t.serveWrite .stream none e.1 e.2.1 e.2.2
    else
      let t1 := if x = .excl ∨ x = .dirty then t
        else if e.2.2 = BitVec.allOnes 256 then t.takeCopy e.1 (some n) true
        else t.serveRead .own (some n) true e.1 0xFF
      (t1.updCore n (fun c => { c with l1 := Tab.drop c.l1 (fun k => decide (k / 4 = e.1)) })).putPriv n e.1 .dirty) s

/-- R215: a core's gather: bytes whose lines the private cache does not hold come on the narrow path, sector by sector. -/
def State.coreGather (s : State) (n : Nat) (pas : List Nat) : State :=
  (byLine pas).foldl (fun t e =>
    if Tab.get CopySt.absent (t.core n).priv e.1 ≠ .absent then t
    else (maskSectors e.2.1).foldl (fun t k => t.serveRead .gather none false e.1 (BitVec.ofNat 8 (2 ^ k))) t) s

/-- R216: a core's scatter: its private copies of the lines go, and the bytes are written on the narrow path. -/
def State.coreScatter (s : State) (n : Nat) (pas : List Nat) : State :=
  (byLine pas).foldl (fun t e =>
    (maskSectors e.2.1).foldl (fun t k => t.serveWrite .gather none e.1 (BitVec.ofNat 8 (2 ^ k)) e.2.2) (t.dropPriv n e.1)) s

/-- R326, R329: a core's scalar read: a line in neither of its caches comes on the narrow path, two sectors. -/
def State.scalarRead (s : State) (n : Nat) (pas : List Nat) : State :=
  (lines64 pas).foldl (fun t k =>
    if Tab.get CopySt.absent (t.core n).l1 k ≠ .absent ∨ Tab.get CopySt.absent (t.core n).priv (k / 4) ≠ .absent then t
    else (t.serveRead .scalar (some n) false (k / 4) (BitVec.ofNat 8 (3 * 2 ^ (2 * (k % 4))))).putL1 n k .shared) s

/-- R152, R326, R334: a scalar store's write of its line: the L1 data cache takes it alone, and the private cache gives it
up, since one of the two holds a line for writing. -/
def State.scalarWrite (s : State) (n : Nat) (pas : List Nat) : State :=
  (lines64 pas).foldl (fun t k =>
    let x := Tab.get CopySt.absent (t.core n).l1 k
    let t1 := t.dropPriv n (k / 4)
    let t2 := if x = .excl ∨ x = .dirty then t1
      else t1.serveRead .scalar (some n) true (k / 4) (BitVec.ofNat 8 (3 * 2 ^ (2 * (k % 4))))
    t2.putL1 n k .dirty) s

/-- A unit writes bytes of DRAM and of scratchpads. -/
def State.unitStore (s : State) (who : Requester) (cells : List (Nat × Byte)) : State :=
  (s.unitWrite who (cells.map (·.1))).store cells

/-- A unit moves bytes, marks with them (R340). -/
def State.unitMove (s : State) (who : Requester) (ps : List (Nat × Nat)) : State :=
  ((s.unitRead who (ps.map (·.1))).unitWrite who (ps.map (·.2))).moveBytes ps

/-- The lines that a unit's move of bytes must wait for. -/
def State.moveWaits (s : State) (who : Requester) (ps : List (Nat × Nat)) : List Nat :=
  s.readWaits who (ps.map (·.1)) ++ s.writeWaits who (ps.map (·.2))

/-- R335: an atomic takes its line for the home slice alone, and is performed there. -/
def State.sliceAtomic (s : State) (pas : List Nat) : State :=
  (byLine pas).foldl (fun t e => (t.takeCopy e.1 none true).allocate e.1 e.2.1 0 e.2.1) s

/-- The lines that a core's writes must wait for. -/
def State.coreWaits (s : State) (pas : List Nat) : List Nat := s.writeWaits .own pas

/-- Empties a core's caches: with `back`, dirty lines are written back (R297, Table 5 of 17). -/
def State.emptyCore (s : State) (n : Nat) (back : Bool) : State :=
  let c := s.core n
  let s1 := if back then
      ((c.l1.map (·.1)).foldl (fun t k => t.dropL1 n k) ((c.priv.map (·.1)).foldl (fun t l => t.dropPriv n l) s)) else s
  let b : BitVec 64 := BitVec.ofNat 64 (2 ^ n)
  let s2 : State := { s1 with dram := { s1.dram with
    dir := Tab.mapAll DirEntry.none s1.dram.dir (fun _ d =>
      if d.sharers.getLsbD n then { d with sharers := d.sharers &&& ~~~b, excl := false } else d) } }
  s2.updCore n (fun c => { c with l1 := [], priv := [] })

/-- Lines of 64 bytes whose newest bytes a core's caches alone hold. -/
def Core.dirtyLines (c : Core) : List Nat :=
  (c.l1.filter (fun e => decide (e.2 = .dirty))).map (·.1)
    ++ (c.priv.filter (fun e => decide (e.2 = .dirty))).flatMap (fun e => addrs (4 * e.1) 4)

/-- R491: a core's caches are invalidated without writing back. What a dirty line's bytes then hold depends on when they were
last written back, which is free (notes/assumptions/119.md). -/
def State.loseCore (s : State) (n : Nat) : State :=
  let ls := (s.core n).dirtyLines
  let s1 := (ls.zip (List.range ls.length)).foldl (fun t e =>
    t.store ((addrs (64 * e.1) 64).zip ((List.range 8).flatMap (fun i => leBytes 8 (Config.freeWord (s.free + 8 * e.2 + i)).toNat)))) s
  { s1 with free := s.free + 8 * ls.length }.emptyCore n false

end Sys2Proof.Machine
end

