-- ==== Sys2Proof/Machine/XlateOps.lean ====
section
/-!
DEFINITION. Address translation: ranges (R360, R363), the check of an access byte by byte (R364), scratchpad handles
(R213), fault records and the fault ring (R367 to R370), stale records (R375) and the range translation buffers (R365).
-/
namespace Sys2Proof.Machine

/-- What a byte is accessed for: the PERM bit it needs (Table 1 of 13). -/
inductive Need where
  | read
  | write
  | fetch
  deriving DecidableEq, Repr

def Need.bit : Need → Nat
  | .read => 0
  | .write => 1
  | .fetch => 2

/-- The accessing unit, as far as Table 2 of 13 tells units apart: a unit of a core that runs a cell of a program grid,
with the cores of its machine; a COPY; and any other unit. -/
inductive Reach where
  | cell (members : List Nat)
  | copy
  | other
  deriving DecidableEq, Repr

/-- Where a byte lies once translated: at a physical address, or behind a window (range index and window offset). -/
inductive Place where
  | pa (a : Nat)
  | win (range off : Nat)
  deriving DecidableEq, Repr

/-- The outcome for one byte or for an access: allowed, a translation fault (cause 4), a permission fault (cause 5) with
the range, or a wait (R364 item 4). -/
inductive XRes (α : Type) where
  | ok (x : α)
  | fault (cause va range : Nat)
  | wait
  deriving Repr

/-- A context; an absent one is Ctx.none. -/
def State.ctx (s : State) (c : Nat) : Ctx := Tab.get Ctx.none s.ctxs c

/-- Changes a context. -/
def State.updCtx (s : State) (c : Nat) (f : Ctx → Ctx) : State := { s with ctxs := Tab.upd Ctx.none s.ctxs c f }

def Ctx.range (c : Ctx) (i : Nat) : Range := Tab.get Range.none c.ranges i

/-- Changes a range of a context. -/
def State.updRange (s : State) (c i : Nat) (f : Range → Range) : State :=
  s.updCtx c (fun x => { x with ranges := Tab.upd Range.none x.ranges i f })

/-- Whether a range contains a virtual address. -/
def Range.has (r : Range) (va : Nat) : Bool := r.valid && decide (r.vbase ≤ va) && decide (va < r.vbase + r.len)

/-- The range that contains a virtual address, with its index. -/
def Ctx.at_ (c : Ctx) (va : Nat) : Option (Nat × Range) := c.ranges.find? (fun e => e.2.has va)

/-- R363: the device physical address of an offset in a DEVICE or PLACED range. -/
def Range.phys (r : Range) (o : Nat) : Nat :=
  match r.kind with
  | .placed => r.segs.getD (o / 2 ^ 24) 0 + o % 2 ^ 24
  | _ => r.target + o

/-- R213: the place of an offset of a scratchpad handle on a machine: granule j lies with member j mod g. -/
def scratchPa (members : List Nat) (o : Nat) : Nat :=
  let g := max 1 members.length
  spadBase (members.getD (o / 256 % g) 0) + o / (256 * g) * 256 + o % 256

/-- Whether a unit reaches a kind of range (Table 2 of 13). -/
def Reach.ok (w : Reach) (k : RangeKind) : Bool :=
  match k, w with
  | .device, _ => true
  | .placed, _ => true
  | .window, .copy => true
  | .scratch, .cell _ => true
  | _, _ => false

/-- R364: translates one byte under a context's ranges. -/
def Ctx.xlate (x : Ctx) (w : Reach) (n : Need) (va : Nat) : XRes Place :=
  match x.at_ va with
  | Option.none => .fault 4 va 0
  | some (i, r) =>
    if !w.ok r.kind then .fault 5 va i
    else if !r.perm.getLsbD n.bit then .fault 5 va i
    else if r.draining || r.switching then .wait
    else
      let o := va - r.vbase
      match r.kind, w with
      | .window, _ => .ok (.win i o)
      | .scratch, .cell m => .ok (.pa (scratchPa m o))
      | _, _ => .ok (.pa (r.phys o))

/-- R364: translates one byte for a unit that serves a context. -/
def State.xlate (s : State) (c : Nat) (w : Reach) (n : Need) (va : Nat) : XRes Place := (s.ctx c).xlate w n va

/-- R240: the check of an extent, which one range must grant whole. A failure names the first byte that no single
granting range covers (notes/assumptions/31.md). -/
def Ctx.extent (x : Ctx) (w : Reach) (n : Need) (va len : Nat) : XRes Unit :=
  if len = 0 then .ok ()
  else
    match x.at_ va with
    | Option.none => .fault 4 va 0
    | some (i, r) =>
      let e := r.vbase + r.len
      if !w.ok r.kind || !r.perm.getLsbD n.bit then .fault 5 va i
      else if e < va + len then (match x.at_ e with | Option.none => .fault 4 e 0 | some (j, _) => .fault 5 e j)
      else if r.draining || r.switching then .wait
      else .ok ()

/-- R364: translates bytes in order; the first that fails decides. -/
def State.xlateList (s : State) (c : Nat) (w : Reach) (n : Need) : List Nat → XRes (List Place)
  | [] => .ok []
  | va :: r =>
    match s.xlate c w n va with
    | .fault k v i => .fault k v i
    | .wait => .wait
    | .ok p =>
      match s.xlateList c w n r with
      | .ok ps => .ok (p :: ps)
      | e => e

/-- The n virtual addresses from va, modulo 2^64 (R209). -/
def vAddrs (va n : Nat) : List Nat := (List.range n).map (fun k => (va + k) % 2 ^ 64)

/-- Physical addresses among places; a window place has none. -/
def placePas (ps : List Place) : List Nat :=
  ps.filterMap (fun p => match p with | .pa a => some a | .win _ _ => none)

/-- R364: translates n bytes from va to physical addresses. -/
def State.xlateSpan (s : State) (c : Nat) (w : Reach) (n : Need) (va len : Nat) : XRes (List Nat) :=
  match s.xlateList c w n (vAddrs va len) with
  | .ok ps => .ok (placePas ps)
  | .fault k v i => .fault k v i
  | .wait => .wait

/-- A context as a use in flight sees it: a range that is being drained or switched still answers (R371). -/
def Ctx.held (x : Ctx) : Ctx :=
  { x with ranges := x.ranges.map (fun e => (e.1, { e.2 with draining := false, switching := false })) }

/-- Translates bytes under given ranges to physical addresses; the first byte that fails decides. -/
def Ctx.span (x : Ctx) (w : Reach) (n : Need) : List Nat → XRes (List Nat)
  | [] => .ok []
  | va :: r =>
    match x.xlate w n va with
    | .fault k v i => .fault k v i
    | .wait => .wait
    | .ok p =>
      match x.span w n r with
      | .ok ps => .ok (placePas [p] ++ ps)
      | e => e

/-- XINFO of an access that fails: the range index, and bit 8 for a store or bit 9 for a fetch (Table 4 of 06). -/
def xinfoOf (n : Need) (range : Nat) : Word :=
  BitVec.ofNat 64 (range + (match n with | .read => 0 | .write => 256 | .fetch => 512))

/-! ## The fault ring -/

/-- Unread fault records. -/
def Xlt.fqUnread (x : Xlt) : Nat := (x.fqTail + 256 - x.fqHead) % 256

/-- Unread stale records. -/
def Xlt.sqUnread (x : Xlt) : Nat := (x.sqTail + 64 - x.sqHead) % 64

/-- Whether a fault record can be written now (R368). -/
def Xlt.fqRoom (x : Xlt) : Bool := decide (x.fqUnread < 255) && decide (x.unresolved.length < 256)

/-- Raises vector 0 when FQ_PENDING or SQ_PENDING rises from 0 (R388). -/
def State.ringRise (s0 s : State) : State :=
  if (s0.xlt.fqUnread = 0 ∧ s.xlt.fqUnread ≠ 0) ∨ (s0.xlt.sqUnread = 0 ∧ s.xlt.sqUnread ≠ 0) then s.raise 0 else s

/-- The FID after one (Table 3 of 13). -/
def fidAfter (f : Nat) : Nat := if f = 0xFFFFFFFF then 1 else f + 1

/-- Writes a fault record into the ring and holds it unresolved (R368). -/
def State.writeFault (s : State) (u : Unresolved) : State :=
  let x := s.xlt
  let r := { u.rcd with fid := x.nextFid }
  let x1 := { x with
    fq := Tab.put FaultRec.none x.fq x.fqTail r
    unresolved := x.unresolved ++ [⟨r, u.who, x.fqTail⟩]
    fqTail := (x.fqTail + 1) % 256
    nextFid := fidAfter x.nextFid }
  State.ringRise s { s with xlt := x1 }

/-- Adds a waiter to a record. -/
def Unresolved.join (u : Unresolved) (w : Waiter) (n : Need) : Unresolved :=
  { u with
    rcd := { u.rcd with waiters := u.rcd.waiters + 1, access := u.rcd.access ||| BitVec.ofNat 3 (2 ^ n.bit) }
    who := u.who ++ [w] }

/-- Whether a translation fault of a context at an address joins a record (R367). -/
def Unresolved.joins (u : Unresolved) (c va : Nat) : Bool :=
  !u.rcd.change && decide (u.rcd.ctx = c) && decide (u.rcd.vaddr / 65536 = va / 65536)

/-- Copies unresolved records' fields to their ring slots while the slots still hold them (Table 3 of 13, WAITERS). -/
def Xlt.refresh (x : Xlt) : Xlt :=
  { x with fq := x.unresolved.foldl (fun t u =>
      if (Tab.get FaultRec.none t u.slot).fid = u.rcd.fid then Tab.put FaultRec.none t u.slot u.rcd else t) x.fq }

/-- FIRST_UNIT of a waiter. -/
def Waiter.unitByte : Waiter → Nat
  | .core n => n
  | .engine n e => n + 64 * (1 + e)
  | .desc _ => 0xFF

/-- The record of a new translation fault. -/
def newFault (c va : Nat) (n : Need) (w : Waiter) (queue : Nat) : Unresolved :=
  { rcd := { FaultRec.none with
      ctx := c
      access := BitVec.ofNat 3 (2 ^ n.bit)
      vaddr := va
      waiters := 1
      range := 0xFF
      firstUnit := w.unitByte
      queue := queue }
    who := [w]
    slot := 0 }

/-- R367, R368: a unit takes a translation fault: it joins a record of the same block, or a new record is written, or
waits unrecorded. -/
def State.postXlate (s : State) (c va : Nat) (n : Need) (w : Waiter) (queue : Nat) : State :=
  if s.xlt.unresolved.any (fun u => u.joins c va) then
    { s with xlt := { s.xlt with
        unresolved := s.xlt.unresolved.map (fun (u : Unresolved) => if u.joins c va then u.join w n else u) }.refresh }
  else if s.xlt.unrecorded.any (fun u => u.joins c va) then
    { s with xlt := { s.xlt with
        unrecorded := s.xlt.unrecorded.map (fun (u : Unresolved) => if u.joins c va then u.join w n else u) } }
  else if s.xlt.fqRoom && s.xlt.unrecorded.isEmpty then s.writeFault (newFault c va n w queue)
  else { s with xlt := { s.xlt with unrecorded := s.xlt.unrecorded ++ [newFault c va n w queue] } }

/-- R370: a CHANGE record of the core monitor. -/
def State.postChange (s : State) (c range perm va n queue : Nat) : State :=
  let u : Unresolved :=
    { rcd := { FaultRec.none with
        ctx := c
        change := true
        vaddr := va
        waiters := 1
        range := range
        firstUnit := n
        queue := queue
        reqPerm := perm }
      who := [.core n]
      slot := 0 }
  if s.xlt.fqRoom && s.xlt.unrecorded.isEmpty then s.writeFault u
  else { s with xlt := { s.xlt with unrecorded := s.xlt.unrecorded ++ [u] } }

/-- R369: a waiter leaves every record it waits on. -/
def State.leave (s : State) (w : Waiter) : State :=
  let f := fun (u : Unresolved) =>
    if u.who.contains w then
      { u with rcd := { u.rcd with waiters := u.rcd.waiters - 1 }, who := u.who.filter (· ≠ w) }
    else u
  { s with xlt := { s.xlt with
      unresolved := s.xlt.unresolved.map f
      unrecorded := s.xlt.unrecorded.map f }.refresh }

/-- R375: writes a stale record, or sets SQ_LOST when 63 are unread. -/
def State.postStale (s : State) (r : StaleRec) : State :=
  let x := s.xlt
  if x.sqUnread = 63 then { s with xlt := { x with sqLost := true } }
  else
    State.ringRise s { s with xlt := { x with
      sq := Tab.put StaleRec.none x.sq x.sqTail { r with sid := x.nextSid }
      sqTail := (x.sqTail + 1) % 64
      nextSid := if x.nextSid = 0xFFFFFFFF then 1 else x.nextSid + 1 } }

/-! ## Range translation buffers -/

/-- Removes ranges' entries from all nine buffers (Table 4 of 13, step 3). -/
def Xlt.rtbDrop (x : Xlt) (c : Nat) (ranges : List Nat) : Xlt :=
  { x with rtb := x.rtb.map (fun l => l.filter (fun k => !(decide (k / 64 = c) && ranges.contains (k % 64)))) }

/-- R365: fills a buffer of 256 entries, evicting the least recently used. -/
def rtbPut (l : List Nat) (k : Nat) : List Nat := (k :: l.filter (· ≠ k)).take 256

/-- Blocks of 64 KiB that a DEVICE or PLACED range holds, by device physical block number. -/
def Range.blocks (r : Range) : List Nat :=
  if !r.valid then [] else
  match r.kind with
  | .device => addrs (r.target / 65536) (r.len / 65536)
  | .placed => (List.range (r.len / 65536)).map (fun j => r.phys (j * 65536) / 65536)
  | _ => []

/-- R385: whether a committed decoder's span covers a block. -/
def Hdm.covers (h : Hdm) (blk : Nat) : Bool :=
  h.committed && decide (h.base < (blk + 1) * 65536) && decide (blk * 65536 < h.base + h.size)

/-- Whether a range is mapped to the host (R385). -/
def State.mapped (s : State) (r : Range) : Bool :=
  r.blocks.any (fun b => s.host.hdm.any (fun h => h.covers b))

/-- Whether a placement move of a range is in progress. -/
def State.moving (s : State) (c i : Nat) : Bool :=
  s.ple.moves.any (fun m => decide (m.ctx = c) && decide (m.range = i) && m.started)

end Sys2Proof.Machine
end

