-- ==== Sys2Proof/Machine/QueueOps.lean ====
section
/-!
DEFINITION. Descriptors and queues: the status a descriptor reports (R13), ending one (R394, R402), completion records
(Table 6 of 14), and queue states (R403, Table 7 and Table 8 of 14).
-/
namespace Sys2Proof.Machine

/-! ## Statuses (Table 3 of 00) -/

def stOk : Nat := 0
def stCancelled : Nat := 1
def stPoison : Nat := 2
def stXlate : Nat := 3
def stPerm : Nat := 4
def stStale : Nat := 5
def stHeld : Nat := 6
def stLink : Nat := 7
def stTwin : Nat := 8
def stTest : Nat := 9
def stLimit : Nat := 0xA

/-- The order of R13. -/
def statusOrder : List Nat := [6, 2, 8, 7, 3, 4, 5, 9, 0xA, 1]

/-- R13: the first applicable status; OK when none applies. -/
def pickStatus (marks : List Nat) : Nat := (statusOrder.find? (fun c => marks.contains c)).getD stOk

/-- Descriptor types (Table 4 of 14). -/
def tyKernel : Nat := 1
def tyChain : Nat := 2
def tyCopy : Nat := 3
def tyCollective : Nat := 4
def tyPhase : Nat := 5
def tyFence : Nat := 6
def tyWait : Nat := 7
def tySignal : Nat := 8
def tyCheckpoint : Nat := 9
def tyTimer : Nat := 0xA

/-- Header fields of a descriptor. -/
def Desc.type (d : Desc) : Nat := leAt d.raw 0 1
def Desc.async (d : Desc) : Bool := bit (leAt d.raw 1 1) 0
def Desc.irq (d : Desc) : Bool := bit (leAt d.raw 1 1) 1
def Desc.tag (d : Desc) : Nat := leAt d.raw 8 8

/-! ## Queues and descriptors -/

def State.queue (s : State) (q : Nat) : Queue := Tab.get Queue.none s.qmg.queues q

def State.updQueue (s : State) (q : Nat) (f : Queue → Queue) : State :=
  { s with qmg := { s.qmg with queues := Tab.upd Queue.none s.qmg.queues q f } }

def State.desc? (s : State) (id : Nat) : Option Desc := s.qmg.descs.find? (fun d => decide (d.id = id))

def State.updDesc (s : State) (id : Nat) (f : Desc → Desc) : State :=
  { s with qmg := { s.qmg with descs := s.qmg.descs.map (fun d => if d.id = id then f d else d) } }

/-- Descriptors of a queue that are in flight (Table 7 of 14), oldest first. -/
def State.inflight (s : State) (q : Nat) : List Desc := s.qmg.descs.filter (fun d => decide (d.queue = q))

/-- Adds an applicable status to a descriptor. -/
def State.markDesc (s : State) (id st : Nat) : State :=
  s.updDesc id (fun d => { d with marks := if st = stOk then d.marks else d.marks ++ [st] })

/-- Frees the countdown timer a descriptor holds (R400). -/
def State.freeTimer (s : State) (id : Nat) : State :=
  { s with pcm := { s.pcm with timers := s.pcm.timers.map (fun t =>
      if t.held = some id then { t with held := none, due := none } else t) } }

/-- R463: a context has completed a CHECKPOINT or PHASE: cores due for a patrol test note it. -/
def State.noteSaved (s : State) (ctx : Nat) : State :=
  { s with flt := { s.flt with patrol := s.flt.patrol.map (fun (p : Patrol) =>
      if p.due then { p with saved := ctx :: p.saved } else p) } }

/-- Ends a descriptor with a status, unless R13 chooses another that applies; its record is written later. -/
def State.endDesc (s : State) (id st : Nat) : State :=
  match s.desc? id with
  | none => s
  | some d =>
    if d.st = .ended then s
    else
      let s1 := (s.leave (.desc id)).freeTimer id
      let s2 := s1.updDesc id (fun d =>
        { d with st := .ended, waiting := false, status := pickStatus (d.marks ++ (if st = stOk then [] else [st])) })
      let s3 := { s2 with qmg := { s2.qmg with ended := s2.qmg.ended ++ [id] } }
      if (d.type = tyCheckpoint ∨ d.type = tyPhase) ∧ st = stOk ∧ d.marks = [] then s3.noteSaved d.ctx else s3

/-- Ends a descriptor and gives its DETAIL. -/
def State.endDescWith (s : State) (id st : Nat) (detail : Word) : State :=
  (s.updDesc id (fun d => if d.st = .ended then d else { d with detail := detail })).endDesc id st

/-- R13: a descriptor has done all of its work: an abort that came before applies to it no more. -/
def State.finishDesc (s : State) (id : Nat) (detail : Word) : State :=
  (s.updDesc id (fun d => { d with marks := d.marks.filter (· ≠ stCancelled) })).endDescWith id stOk detail

/-- R403: CLOSING and ABORTING become CLOSED when nothing of the queue is in flight. -/
def State.settleQueue (s : State) (q : Nat) : State :=
  if (s.inflight q).isEmpty then
    s.updQueue q (fun x => if x.st = .closing ∨ x.st = .aborting then { x with st := .closed } else x)
  else s

/-- Removes a descriptor. -/
def State.dropDesc (s : State) (id : Nat) : State :=
  { s with qmg := { s.qmg with
      descs := s.qmg.descs.filter (fun d => decide (d.id ≠ id))
      ended := s.qmg.ended.filter (· ≠ id) } }

/-- Table 6 of 14: the completion record of an ended descriptor. -/
def Desc.record (d : Desc) (phase : Bool) : List Byte :=
  leBytes 8 d.tag ++ leBytes 4 d.queue ++ leBytes 2 d.index ++ leBytes 1 d.type ++ leBytes 1 d.status
    ++ leBytes 8 d.detail.toNat ++ leBytes 1 (bnat phase) ++ zeros 7

/-- Records the host has not passed with CQ_HEAD. -/
def Queue.cqUsed (q : Queue) : Nat := (q.cqTail + 2 ^ q.log2 - q.cqHead) % 2 ^ q.log2

/-- R394: writes the record of an ended descriptor into the completion ring, and raises its vector (R388). -/
def State.writeRecord (s : State) (d : Desc) : State :=
  let q := s.queue d.queue
  let s1 := { s with host := { s.host with
    mem := s.host.mem.writeBytes (q.cqBase + 32 * q.cqTail) (d.record q.phase) } }
  let s2 := s1.updQueue d.queue (fun x =>
    { x with
      cqTail := (x.cqTail + 1) % 2 ^ x.log2
      phase := if x.cqTail + 1 = 2 ^ x.log2 then !x.phase else x.phase })
  let s3 := if d.irq then s2.raise q.vector else s2
  (s3.dropDesc d.id).settleQueue d.queue

/-- R394: whether the completion ring of a queue has room. -/
def Queue.cqRoom (q : Queue) : Bool := decide (q.cqUsed < 2 ^ q.log2 - 1)

/-- Bytes of a descriptor's operand at an offset, as a number. -/
def Desc.fld (d : Desc) (o n : Nat) : Nat := leAt d.raw o n

/-- Occupied slots of a queue (R392): those the doorbell covers whose records are not written. -/
def State.occupied (s : State) (q : Nat) : Nat :=
  let x := s.queue q
  (x.tail + 2 ^ x.log2 - x.head) % 2 ^ x.log2 + (s.inflight q).length

/-- Table 8 of 14: applies CLOSE; the cancellation that ABORT adds is Machine/Contain.lean's. -/
def Queue.closeAs (x : Queue) (st : QState) : Queue := { x with st := st }

/-- R395, R424: whether a COLLECTIVE's body holds only values of Table 5 of 15, what its group decides apart. -/
def collBodyOk (r : List Byte) : Bool :=
  let op := leAt r 0x29 1
  decide (1 ≤ leAt r 0x20 8) && decide (leAt r 0x20 8 ≤ 2 ^ 32) && decide (leAt r 0x28 1 < 64) && decide (op < 5)
    && [0, 1, 2, 10].contains (leAt r 0x2A 1) && decide (leAt r 0x2B 1 < 3)
    && (decide (op ≠ 2 ∧ op ≠ 4) || decide (leAt r 0x2B 1 = 0)) && decide (leAt r 0x2C 1 < 2)
    && decide (bits (leAt r 0x2D 1) 6 1 = 0) && (decide (op = 0) || decide (leAt r 0x2E 2 = 0))
    && decide (leAt r 0x34 2 < 4096) && decide (leAt r 0x38 8 = 0)

/-- R395: whether a descriptor's header and body hold only values of Table 4 and Table 5 of 14. A COLLECTIVE's ROOT and DST
depend on its group and are judged when it starts. -/
def descOk (r : List Byte) : Bool :=
  let ty := leAt r 0 1
  let z := fun (o n : Nat) => decide (leAt r o n = 0)
  let hint := decide (leAt r 0x23 1 < 4)
  decide (1 ≤ ty) && decide (ty ≤ 0xA) && decide (leAt r 1 1 < 4) && z 2 6
    && (match ty with
      | 1 => z 0x18 40
      | 2 => !z 0x10 8 && decide (leAt r 0x18 8 % 64 = 0) && !z 0x20 2 && decide (leAt r 0x22 1 < 2) && hint
          && decide (leAt r 0x24 2 ≤ 64) && z 0x26 26
      | 4 => collBodyOk r
      | 3 => !z 0x20 8 && decide (leAt r 0x20 8 ≤ 2 ^ 39) && z 0x28 24
      | 5 => z 0x18 40
      | 6 => z 0x10 48
      | 7 => decide (leAt r 0x10 8 % 8 = 0) && decide (leAt r 0x20 1 < 3) && z 0x21 31
      | 8 => decide (leAt r 0x10 8 % 8 = 0) && decide (leAt r 0x20 1 < 2) && z 0x21 31
      | 9 => !z 0x18 8 && z 0x20 32
      | 10 => !z 0x10 4 && z 0x14 44
      | _ => true)

end Sys2Proof.Machine
end

