-- ==== Sys2Proof/Machine/BoundOps.lean ====
section
/-!
DEFINITION. Cores, the machines that hold them, and the placement boundary (R310): failed cores are removed (R33, R461),
spares stand in (R40), and due patrol tests begin (R463, R464).
-/
namespace Sys2Proof.Machine

/-- The machine that holds a core. -/
def State.vmOf (s : State) (n : Nat) : Option VecMachine := s.ple.vms.find? (fun m => m.members.contains n)

/-- The lead of the machine that holds a core: itself unless it is a parked partner. -/
def State.leadOf (s : State) (n : Nat) : Nat :=
  match s.vmOf n with
  | some m => m.members.headD n
  | none => n

/-- Cores of a machine, or the core alone. -/
def State.machineOf (s : State) (n : Nat) : List Nat :=
  match s.vmOf n with
  | some m => m.members
  | none => [n]

/-- Whether a core is fit for service: its bit of GID.CORE_AVAIL (Table 10 of 01). -/
def State.fit (s : State) (n : Nat) : Bool := s.dev.coreAvail.getLsbD n

/-- Sets or clears a core's bit of GID.CORE_AVAIL. -/
def State.setFit (s : State) (n : Nat) (b : Bool) : State :=
  let m : BitVec 64 := BitVec.ofNat 64 (2 ^ n)
  { s with dev := { s.dev with coreAvail := if b then s.dev.coreAvail ||| m else s.dev.coreAvail &&& ~~~m } }

/-- Gang size of a core's cluster in the image in force. -/
def State.gangOf (s : State) (n : Nat) : Nat := match s.sim.image with | some i => i.gang.getD (n / 8) 1 | none => 1

/-- R40: whether spare k may stand in for core n: in its cluster, or in the same half between clusters of gang size 1. -/
def State.maySub (s : State) (n k : Nat) : Bool :=
  decide (n / 8 = k / 8) || (decide (s.gangOf n = 1) && decide (s.gangOf k = 1) && decide (n / 32 = k / 32))

/-- R422: raises the role generation of a core. -/
def State.raiseGen (s : State) (n : Nat) : State := { s with cle := { s.cle with coreGen := modAt s.cle.coreGen n (· + 1) } }

/-- The gang role and members of every core of a machine. -/
def State.placeVm (s : State) (members : List Nat) : State :=
  members.foldl (fun t k => t.updCore k (fun c => { c with
    gangRole := if members.length = 1 then 0 else if members.head? = some k then 1 else 2
    members := members
    spare := false })) s

/-- R40, R464: the fit spare that would stand in for a core of a machine, its own cluster's first. -/
def State.spareFor (s : State) (n : Nat) : Option Nat :=
  let ok := fun (k : Nat) => (s.core k).spare && s.fit k && s.maySub n k
  ((addrs (n / 8 * 8) 8).find? ok).orElse (fun _ => (List.range 64).find? ok)

/-- Puts a machine among others in ascending order of lead core (11, Core assignment and spares). -/
def vmIns (m : VecMachine) : List VecMachine → List VecMachine
  | [] => [m]
  | x :: r => if m.members.headD 64 < x.members.headD 64 then m :: x :: r else x :: vmIns m r

/-- Fixed placement tables go on naming a machine whose lead has changed (R318; notes/assumptions/116.md). -/
def Grid.renamed (g : Grid) (old new : Nat) : Grid :=
  { g with fixed := g.fixed.map (fun b => if b.toNat = old then BitVec.ofNat 8 new else b) }

/-- R310, R40: a fit spare stands in for core n, which holds no cell: the lowest-numbered spare of its own cluster first.
The members ascend from the lowest, the lead, and the machines by their leads. The substitution counts in PLE.SWAPS, and
both cores' role generations rise. -/
def State.standIn (s : State) (n : Nat) : State :=
  match s.vmOf n with
  | none => s.updCore n (fun c => { c with spare := false })
  | some m =>
    match s.spareFor n with
    | none => s
    | some k =>
      let ms := (k :: m.members.filter (· ≠ n)).foldl nsIns []
      let s1 : State := { s with ple := { s.ple with
        swaps := s.ple.swaps + 1
        grids := s.ple.grids.map (fun g => g.renamed (m.members.headD 64) (ms.headD 64))
        vms := vmIns { m with members := ms } (s.ple.vms.filter (fun (x : VecMachine) => decide (x.members ≠ m.members))) } }
      let s2 := ((s1.placeVm ms).raiseGen n).raiseGen k
      s2.updCore n (fun c => { c with gangRole := 0, members := [], spare := false })

/-- Whether a core's machine runs no cell: a placement boundary of the core (R310). -/
def State.atBoundary (s : State) (n : Nat) : Bool := match s.vmOf n with | some m => !m.busy | none => true

/-- A CORE record for a change of GID.CORE_AVAIL (R33): recoverable when the core is lost, else informational. -/
def coreRecord (n sev : Nat) : LogRec := (LogRec.mk0 0xA sev 0x10 1).withIndex n

/-- R33, R461: a core marked failed loses its bit at a placement boundary, and a spare stands in where one is fit. -/
def State.removeFailed (s : State) (n : Nat) : State :=
  if s.pcm.failed.getLsbD n && s.fit n && s.atBoundary n then ((s.setFit n false).standIn n).post (coreRecord n sevRecoverable) else s

def State.patrol (s : State) (n : Nat) : Patrol := s.flt.patrol.getD n Patrol.reset

def State.updPatrol (s : State) (n : Nat) (f : Patrol → Patrol) : State :=
  { s with flt := { s.flt with patrol := modAt s.flt.patrol n f } }

/-- R462, R463, R471: whether the patrol test of a due core may begin at a boundary. In stage 2 of R457 no spare stands in
for it. -/
def State.patrolReady (s : State) (n : Nat) : Bool :=
  let p := s.patrol n
  p.due && !p.running && s.fit n && decide (s.dev.life = .service) && !s.dev.frost
    && (addrs (n / 8 * 8) 8).all (fun k => !(s.patrol k).running)
    && !(decide (s.flt.recheck.phase ≠ 0) && decide (s.flt.recheck.core = n))
    && p.ran.all (fun c => p.saved.contains c)
    && (decide (s.flt.svpStage < 2) || (s.vmOf n).isNone || (s.spareFor n).isNone)

/-- R464: a patrol test begins: a spare stands in or the machine waits, the core's role generation rises and its bit reads
zero, which a CORE record gives the reason for (R33; notes/assumptions/111.md). -/
def State.patrolBegin (s : State) (n : Nat) : State :=
  if s.patrolReady n && s.atBoundary n then
    let s1 := ((((s.setFit n false).standIn n).raiseGen n).updPatrol n (fun p => { p with running := true, overdue := false })).post
      (coreRecord n sevInfo)
    s1.updCore n (fun c => { c with work := .patrol, ctxValid := false, spare := false })
  else s

/-- R310: what happens at placement boundaries, in ascending core number. -/
def State.boundary (s : State) : State :=
  (List.range 64).foldl (fun t n => (t.removeFailed n).patrolBegin n) s

/-- R463: a context's cell begins on a machine: its due cores note it. -/
def State.patrolRan (s : State) (members : List Nat) (ctx : Nat) : State :=
  members.foldl (fun t n => t.updPatrol n (fun p => if p.due && !p.ran.contains ctx then { p with ran := ctx :: p.ran } else p)) s

end Sys2Proof.Machine
end

