-- ==== Sys2Proof/Machine/GridOps.lean ====
section
/-!
DEFINITION. Grid arithmetic of 11_tiling_and_placement: the grid block (R294, R295 items 1 to 3), bands (R300), the grid
choice (R302, R304), the capacity rule (R303), splits (R304) and the workspace (R306).
-/
namespace Sys2Proof.Machine

/-- R295 item 1: the grid block's own values. -/
def gridBlockOk (r : List Byte) : Bool :=
  let kind := leAt r 0 1
  let ks := leAt r 1 1
  let gang := leAt r 2 1
  let gm := leAt r 8 2
  let gn := leAt r 0xA 2
  let entry := leAt r 0x10 8
  let work := leAt r 0x20 8
  let common := decide (leAt r 3 1 < 4) && decide (leAt r 4 2 ≤ 64) && decide (leAt r 6 2 = 0)
    && decide (leAt r 0xC 4 = 0) && decide (leAt r 0x38 8 = 0) && decide (gm * gn ≤ 16777215)
  if kind = 1 then
    common && decide (ks = 0) && (decide (gang = 0) || decide (gang = 1) || decide (gang = 2) || decide (gang = 4))
      && decide (1 ≤ gm) && decide (1 ≤ gn) && decide (entry % 4 = 0) && decide (work = 0)
      && decide (leAt r 0x28 8 = 0)
  else if kind = 2 then
    common && decide (1 ≤ ks) && decide (ks ≤ 64) && decide (gang = 0) && decide (entry % 64 = 0)
      && decide (leAt r 0x18 8 = 0)
      && (if 1 < ks then decide (work ≠ 0) && decide (work % 64 = 0)
          else decide (work = 0) && decide (leAt r 0x28 8 = 0))
  else false

/-- R300: unit sizes of the grid: rows and columns. -/
def gridUnits (c : MxOperand) : Nat × Nat :=
  if c.isBx then (max 32 c.blk.1, max 32 c.blk.2) else (32, 32)

/-- R300: band i of `bands` over `units` units: first unit and length. -/
def bandOf (units bands i : Nat) : Nat × Nat :=
  let q := units / bands
  let r := units % bands
  (i * q + min i r, if i < r then q + 1 else q)

/-- R303: whether a grid of GM row bands meets the capacity rule. -/
def gridCapOk (d : MxD) (acc : NumFmt) (gm : Nat) : Bool :=
  let u := gridUnits d.c
  let mtc := ceilDiv (ceilDiv d.m u.1) gm * u.1 / 32
  let cap := tileCap acc d.zcount
  let step := u.2 / 32
  decide (step ≤ cap / mtc / step * step)

/-- R302, R304: the GN that goes with a GM on V machines, 0 where there is none. -/
def gridGn (tn v ks gm : Nat) : Nat := min tn (v / (gm * ks))

/-- R302: whether (gm, gn) is a better choice than (gm', gn'): smaller area, then smaller sum, then smaller GM. -/
def gridBetter (tm tn gm gn gm' gn' : Nat) : Bool :=
  let a := ceilDiv tm gm * ceilDiv tn gn
  let b := ceilDiv tm gm' * ceilDiv tn gn'
  decide (a < b) || (decide (a = b) && (decide (gm + gn < gm' + gn') || (decide (gm + gn = gm' + gn') && decide (gm < gm'))))

/-- R302: the best of GM = 1 .. n. -/
def gridChoose (d : MxD) (acc : NumFmt) (ks v tm tn : Nat) : Nat → Option (Nat × Nat)
  | 0 => none
  | n + 1 =>
    let gm := n + 1
    let gn := gridGn tn v ks gm
    let rest := gridChoose d acc ks v tm tn n
    if gn = 0 ∨ gridCapOk d acc gm = false then rest
    else
      match rest with
      | none => some (gm, gn)
      | some b => if gridBetter tm tn gm gn b.1 b.2 then some (gm, gn) else some b

/-- R302: the grid of a product whose GM and GN are 0, on V machines. -/
def gridAuto (d : MxD) (acc : NumFmt) (ks v : Nat) : Option (Nat × Nat) :=
  let u := gridUnits d.c
  let tm := ceilDiv d.m u.1
  let tn := ceilDiv d.n u.2
  gridChoose d acc ks v tm tn (min v tm)

/-- R304: the K spans of split s: first and past the last. -/
def splitSpans (kc ks s : Nat) : Nat × Nat := (s * kc / ks, (s + 1) * kc / ks)

/-- R306: the offset of partial s of element (m, n) in the workspace. -/
def partialOff (d : MxD) (e s m n : Nat) : Nat := e * ((s * d.m + m) * d.n + n)

end Sys2Proof.Machine
end

