-- ==== Sys2Proof/Machine/CoreOps.lean ====
section
/-!
DEFINITION. Cores and the machines they form: what a core reaches (R364, R469), the counters (R169, R170), the store
buffer (R152), the zeroing of R77, aborts and kills delivered (R164, R256, R292), exceptions (R161, R162) and the end of
a cell (R298, R305).
-/
namespace Sys2Proof.Machine

def State.grid? (s : State) (id : Nat) : Option Grid := s.ple.grids.find? (fun g => decide (g.desc = id))

def State.updGrid (s : State) (id : Nat) (f : Grid → Grid) : State :=
  { s with ple := { s.ple with grids := s.ple.grids.map (fun g => if g.desc = id then f g else g) } }

/-! ## What a core reaches -/

/-- Whether a core's machine runs a cell of a program grid, and so reaches scratchpad handles (Table 2 of 13). -/
def State.reachOf (s : State) (n : Nat) : Reach :=
  let l := s.leadOf n
  match (s.core l).work with
  | .cell g _ =>
    match s.grid? g with
    | some x => if x.kind = .program then .cell (s.machineOf l) else .other
    | none => .other
  | _ => .other

/-- R469: the test context: the pack's block read-execute, the rest of the test area read-write. -/
def packCtx : Ctx :=
  let r := { Range.none with valid := true, kind := .device }
  { Ctx.none with
    live := true
    ranges := [(0, { r with vbase := 0x100000000, len := 0x10000, target := 0x1000000, perm := 5 }),
      (1, { r with vbase := 0x200000000, len := 0x3FFF0000, target := 0x1010000, perm := 3 })] }

/-- The ranges that a core's units translate under. -/
def State.coreCtx (s : State) (n : Nat) : Ctx :=
  let c := s.core (s.leadOf n)
  if c.work = .pack then packCtx else s.ctx c.ctx

/-- Translates bytes for a core. -/
def State.coreXlate (s : State) (n : Nat) (need : Need) (vas : List Nat) : XRes (List Nat) :=
  (s.coreCtx n).span (s.reachOf n) need vas

/-- Physical addresses of bytes that a unit of a core uses under a check it has passed (R240, R371); none when it would
fail. -/
def State.heldPas (s : State) (n : Nat) (need : Need) (vas : List Nat) : List Nat :=
  match (s.coreCtx n).held.span (s.reachOf n) need vas with
  | .ok pas => pas
  | _ => []

/-! ## Counters and store buffer -/

/-- Adds to counter i of a core. -/
def Core.count (c : Core) (i k : Nat) : Core := { c with pmc := modAt c.pmc i (· + BitVec.ofNat 64 k) }

/-- R170, R409: adds the counters into the served context's totals and zeroes them. -/
def State.addTotals (s : State) (n : Nat) : State :=
  let c := s.core n
  let s1 := if c.ctxValid && (s.ctx c.ctx).live then
      s.updCtx c.ctx (fun x => { x with totals := (List.range 16).map (fun i => x.totals.getD i 0 + c.pmc.getD i 0) })
    else s
  s1.updCore n (fun x => { x with pmc := List.replicate 16 0 })

/-- R152, R334: drains the oldest k entries of the store buffer: each takes its line alone, and stays while the host holds
it. A poisoned value marks the sectors it is written to (R340, R446). -/
def State.drain (s : State) (n : Nat) : Nat → State
  | 0 => s
  | k + 1 =>
    match (s.core n).sb with
    | [] => s
    | e :: r =>
      let pas := e.cells.map (·.1)
      s.whenRecalled (s.coreWaits pas) (fun t =>
        State.drain ((((t.scalarWrite n pas).store e.cells).mark (if e.poison then pas else [])).updCore n
          (fun c => { c with sb := r })) n k)

/-- Drains the whole store buffer, as far as the host's copies let it. -/
def State.drainAll (s : State) (n : Nat) : State := s.drain n (s.core n).sb.length

/-- R152, R334: work that follows the last store of the buffer: the buffer drains, and the work waits until it is empty. -/
def State.whenDrained (s : State) (n : Nat) (k : State → State) : State :=
  let t := s.drainAll n
  if (t.core n).sb.isEmpty then k t else t

/-! ## Engines: DMA bytes and aborts -/

/-- The byte pairs of a DMA in order: virtual address and scratchpad offset. -/
def DmaD.pairs (d : DmaD) : List (Nat × Nat) :=
  (List.range d.rows).flatMap (fun r => (List.range d.rowBytes).map (fun k =>
    ((d.vaddr + r * d.vpitch + k) % 2 ^ 64, d.spoff + r * d.spitch + k)))

/-- The physical bytes that the first k bytes of a DMA move between, source first. -/
def State.dmaPas (s : State) (n : Nat) (d : DmaD) (k : Nat) : List (Nat × Nat) :=
  let ps := d.pairs.take k
  let pas := s.heldPas n (if d.toDram then .write else .read) (ps.map (·.1))
  let sp := ps.map (fun p => spadBase n + p.2)
  if d.toDram then sp.zip pas else pas.zip sp

/-- Moves the first k bytes of a DMA, poison marks with them (R284, R329, R340). -/
def State.dmaMove (s : State) (n : Nat) (d : DmaD) (k : Nat) : State := s.unitMove .stream (s.dmaPas n d k)

/-- R292: a busy DMA stops once the granules that it has issued complete; how many those are is free. -/
def State.dmaStop (s : State) (n : Nat) (raw : List Byte) : State :=
  let d := DmaD.parse raw
  let len := d.rows * d.rowBytes
  ((s.dmaMove n d (s.freeWord.toNat % (ceilDiv len 256 + 1) * 256)).drawn)

/-- R292: the engine's own state after an abort: program memory, faults, flags and counters stay. -/
def Sce.aborted (e : Sce) : Sce :=
  { Sce.reset with
    pm := e.pm
    pmPoison := e.pmPoison
    pair := false
    close := e.close
    flags := e.flags
    faultPc := e.faultPc
    faultX := e.faultX
    fault := e.fault
    nChains := e.nChains
    nBeats := e.nBeats
    nStall := e.nStall
    nUnder := e.nUnder
    nextChain := e.nextChain }

/-- Whether an engine has nothing to stop. -/
def Sce.idle (e : Sce) : Bool := decide (e.run = .idle) && e.chains.isEmpty && e.tags.all (·.isNone) && e.held.isNone

/-- R292: aborts engine e of core n. -/
def State.abortEngine (s : State) (n e : Nat) : State :=
  let x := (s.core n).sce.getD e Sce.reset
  let s1 := x.tags.foldl (fun t tg => match tg with | some raw => t.dmaStop n raw | none => t) s
  (s1.leave (.engine n e)).updCore n (fun c => { c with sce := modAt c.sce e Sce.aborted })

/-- R256: cancels a matrix unit's accepted descriptors at their boundaries. -/
def Mx.cancel (m : Mx) : Mx := { m with jobs := m.jobs.map (fun j => { j with stop := true }) }

def State.updMx (s : State) (n : Nat) (f : Mx → Mx) : State := s.updCore n (fun c => { c with mx := f c.mx })

/-- POWER.DRIZZLE_LIMIT of the image in force. -/
def State.drizzleLimit (s : State) : Nat := match s.sim.image with | some i => i.drizzle | none => 0

/-- R248: drizzle ends; the cycles it took, at most the limit, are counted on the lead. -/
def State.drizzleEnd (s : State) (n cycles : Nat) : State :=
  if (s.core n).mx.drizzling then
    (s.updMx n (fun m => { m with drizzling := false })).updMx (s.leadOf n)
      (fun m => { m with drizzle := m.drizzle + BitVec.ofNat 64 cycles })
  else s

/-- R248, R249: drizzle ends before its limit; how many cycles it took is free. -/
def State.drizzleCut (s : State) (n : Nat) : State := (s.drizzleEnd n (s.freeWord.toNat % (s.drizzleLimit + 1))).drawn

/-- R249, R256: the matrix unit of a core stops: its drizzle ends and its descriptors are cancelled. -/
def State.stopMx (s : State) (n : Nat) : State := (s.drizzleCut n).updMx n Mx.cancel

/-- Stops the engines and the matrix unit of one core, as an abort or kill delivered to it does (R256, R292). -/
def State.stopUnits (s : State) (n : Nat) : State := ((s.stopMx n).abortEngine n 0).abortEngine n 1

/-- R164: delivers an abort (7) or kill (8) to the machine led by a core that runs a share: its units stop, and the
core takes it at its next instruction boundary. A kill takes the place of an abort that waits. -/
def State.deliver (s : State) (lead cause : Nat) : State :=
  if (s.core lead).work = .none ∨ (s.core lead).work = .patrol then s
  else
    let s1 := (s.machineOf lead).foldl State.stopUnits s
    s1.updCore lead (fun c =>
      match c.deliver with
      | none => { c with deliver := some ⟨cause, 0, 0, 1, none⟩ }
      | some d => if d.cause = 7 then { c with deliver := some ⟨cause, 0, 0, 1, none⟩ } else c)

/-- Delivers an exception that a matrix unit or an engine reports to its core (R255, R289), unless one waits already. -/
def State.deliverExc (s : State) (lead : Nat) (d : Deliver) : State :=
  s.updCore lead (fun c =>
    match c.deliver with
    | none => { c with deliver := some d }
    | some x => if x.cause = 7 then { c with deliver := some d } else c)

/-! ## The zeroing of R77 -/

/-- R77: a core's state zeroed, its island's and image's settings kept: matrix CLOSE and engines' CLOSE stay. -/
def Core.zeroed (c : Core) : Core :=
  { Core.reset with
    gangRole := c.gangRole
    members := c.members
    spare := c.spare
    mx := { Mx.reset with close := c.mx.close }
    sce := c.sce.map (fun e => { Sce.reset with close := e.close }) }

/-- R77, R297: zeroes cores of a machine and their scratchpads before they begin work: their caches are invalidated, dirty
lines written back, and the counters go to the totals. -/
def State.zeroCores (s : State) (ns : List Nat) : State :=
  ns.foldl (fun t n => (((t.emptyCore n true).addTotals n).zeroSpad n).updCore n Core.zeroed) s

/-! ## The end of a cell -/

/-- Work items of a grid. -/
def Grid.total (g : Grid) : Nat := g.gm * g.gn * g.ks

/-- Whether every cell, work item and combine of a grid has ended, or it stops and none runs. -/
def Grid.done (g : Grid) : Bool :=
  g.running.isEmpty && g.combining.isEmpty
    && (g.stopping || (decide (g.ended.length = g.total) && (decide (g.ks ≤ 1) || decide (g.combined.length = g.gm * g.gn))))

/-- R254, R301: the matrix status record: FLAGS, SPILL and UNDERFLOW (Table 8 of 09). -/
def mxStatusRec (flags : Cond) (spill under : Nat) : List Byte :=
  leBytes 1 1 ++ leBytes 1 flags.toNat ++ zeros 2 ++ leBytes 4 spill ++ leBytes 4 under ++ zeros 4

/-- Physical addresses of bytes of a context under ranges that the device has checked before, draining or not (R240,
R371). -/
def State.ctxPas (s : State) (c va len : Nat) : List Nat :=
  match (s.ctx c).held.span .other .write (vAddrs va len) with
  | .ok pas => pas
  | _ => []

/-- Ends pins: their lines may be evicted again unless another pin holds them (R308). -/
def State.unpinBy (s : State) (f : Pin → Bool) : State :=
  let mine := s.ple.pins.filter f
  let rest := s.ple.pins.filter (fun p => !f p)
  let keep := rest.flatMap (·.lines)
  { s with
    ple := { s.ple with pins := rest }
    dram := { s.dram with nsc := (mine.flatMap (·.lines)).foldl (fun t l =>
      if keep.contains l then t else Tab.upd NscLine.none t l (fun x => { x with pinned := false })) s.dram.nsc } }

/-- A grid leaves the placement engine: its pins end, then its descriptor, or a recheck's run. -/
def State.gridEnd (s : State) (g : Grid) : State :=
  let s2 := s.unpinBy (fun p => decide (p.desc = some g.desc))
  let s3 := { s2 with ple := { s2.ple with grids := s2.ple.grids.filter (fun x => decide (x.desc ≠ g.desc)) } }
  if g.desc = 0 then { s3 with flt := { s3.flt with recheck := { s3.flt.recheck with
      ran := some (if g.stopping then s3.flt.recheck.status else stOk) } } }
  else s3.endDescWith g.desc stOk (BitVec.ofNat 64 g.next)

/-- R301: completes a grid whose work has ended: the status record of a product is written first, once the host holds no
copy of its line. The manual gives the record's write no path: it goes as the engines' do (notes/assumptions/109.md). -/
def State.gridDone (s : State) (id : Nat) : State :=
  match s.grid? id with
  | none => s
  | some g =>
    if !g.done then s
    else
      let d := MxD.parse g.mraw
      if decide (g.kind = .product) && !g.stopping && decide (d.status ≠ 0) && decide (id ≠ 0) then
        let pas := s.ctxPas g.ctx d.status 16
        s.whenRecalled (s.writeWaits .stream pas) (fun t =>
          (t.unitStore .stream (pas.zip (mxStatusRec g.flags g.spill g.under))).gridEnd g)
      else s.gridEnd g

/-- Grids whose work has ended, and that waited for the host, complete. -/
def State.gridsDone (s : State) : State := (s.ple.grids.map (·.desc)).foldl State.gridDone s

/-- R298: a cell ended with a status other than OK: no further cell starts, and every running cell gets an abort. -/
def State.gridStop (s : State) (id st : Nat) : State :=
  match s.grid? id with
  | none => s
  | some g =>
    let s1 := if id = 0 then
        { s with flt := { s.flt with recheck := { s.flt.recheck with
          status := if s.flt.recheck.status = 0 then st else pickStatus [s.flt.recheck.status, st] } } }
      else s.markDesc id st
    let s2 := s1.updGrid id (fun x => { x with stopping := true })
    (g.running ++ g.combining).foldl (fun t r => t.deliver r.2 7) s2

/-- Makes the machine of a lead free. -/
def State.freeMachine (s : State) (lead : Nat) : State :=
  { s with ple := { s.ple with vms := s.ple.vms.map (fun m =>
      if m.members.headD 64 = lead then { m with busy := false, ctx := 0, desc := 0 } else m) } }

/-- The window whose partials are complete once a work item has ended (R305). -/
def Grid.windowReady (g : Grid) (item : Nat) : Bool :=
  decide (1 < g.ks) && (List.range g.ks).all (fun k => g.ended.contains (item / g.ks * g.ks + k))

/-- Books the end of a work item or combine in its grid. -/
def Grid.book (g : Grid) (w : Work) (m : Mx) : Grid :=
  let g1 := { g with flags := g.flags ||| m.flags, spill := g.spill + m.spills.toNat, under := g.under + m.underflow.toNat }
  match w with
  | .cell _ i => { g with running := g.running.filter (fun r => decide (r.1 ≠ i)), ended := g.ended ++ [i] }
  | .product _ i =>
    let g2 := { g1 with running := g1.running.filter (fun r => decide (r.1 ≠ i)), ended := g1.ended ++ [i] }
    if g2.windowReady i then { g2 with ready := g2.ready ++ [i / g2.ks] } else g2
  | .combine _ i =>
    { g1 with combining := g1.combining.filter (fun r => decide (r.1 ≠ i)), combined := g1.combined ++ [i] }
  | _ => g

/-- The grid a core works for. -/
def Work.grid? : Work → Option Nat
  | .cell g _ => some g
  | .product g _ => some g
  | .combine g _ => some g
  | .none => Option.none
  | .pack => Option.none
  | .patrol => Option.none

/-- R469: core n's part of a pack run ends: it passes when it halted within RUN_MS and its scratchpad's first 64 KiB have the digest
EXPECT, and is then no longer marked failed (R461). A failing core gets a PACK record, and a vendor pack marks it in the
repair map. -/
def State.packEnd (s : State) (n : Nat) (halted : Bool) : State :=
  match s.svm.packRun with
  | none => s
  | some p =>
    let b : BitVec 64 := BitVec.ofNat 64 (2 ^ n)
    let s1 : State := { s with svm := { s.svm with packRun := some { p with cores := p.cores.filter (· ≠ n) } } }
    if halted && decide (s.now ≤ p.endsAt) && decide (Config.sha3 (s.rdAt (addrs (spadBase n) 65536)) = p.expect) then
      { s1 with
        flt := { s1.flt with testPass := s1.flt.testPass ||| b }
        pcm := { s1.pcm with failed := s1.pcm.failed &&& ~~~b } }
    else
      let s2 : State := { s1 with
        flt := { s1.flt with testFail := s1.flt.testFail ||| b }
        pcm := { s1.pcm with repairMap := if p.vendor then s1.pcm.repairMap ||| b else s1.pcm.repairMap } }
      s2.post ((LogRec.mk0 0xC sevRecoverable (if halted && decide (s.now ≤ p.endsAt) then 1 else 2) 1).withIndex n)

/-- The end of a share whose stores have drained: counters go to the totals, the machine is free, the cell is booked. -/
def State.endShare (s : State) (lead : Nat) : State :=
  let w := (s.core lead).work
  let m := (s.core lead).mx
  let s1 := s.addTotals lead
  let s2 := (s.machineOf lead).foldl (fun t n => t.updCore n (fun c =>
    { c with run := .idle, ctxValid := false, work := .none, deliver := none, ending := false, steward := false }))
    (s1.leave (.core lead))
  match w with
  | .pack => s2.packEnd lead (!(s.core lead).ending)
  | _ =>
    match w.grid? with
    | none => (s2.freeMachine lead).boundary
    | some id => (((s2.freeMachine lead).updGrid id (fun g => g.book w m)).gridDone id).boundary

/-- Whether the matrix units of a machine hold no descriptor. -/
def State.mxClear (s : State) (lead : Nat) : Bool := (s.machineOf lead).all (fun n => (s.core n).mx.jobs.isEmpty)

/-- Ends a share that waits only for matrix work to reach its boundary (R256) and for its stores (R30). -/
def State.tryEnd (s : State) (lead : Nat) : State :=
  if (s.core lead).ending && s.mxClear lead then s.whenDrained lead (fun t => t.endShare lead) else s

/-! ## Exceptions -/

/-- The descriptor a core serves, its queue. -/
def State.queueOfCore (s : State) (n : Nat) : Nat :=
  match s.desc? (s.core n).desc with
  | some d => d.queue
  | none => 0

/-- R161: the registers an exception saves, and entry to Steward level at the monitor's entry for the cause. -/
def Core.enter (c : Core) (cause : Nat) (addr info : Word) : Core :=
  { c with
    xcause := BitVec.ofNat 64 cause
    xpc := c.pc
    xaddr := addr
    xinfo := info
    steward := true
    pc := Config.monitorEntry cause }

/-- The access that XINFO describes. -/
def needOfInfo (info : Word) : Need :=
  if info.getLsbD 9 then .fetch else if info.getLsbD 8 then .write else .read

/-- Table 5 of 16, EXCEPTION: an exception other than poison ended a descriptor. Causes 3 to 5 have an address, and a
permission fault the index of its range (Table 4 of 06). -/
def excRecord (c : Core) (n cause st : Nat) (addr : Word) (queue : Nat) : LogRec :=
  let r := ((((LogRec.mk0 6 sevInfo cause 1).withCtx c.ctx).withIndex n).withStatus st).withQueue queue
  let r1 := if cause = 3 ∨ cause = 4 ∨ cause = 5 then r.withAddr addr.toNat true else r
  if cause = 5 then { r1 with range := c.xinfo.toNat % 64 } else r1

/-- The share of core n ends: with a status other than OK for its descriptor, or as a kill states (st = 0). -/
def State.failShare (s : State) (n st : Nat) : State :=
  let s1 := (s.machineOf n).foldl State.stopUnits s
  let s2 := s1.updCore n (fun c => { c with ending := true, deliver := none })
  let s3 := match (s2.core n).work.grid? with
    | some id => if st = 0 then s2.updGrid id (fun g => { g with stopping := true }) else s2.gridStop id st
    | none => s2
  s3.tryEnd n

/-- R161, R162: core n takes an exception other than poison, and the monitor acts as Table 8 of 06 states. Poison's
action is Machine/Contain.lean's. -/
def State.takeBasic (s : State) (n cause : Nat) (addr info : Word) : State :=
  let s1 := s.updCore n (fun c => { c.enter cause addr info with deliver := none })
  let c := s1.core n
  match cause with
  | 4 => ((s1.postXlate c.ctx addr.toNat (needOfInfo info) (.core n) (s1.queueOfCore n)).updCore n
      (fun x => { x with run := .waiting }))
  | 7 => s1.failShare n stCancelled
  | 8 => s1.failShare n 0
  | _ => (s1.post (excRecord c n cause stPerm addr (s1.queueOfCore n))).failShare n stPerm

end Sys2Proof.Machine
end

