-- ==== Sys2Proof/Machine/FrameOps.lean ====
section
/-!
DEFINITION. Frames at the ports: building them (Tables 3 and 4 of 15), queueing them at a port's egress (R419), and
routing by node (R421). The manual gives no byte layout for a CANCEL, NODE or TWIN_STATE payload: the one here is the
model's (notes/assumptions/20.md).
-/
namespace Sys2Proof.Machine

def State.port (s : State) (p : Nat) : Port := s.ports.getD p Port.reset

def State.updPort (s : State) (p : Nat) (f : Port → Port) : State := { s with ports := modAt s.ports p f }

/-- The role of a port: 0 off, 1 fabric, 2 twin; off when no image is in force (R412). -/
def State.role (s : State) (p : Nat) : Nat :=
  match s.sim.image with
  | some i => i.role.getD p 0
  | none => 0

/-- A fabric port in SERVICE. -/
def State.fabricUp (s : State) (p : Nat) : Bool := decide (s.role p = 1) && decide ((s.port p).st = .service)

/-- Twin ports in SERVICE. -/
def State.twinPorts (s : State) : List Nat :=
  [14, 15].filter (fun p => decide (s.role p = 2) && decide ((s.port p).st = .service))

/-- VLANE of a frame type (Table 4 of 15). -/
def laneOf (type : Nat) : Nat :=
  if type = 2 ∨ type = 3 then 3 else if type = 4 ∨ type = 5 then 4 else if type = 8 then 1 else if type = 9 then 2 else 0

/-- Sectors of a frame's payload. -/
def Frame.sectors (f : Frame) : Nat := ceilDiv f.payload.length 32

/-- A frame of a type, its INFO and its payload, with no poison. -/
def mkFrame (type : Nat) (info payload : List Byte) : Frame :=
  { type := type, vlane := laneOf type, poison := 0, info := (info ++ zeros 16).take 16, payload := payload }

/-- A CTRL frame. -/
def ctrlFrame (op : Nat) (payload : List Byte) : Frame := mkFrame 1 (leBytes 1 op) payload

/-- Queues a frame at a port's egress. -/
def State.enqueue (s : State) (p : Nat) (f : Frame) (of : FrameOf) (fwd : Bool) : State :=
  s.updPort p (fun x => { x with queue := x.queue ++ [{ frame := f, of := of, forwarded := fwd, held := x.close && !fwd && [2, 3, 8, 9].contains f.type, lseq := 0, count := 0 }] })

/-- R453, PORT record. -/
def portRecord (p cause : Nat) : LogRec := (LogRec.mk0 8 sevRecoverable cause 8).withIndex p

/-- The egress port of a node's route entry, when it is valid and a fabric port in SERVICE (R421). -/
def State.routeOf (s : State) (node : Nat) : Option Nat :=
  let e := Tab.get 0 s.cle.route node
  if bit e 7 && s.fabricUp (e % 16) then some (e % 16) else none

/-- R421: sends a frame toward a node, or discards it, counts it in NOROUTE and records it. -/
def State.sendNode (s : State) (node : Nat) (f : Frame) (of : FrameOf) (fwd : Bool) : State :=
  match s.routeOf node with
  | some p => s.enqueue p f of fwd
  | none =>
    ({ s with cle := { s.cle with noroute := s.cle.noroute + 1 } }).post
      (portRecord (Tab.get 0 s.cle.route node % 16) 0x20)

/-- Payload of a CANCEL: destination node, group, SEQ and status. -/
def cancelPayload (node group seq st : Nat) : List Byte :=
  leBytes 2 node ++ leBytes 1 group ++ leBytes 1 st ++ leBytes 4 seq ++ zeros 24

/-- R432: sends a CANCEL to every other rank of a collective. -/
def State.sendCancels (s : State) (c : Coll) (st : Nat) : State :=
  ((c.nodes.zip (List.range c.n)).filter (fun p => decide (p.2 ≠ c.rank))).foldl
    (fun t p => t.sendNode p.1 (ctrlFrame 8 (cancelPayload p.1 c.group c.seq st)) .none false) s

/-- Bytes of an element of a collective's TYPE. -/
def collSize (fmt : Nat) : Nat := if fmt = 0 then 8 else if fmt = 2 then 2 else 4

/-- First element and elements of block j of the array it is cut from (R424, R426). -/
def Coll.blockAt (c : Coll) (j : Nat) : Nat × Nat :=
  if c.op = 0 then (0, c.count)
  else if c.op = 1 then
    let b := ceilDiv c.count c.n
    (j * b, min b (c.count - j * b))
  else if c.op = 2 then (0, c.count)
  else (j * c.count, c.count)

/-- Bytes of an element (Table 5 of 15). -/
def Coll.esz (c : Coll) : Nat := collSize c.fmt

/-- 1,024-byte frames of block j. -/
def Coll.frames (c : Coll) (j : Nat) : Nat := ceilDiv ((c.blockAt j).2 * c.esz) 1024

/-- A collective of a descriptor. -/
def State.collOf (s : State) (id : Nat) : Option Coll := s.cle.colls.find? (fun c => decide (c.desc = id))

def State.dropColl (s : State) (id : Nat) : State :=
  { s with cle := { s.cle with colls := s.cle.colls.filter (fun c => decide (c.desc ≠ id)) } }

/-- DETAIL of a collective (R431): elements written with their final values. -/
def Coll.detail (c : Coll) : Nat := (c.written.map (fun w => w.2.2)).sum

/-- Ends a collective's descriptor with a status (R431, R432); `tell` gives the status of the CANCEL that the other ranks
are sent, when one is sent. -/
def State.endColl (s : State) (id st : Nat) (tell : Option Nat) : State :=
  match s.collOf id with
  | none => s.endDesc id st
  | some c =>
    let s1 := match tell with | some k => s.sendCancels c k | none => s
    (s1.dropColl id).endDescWith id st (BitVec.ofNat 64 c.detail)

end Sys2Proof.Machine
end

