-- ==== Sys2Proof/Machine/Contain.lean ====
section
/-!
DEFINITION. Cancelling descriptors at their boundaries (R405, Table 9 of 14, R442), killing a context (R406, R450, R451),
and the exception of poison (R162).
-/
namespace Sys2Proof.Machine

/-- Stops a KERNEL or CHAIN: no further cell starts, and running cells get an abort (7) or a kill (8). -/
def State.cancelGrid (s : State) (id cause : Nat) : State :=
  match s.grid? id with
  | none => s.endDesc id stOk
  | some g =>
    let s1 := s.updGrid id (fun x => { x with stopping := true })
    ((g.running ++ g.combining).foldl (fun t r => t.deliver r.2 cause) s1).gridDone id

/-- Ends a CHECKPOINT's run. -/
def State.dropCkpt (s : State) (id : Nat) : State :=
  { s with twc := { s.twc with ckpts := s.twc.ckpts.filter (fun c => decide (c.desc ≠ id)) } }

/-- Bytes a CHECKPOINT has mirrored. -/
def State.ckptBytes (s : State) (id : Nat) : Nat :=
  match s.twc.ckpts.find? (fun c => decide (c.desc = id)) with
  | some c => c.acked
  | none => 0

/-- R442: whether a collective stands inside a 64 KiB chunk: some frames of one have come, and others not. -/
def Coll.midChunk (c : Coll) : Bool :=
  c.got.any (fun g =>
    let f0 := g.2.2.2 / 64 * 64
    (addrs f0 (min 64 (c.frames g.2.2.1 - f0))).any (fun f => !c.got.contains (g.1, g.2.1, g.2.2.1, f)))

/-- R405, R406, R442: cancels a descriptor with a status at its boundary; `cause` is what running cells receive. A running
CHECKPOINT or COLLECTIVE goes on to its next chunk boundary. -/
def State.cancelDesc (s : State) (id st cause : Nat) : State :=
  match s.desc? id with
  | none => s
  | some d =>
    if d.st = .ended then s
    else
      let s1 := (s.markDesc id st).updDesc id (fun x => { x with stop := true })
      match d.st with
      | .reading => s1
      | .fetched => s1.endDesc id stOk
      | _ =>
        if d.type = tyKernel ∨ d.type = tyChain then s1.cancelGrid id cause
        else if d.type = tyCopy then (if d.waiting || !d.ready then s1.endDescWith id stOk (BitVec.ofNat 64 d.pos) else s1)
        else if d.type = tyCollective then
          (match s1.collOf id with
          | some c => if c.started && c.midChunk then s1 else s1.endColl id stOk (some stCancelled)
          | none => s1.endDesc id stOk)
        else if d.type = tyCheckpoint then
          (if s1.twc.ckpts.any (fun c => decide (c.desc = id)) then s1 else s1.endDesc id stOk)
        else s1.endDesc id stOk

/-- Cancels descriptors one after another. -/
def State.cancelAll (s : State) (ids : List Nat) (st cause : Nat) : State :=
  ids.foldl (fun t i => t.cancelDesc i st cause) s

/-- R405: aborts a queue. -/
def State.abortQueue (s : State) (q : Nat) : State :=
  ((s.updQueue q (fun x => { x with st := .aborting })).cancelAll ((s.inflight q).map (·.id)) stCancelled 7).settleQueue q

/-- R373: closes a window entry: VALID clears and the generation rises. -/
def WinEntry.closed (e : WinEntry) : WinEntry := { WinEntry.none with gen := e.gen + 1 }

/-- Closes every valid window entry that meets a condition (R372, R451). -/
def State.closeWins (s : State) (p : WinEntry → Bool) : State :=
  let w := Tab.mapAll WinEntry.none s.xlt.win (fun _ e => if e.valid && p e then e.closed else e)
  { s with xlt := { s.xlt with win := w } }

/-- R376, R78: the window table is emptied: every field of every entry but its generation, which is kept. -/
def State.wipeWins (s : State) : State :=
  { s with xlt := { s.xlt with win := Tab.mapAll WinEntry.none s.xlt.win (fun _ e => { WinEntry.none with gen := e.gen }) } }

/-- R85: a record's data bytes, only while TELE.FAULT_DATA of the image in force is 1. -/
def State.faultData (s : State) : Bool := match s.sim.image with | some i => i.faultData | none => false

/-- The bytes of a sector for a record. -/
def State.sectorData (s : State) (k : Nat) : List Byte := s.rdAt (addrs (32 * k) 32)

/-- Adds a sector's data to a record when R85 lets it. -/
def State.recSector (s : State) (r : LogRec) (sector : Option Nat) : LogRec :=
  match sector with
  | none => r
  | some k => if s.faultData then (r.withAddr (32 * k) false).withData (s.sectorData k) else r.withAddr (32 * k) false

/-- R460, R472: a recheck ends with a verdict; the device writes a CORE record. -/
def State.endRecheck (s : State) (verdict st : Nat) : State :=
  let r := s.flt.recheck
  if r.phase = 0 then s
  else
    let s1 := { s with flt := { s.flt with recheck := { r with
      phase := 0
      verdict := verdict
      status := if verdict = 4 then st else 0
      ran := none } } }
    s1.post (((LogRec.mk0 0xA (if verdict = 3 then sevRecoverable else sevInfo) verdict 1).withIndex r.core).withCtx r.ctx)

/-- R450, R451: kills a context with a status: its queues are DEAD, its descriptors stop at their boundaries, every core
serving it gets a kill, its windows close, and a recheck of it fails. -/
def State.killCtx (s : State) (c st : Nat) : State :=
  if !(s.ctx c).live || (s.ctx c).killed then s
  else
    let s1 := s.updCtx c (fun x => { x with killed := true })
    let qs := (s1.qmg.queues.filter (fun e => decide (e.2.ctx = c) && decide (e.2.st ≠ .absent))).map (·.1)
    let s2 := qs.foldl (fun t q => t.updQueue q (fun x => { x with st := .dead })) s1
    let ids := (s2.qmg.descs.filter (fun d => decide (d.ctx = c))).map (·.id)
    let s3 := s2.cancelAll ids st 8
    let leads := (List.range 64).filter (fun n => (s3.core n).ctxValid && decide ((s3.core n).ctx = c)
      && decide ((s3.core n).work ≠ .none))
    let s4 := leads.foldl (fun t n => t.deliver n 8) s3
    let s5 := s4.closeWins (fun e => decide (e.ctx = c))
    if s5.flt.recheck.phase ≠ 0 ∧ s5.flt.recheck.ctx = c then
      (s5.updGrid 0 (fun g => { g with stopping := true })).endRecheck 4 st
    else s5

/-- Step 5 of Table 3 of 16: the CONSUMED record. -/
def State.consumedRec (s : State) (c unit index cause queue : Nat) (sector : Option Nat) : LogRec :=
  s.recSector (((((LogRec.mk0 4 sevRecoverable cause unit).withCtx c).withIndex index).withStatus stPoison).withQueue queue)
    sector

/-- R449, R450: a unit consumes poison for a context: the context is killed with POISON_CONSUMED and a CONSUMED record
is written, also when the context was killed before (Table 10 of 16). -/
def State.consume (s : State) (c unit index cause queue : Nat) (sector : Option Nat) : State :=
  (s.killCtx c stPoison).post (s.consumedRec c unit index cause queue sector)

/-! ## Range translation buffers -/

/-- R365: a miss is counted and reads the range's entry of the table. -/
def State.tableRead (s : State) (c i : Nat) : State :=
  { s with xlt := { s.xlt with rtbMiss := s.xlt.rtbMiss + 1 } }.unitRead .table (addrs (32 * (64 * c + i)) 32)

/-- R365, R366: a translation uses a range's entry in a buffer: a held entry becomes the most recently used; a miss is
counted and reads the range table, whose poison is consumed. -/
def State.rtbUse (s : State) (buf c i : Nat) : State :=
  let k := c * 64 + i
  let put := fun (t : State) => { t with xlt := { t.xlt with rtb := modAt t.xlt.rtb buf (fun l => rtbPut l k) } }
  if (s.xlt.rtb.getD buf []).contains k then put s
  else
    let s1 := s.tableRead c i
    if s1.bad (32 * (64 * c + i)) then s1.consume c 0xC 0xFF 0 0 (some (64 * c + i)) else put s1

/-- Ranges that hold some of a set of virtual addresses. -/
def Ctx.rangesAt (x : Ctx) (vas : List Nat) : List Nat := (vas.filterMap (fun a => (x.at_ a).map (·.1))).eraseDups

/-- R365: the entries of an access's ranges are used. -/
def State.useRanges (s : State) (buf c : Nat) (vas : List Nat) : State :=
  ((s.ctx c).rangesAt vas).foldl (fun t i => t.rtbUse buf c i) s

/-- R365: work that goes on through the ranges of an access: their entries are used, and where a table read is poisoned
its context is killed in place of the work. -/
def State.withRanges (s : State) (buf c : Nat) (vas : List Nat) (k : State → State) : State :=
  let t := s.useRanges buf c vas
  if (t.ctx c).killed && !(s.ctx c).killed then t else k t

/-- The buffer of the translation unit; a core's is that of its cluster (R365). -/
def unitRtb : Nat := 8

/-- R161, R162: core n takes an exception, and the monitor acts as Table 8 of 06 states. For cause 6 the share ends with
POISON_CONSUMED and the context is killed. `unit` consumed the poison that
`sector` held. -/
def State.takeExc (s : State) (n cause : Nat) (addr info : Word) (unit : Nat) (sector : Option Nat) : State :=
  if cause = 6 then
    let c := s.core n
    let s1 := s.updCore n (fun c => { c.enter 6 addr info with deliver := none })
    let s2 := if c.work = .pack then s1 else s1.consume c.ctx unit n 6 (s1.queueOfCore n) sector
    s2.failShare n 0
  else s.takeBasic n cause addr info

end Sys2Proof.Machine
end

