-- ==== Sys2Proof/Machine/Alloc.lean ====
section
/-!
DEFINITION. The placement engine's choice of blocks: which blocks are assigned (R361, R390, R428), which sets may take a
class (R323, R325), the home of a range (R311) and its segments (R363). Among sets that serve, the engine here takes one
that already has the class and home before one it must change, and the lowest-numbered first (notes/assumptions/21.md).
-/
namespace Sys2Proof.Machine

/-- An interval of 64 KiB blocks: first and count. -/
abbrev Blocks := Nat × Nat

/-- The segments of n blocks from their bases: 256 blocks each but the last (R363). -/
def segBlocks : List Nat → Nat → List Blocks
  | [], _ => []
  | b :: r, n => (b / 65536, min n 256) :: segBlocks r (n - 256)

/-- The intervals a range holds. -/
def Range.spans (r : Range) : List Blocks :=
  if !r.valid then [] else
  match r.kind with
  | .device => [(r.target / 65536, r.len / 65536)]
  | .placed => segBlocks r.segs (r.len / 65536)
  | _ => []

/-- The length in blocks of the range a move copies. -/
def State.moveLen (s : State) (m : Move) : Nat := ((s.ctx m.ctx).range m.range).len / 65536

/-- Every assigned interval: ranges, moves under way, the queue backing store (R390), the collective staging area (R428)
and the mirror reserve. -/
def State.assigned (s : State) : List Blocks :=
  s.ctxs.flatMap (fun c => c.2.ranges.flatMap (fun r => r.2.spans))
    ++ s.ple.moves.flatMap (fun m => segBlocks m.newSegs (s.moveLen m))
    ++ (match s.xlt.creating with | some (_, _, r) => r.spans | none => [])
    ++ [(s.qmg.store, s.qmg.storeBlocks), (s.twc.reserve, s.twc.reserveBlocks),
        (s.cle.stage, if s.cle.stage = 0 then 0 else 4096)]

/-- Whether two intervals share a block. -/
def Blocks.meet (a b : Blocks) : Bool := decide (a.1 < b.1 + b.2) && decide (b.1 < a.1 + a.2)

/-- Whether an interval is free among assigned ones. -/
def freeRun (as : List Blocks) (r : Blocks) : Bool := as.all (fun a => !a.meet r)

/-- Sets the engine assigns from: not set 0, present, and not retiring (R351, R354, R362). -/
def State.setsOpen (s : State) : Nat := if s.excl.retiring || s.excl.inForce.isSome then 32640 else 32768

/-- The blocks that must be unassigned before a set takes a class (R325); none when no change is needed. -/
def Dram.changeSpan (m : Dram) (set cls : Nat) : Option Blocks :=
  let cur := m.classOf set
  if cur = cls then none
  else if cur = 2 ∨ cls = 2 then some (set / 8 * 8 * 256, 2048)
  else if cur = 1 ∨ cls = 1 then some (set / 2 * 2 * 256, 512)
  else some (set * 256, 256)

/-- R323: sets a set's class: its group and pair change with it. -/
def Dram.setClass (m : Dram) (set cls : Nat) : Dram :=
  let cur := m.classOf set
  if cur = cls then m
  else
    let m1 := if cur = 2 then { m with stackGroups := nsDel m.stackGroups (set / 8) } else m
    let m2 := if cur = 1 then { m1 with halfPairs := nsDel m1.halfPairs (set / 2) } else m1
    let m3 := if cur = 3 then { m2 with class3 := nsDel m2.class3 set } else m2
    match cls with
    | 1 => { m3 with
        halfPairs := nsIns m3.halfPairs (set / 2)
        class3 := nsDelRange m3.class3 (set / 2 * 2) 2 }
    | 2 => { m3 with
        stackGroups := nsIns m3.stackGroups (set / 8)
        class3 := nsDelRange m3.class3 (set / 8 * 8) 8
        halfPairs := nsDelRange m3.halfPairs (set / 8 * 4) 4 }
    | 3 => { m3 with class3 := nsIns m3.class3 set }
    | _ => m3

/-- The class changes of the sets that segments lie in. -/
def Dram.setClasses (m : Dram) (segs : List Nat) (cls : Nat) : Dram :=
  segs.foldl (fun (d : Dram) b => d.setClass (b / 2 ^ 24) cls) m

/-- Segments that wait for a zero-fill or for their move to start, with their class: the changes of sets that they need
have not taken effect (R325). -/
def State.planSegs (s : State) : List (List Nat × Nat) :=
  (match s.xlt.creating with | some (_, _, r) => if r.kind = .placed then [(r.segs, r.cls)] else [] | none => [])
    ++ (s.ple.moves.filter (fun m => !m.started)).map (fun m => (m.newSegs, m.cls))

/-- The DRAM's configuration once every planned change has taken effect. -/
def State.planned (s : State) : Dram := s.planSegs.foldl (fun m p => m.setClasses p.1 p.2) s.dram

/-- R325: blocks of sets whose class is to change: no unit takes them that has no part in the change. -/
def State.pendingSpans (s : State) : List Blocks :=
  s.planSegs.flatMap (fun p => p.1.filterMap (fun b => s.dram.changeSpan (b / 2 ^ 24) p.2))

/-- Whether a set has the home: its half for class 1, its stack for class 2 (R323). -/
def homeOk (set cls home : Nat) : Bool :=
  if cls = 1 then decide (set % 2 = home) else if cls = 2 then decide (set % 8 = home) else true

/-- Whether a set can serve a class and home, now or after a change. -/
def setServes (m : Dram) (as : List Blocks) (set cls home : Nat) : Bool :=
  homeOk set cls home && (match m.changeSpan set cls with | none => true | some b => freeRun as b)

/-- The first of n blocks from b at which a run of `len` free blocks begins. -/
def runFrom (as : List Blocks) (b len : Nat) : Nat → Option Nat
  | 0 => none
  | n + 1 => if freeRun as (b, len) then some b else runFrom as (b + 1) len n

/-- A free run of `len` blocks within a set. -/
def runIn (as : List Blocks) (set len : Nat) : Option Nat := runFrom as (set * 256) len (257 - len)

/-- The run of `len` blocks for a class and home: first in a set that has the class, then in one it can change. -/
def findRun (m : Dram) (as : List Blocks) (cls home len : Nat) (sets : List Nat) : Option Nat :=
  let ok := fun (keep : Bool) (x : Nat) => setServes m as x cls home && (decide (m.classOf x = cls) == keep)
  let try_ := fun (keep : Bool) =>
    (sets.find? (fun x => ok keep x && (runIn as x len).isSome)).bind (fun x => runIn as x len)
  (try_ true).orElse (fun _ => try_ false)

/-- Free blocks of a class and home, as R311 counts them. -/
def freeCount (m : Dram) (as : List Blocks) (cls home : Nat) (sets : List Nat) : Nat :=
  (sets.map (fun x =>
    if setServes m as x cls home then
      ((addrs (x * 256) 256).filter (fun b => freeRun as (b, 1))).length else 0)).sum

/-- The best home of n, by most free blocks, ties to the lowest (R311). -/
def bestHome (f : Nat → Nat) : Nat → Nat
  | 0 => 0
  | n + 1 => if f (bestHome f n) < f n then n else bestHome f n

/-- R311: the home of a new placement: HOME when it names one, else the engine's choice. Classes 0 and 3 have none. -/
def State.homeFor (s : State) (cls homeByte : Nat) : Nat :=
  let sets := (List.range s.setsOpen).drop 1
  if cls = 1 then (if homeByte < 2 then homeByte else bestHome (fun h => freeCount s.planned s.assigned 1 h sets) 2)
  else if cls = 2 then (if homeByte < 8 then homeByte else bestHome (fun h => freeCount s.planned s.assigned 2 h sets) 8)
  else 0

/-- Segments still to find, with the DRAM as changed, the assigned intervals and the segments so far. -/
def allocGo (cls home : Nat) (sets : List Nat) :
    List Nat → Dram → List Blocks → List Nat → Option (Dram × List Nat)
  | [], m, _, segs => some (m, segs)
  | len :: r, m, as, segs =>
    match findRun m as cls home len sets with
    | none => none
    | some b =>
      let m1 := m.setClass (b / 256) cls
      allocGo cls home sets r m1 ((b, len) :: as) (segs ++ [b * 65536])

/-- Lengths of the segments of n blocks (R363). -/
def segLens (n : Nat) : List Nat := List.replicate (n / 256) 256 ++ (if n % 256 = 0 then [] else [n % 256])

/-- R311, R363: segments of n blocks in a class and home, and the DRAM with the sets' configuration that they need,
which takes effect later (R325). -/
def State.alloc (s : State) (cls home n : Nat) : Option (Dram × List Nat) :=
  allocGo cls home ((List.range s.setsOpen).drop 1) (segLens n) s.planned s.assigned []

/-- Sets whose class differs between two configurations, among the sets of intervals and their pairs and groups. -/
def changedSets (a b : Dram) (sets : List Nat) : List Nat :=
  (sets.flatMap (fun x => addrs (x / 8 * 8) 8)).filter (fun x => decide (a.classOf x ≠ b.classOf x))

/-- R76, R325: the scrub-pending blocks that must be zero-filled before segments serve: those newly assigned, and those of
every set whose configuration changes. -/
def State.fillBlocks (s : State) (m : Dram) (segs own : List Nat) : List Nat :=
  let sets := changedSets s.dram m (segs.map (fun b => b / 2 ^ 24))
  (own ++ sets.flatMap (fun x => addrs (x * 256) 256)).filter (fun b => !nsHas s.dram.clean b)

/-- The blocks to zero-fill for n blocks in new segments. -/
def State.fillFor (s : State) (m : Dram) (segs : List Nat) (n : Nat) : List Nat :=
  s.fillBlocks m segs ((segBlocks segs n).flatMap (fun b => addrs b.1 b.2))

/-- Lines of a block that a cache or the host may hold copies of. -/
def State.blockLines (s : State) (b : Nat) : List Nat :=
  ((s.dram.dir.map (·.1) ++ s.dram.nsc.map (·.1)).filter (fun l => decide (l / 256 = b))).eraseDups

/-- R76: zero-fills a block with class 3 writes, which take other units' copies away (R334). -/
def State.fillBlock (s : State) (b : Nat) : State :=
  ((s.blockLines b).foldl (fun t l => t.serveWrite .bulk none l 0xFF (BitVec.allOnes 256)) s).zeroBlock b

/-- Zero-fills blocks (R76). -/
def State.fill (s : State) (bs : List Nat) : State := bs.foldl State.fillBlock s

end Sys2Proof.Machine
end

