-- ==== Sys2Proof/Machine/VecForms.lean ====
section
/-!
DEFINITION. The vector instruction forms of 07_vector_instructions as functions of the vector state, the gang size, FRM
and the scalar operands. Every form answers none where the word is an illegal instruction (R184): a reserved field
value, a nonzero field that must be zero, a SEW that the function does not accept, or an odd pair register.
-/
namespace Sys2Proof.Machine

/-- The scalar operands of a vector word: the g and d registers that VB (or VA) names. -/
structure ScalarOps where
  g : Word
  d : Word
  deriving DecidableEq, Repr

/-- R187: the rounding mode of vector arithmetic: FRM, with RNE for SR. Reserved codes round as RNE is the model's
choice for codes that MTSR refuses to hold. -/
def rmOfFrm (frm : BitVec 3) : Rm :=
  match frm.toNat with
  | 1 => .rtz | 2 => .rdn | 3 => .rup | _ => .rne

/-- Operand b of element i: a vector element, or the scalar's low bits (R183). -/
def vOpB (x : Vec) (w : VecWord) (esz : Nat) (sc : Word) (i : Nat) : Nat :=
  if w.s then sc.toNat % 2 ^ (8 * esz) else x.el esz w.vb.toNat i

/-- R183: floating-point functions take SEW 16, 32 and 64, and ALT only at 16. -/
def fpSewOk (sew : Nat) (alt : Bool) : Bool := decide (1 ≤ sew) && (!alt || decide (sew = 1))

/-- R186: an integer function. -/
def vInteger (fn : VIntFn) (x : Vec) (w : VecWord) (sc : Word) : Option Vec :=
  if w.alt || (decide (fn = .vid) && (decide (w.va ≠ 0) || decide (w.vb ≠ 0))) then none
  else
    let esz := eszOf x.sew
    some (x.map esz w.vd.toNat w.pm.toNat w.z (fun i =>
      vIntEl fn (8 * esz) (x.el esz w.va.toNat i) (vOpB x w esz sc i) (x.el esz w.vd.toNat i) i))

/-- Functions of Table 7 whose VB and S are zero. -/
def fpUnary : VFpFn → Bool
  | .sqrt => true | .recip => true | .rsqrt => true | .abs => true | .neg => true | _ => false

/-- R188: a floating-point function. -/
def vFloat (fn : VFpFn) (x : Vec) (w : VecWord) (frm : BitVec 3) (sc : Word) : Option Vec :=
  if !fpSewOk x.sew w.alt || (fpUnary fn && (decide (w.vb ≠ 0) || w.s)) then none
  else
    let esz := eszOf x.sew
    let F := fpOfSew x.sew w.alt
    some (x.map esz w.vd.toNat w.pm.toNat w.z (fun i =>
      let r := fpEl fn F (rmOfFrm frm) (x.el esz w.va.toNat i) (vOpB x w esz sc i) (x.el esz w.vd.toNat i)
      (r.1, vxrCond r.2)))

/-- R189: a widening function into a pair of double width. -/
def vWiden (fn : VWideFn) (x : Vec) (gang : Nat) (w : VecWord) (frm : BitVec 3) (sc : Word) : Option Vec :=
  if !(decide (x.sew = 1) || decide (x.sew = 2)) || (w.alt && decide (x.sew = 2)) || w.vd.getLsbD 0
      || (decide (fn = .addw) && w.va.getLsbD 0) then none
  else
    let esz := eszOf x.sew
    let F := fpOfSew x.sew w.alt
    let W := wideOf x.sew
    some (x.mapPair gang (2 * esz) w.vd.toNat w.pm.toNat w.z (fun i =>
      let a := if fn = .addw then x.elPair gang (2 * esz) w.va.toNat i else x.el esz w.va.toNat i
      let r := vWideEl fn F W (rmOfFrm frm) a (vOpB x w esz sc i) (x.elPair gang (2 * esz) w.vd.toNat i)
      (r.1, vxrCond r.2)))

/-- R189: a dot product at SEW 32. The scalar of VDOT4.I8 is a g register, that of the others a d register. -/
def vDot (fn : VDotFn) (x : Vec) (w : VecWord) (sc : ScalarOps) : Option Vec :=
  if !decide (x.sew = 2) || (w.alt && !decide (fn = .h)) then none
  else
    let s := if fn = .i8 then sc.g else sc.d
    some (x.map 4 w.vd.toNat w.pm.toNat w.z (fun i =>
      let r := vDotEl fn w.alt (x.el 4 w.va.toNat i) (vOpB x w 4 s i) (x.el 4 w.vd.toNat i)
      (r.1, vxrCond r.2)))

/-- A predicate destination: [25:24] of VD are zero (Table 3 of 07). -/
def predDst (vd : BitVec 5) : Bool := decide (vd.toNat < 8)

/-- R190: an integer compare into pd. -/
def vCompare (fn : VCmpFn) (x : Vec) (w : VecWord) (sc : Word) : Option Vec :=
  if w.alt || !predDst w.vd then none
  else
    let esz := eszOf x.sew
    some (x.setP w.vd.toNat (x.predOf w.pm.toNat (fun i =>
      vCmpEl fn (8 * esz) (x.el esz w.va.toNat i) (vOpB x w esz sc i))))

/-- R190: a floating-point compare into pd. -/
def vFCompare (fn : FpCmpFn) (x : Vec) (w : VecWord) (sc : Word) : Option Vec :=
  if !fpSewOk x.sew w.alt || !predDst w.vd then none
  else
    let esz := eszOf x.sew
    let F := fpOfSew x.sew w.alt
    let r := fun i => fpCmp fn F (x.el esz w.va.toNat i) (vOpB x w esz sc i)
    some ((x.setP w.vd.toNat (x.predOf w.pm.toNat (fun i => (r i).1))).flag
      (x.flagsOf w.pm.toNat (fun i => vxrCond (r i).2)))

/-! ## Predicate logic (R191) -/

inductive VPredFn where
  | and | or | xor | andn | not | set
  deriving DecidableEq, Repr

/-- R191: a predicate-logic function into pd. -/
def vPredLogic (fn : VPredFn) (x : Vec) (w : VecWord) : Option Vec :=
  if w.alt || w.s || !predDst w.vd || (!decide (fn = .set) && !predDst w.va) || !predDst w.vb
      || ((decide (fn = .not) || decide (fn = .set)) && decide (w.vb ≠ 0))
      || (decide (fn = .set) && decide (w.va ≠ 0)) then none
  else
    let a := x.pbit w.va.toNat
    let b := x.pbit w.vb.toNat
    let f : Nat → Bool := fun i =>
      match fn with
      | .and => a i && b i
      | .or => a i || b i
      | .xor => a i != b i
      | .andn => a i && !b i
      | .not => !a i
      | .set => true
    some (x.setP w.vd.toNat (x.predOf w.pm.toNat f))

/-- The fields that PCNT and PFIRST require to be zero. -/
def predScalarOk (w : VecWord) : Bool := !w.alt && !w.s && !w.z && decide (w.vb = 0) && predDst w.va

/-- R191: PCNT. -/
def vPcnt (x : Vec) (w : VecWord) : Option Word :=
  if !predScalarOk w then none
  else some (BitVec.ofNat 64
    ((List.range x.vl).filter (fun i => x.active w.pm.toNat i && x.pbit w.va.toNat i)).length)

/-- R191: PFIRST. -/
def vPfirst (x : Vec) (w : VecWord) : Option Word :=
  if !predScalarOk w then none
  else some (BitVec.ofNat 64
    (((List.range x.vl).find? (fun i => x.active w.pm.toNat i && x.pbit w.va.toNat i)).getD x.vl))

/-! ## Reductions and scans -/

/-- R192: writes vb[0] combined with a tree or sequential result to element 0 of vd. -/
def redWrite (x : Vec) (w : VecWord) (esz : Nat) (r : Option Nat × Cond) : Vec :=
  (x.setEl esz w.vd.toNat 0 (r.1.getD 0)).flag (vxrCond r.2)

/-- R192: an integer reduction. -/
def vRedInt (fn : RedFn) (x : Vec) (w : VecWord) (sc : Word) : Option Vec :=
  if w.alt || w.z then none
  else
    let esz := eszOf x.sew
    let op := redInt fn (8 * esz)
    let t := treeRed op x.vl (x.terms esz w.va.toNat w.pm.toNat)
    some (redWrite x w esz (optOp op (some (vOpB x w esz sc 0), 0) t))

/-- R121, R187: an operand of a floating-point reduction or scan: a NaN is the default NaN and raises IV, also where no
other operand joins it. -/
def fpTerm (F : FpFmt) (t : Option Nat × Cond) : Option Nat × Cond :=
  match t.1 with
  | some v => if (F.decode v).isNan then (some F.nanBits, t.2 ||| Cond.iv) else t
  | none => t

/-- R192: a floating-point tree reduction. -/
def vRedFp (fn : RedFn) (x : Vec) (w : VecWord) (frm : BitVec 3) (sc : Word) : Option Vec :=
  if !fpSewOk x.sew w.alt || w.z then none
  else
    let esz := eszOf x.sew
    let F := fpOfSew x.sew w.alt
    let op := redFp fn F (rmOfFrm frm)
    let t := treeRed op x.vl ((x.terms esz w.va.toNat w.pm.toNat).map (fpTerm F))
    some (redWrite x w esz (optOp op (fpTerm F (some (vOpB x w esz sc 0), 0)) t))

/-- R193: the sequential floating-point sum. -/
def vRedOsum (x : Vec) (w : VecWord) (frm : BitVec 3) (sc : Word) : Option Vec :=
  if !fpSewOk x.sew w.alt || w.z then none
  else
    let esz := eszOf x.sew
    let F := fpOfSew x.sew w.alt
    let op := redFp .sum F (rmOfFrm frm)
    some (redWrite x w esz (seqRed op (fpTerm F (some (vOpB x w esz sc 0), 0))
      ((x.terms esz w.va.toNat w.pm.toNat).map (fpTerm F))))

/-- R194: writes a scan: every element below vl, with the identity where a value is absent. -/
def scanWrite (x : Vec) (w : VecWord) (esz ident : Nat) (s : List ((Option Nat × Cond) × Bool)) : Vec :=
  loop (fun i y =>
    let r := (s.getD i ((none, 0), false)).1
    (y.setEl esz w.vd.toNat i (r.1.getD ident)).flag (vxrCond r.2)) x.vl x

/-- R194: the starting list of a scan: values and segment heads. -/
def scanInit (x : Vec) (w : VecWord) (esz : Nat) : List ((Option Nat × Cond) × Bool) :=
  ((x.terms esz w.va.toNat w.pm.toNat).zip (List.range x.vl)).map
    (fun p => (p.1, decide (p.2 = 0) || x.pbit w.vb.toNat p.2))

/-- R194: an integer scan: sum, signed minimum or maximum. -/
def vScanInt (fn : RedFn) (x : Vec) (w : VecWord) : Option Vec :=
  if w.alt || w.z || !predDst w.vb then none
  else
    let esz := eszOf x.sew
    let ident := match fn with
      | .sum => 0
      | .min => 2 ^ (8 * esz - 1) - 1
      | .max => 2 ^ (8 * esz - 1)
      | .minu => 2 ^ (8 * esz) - 1
      | .maxu => 0
    some (scanWrite x w esz ident (scanAll (redInt fn (8 * esz)) x.vl 1 (scanInit x w esz)))

/-- R194: a floating-point scan. -/
def vScanFp (fn : RedFn) (x : Vec) (w : VecWord) (frm : BitVec 3) : Option Vec :=
  if !fpSewOk x.sew w.alt || w.z || !predDst w.vb then none
  else
    let esz := eszOf x.sew
    let F := fpOfSew x.sew w.alt
    let ident := match fn with
      | .sum => 0
      | .min => F.infBits false
      | .minu => F.infBits false
      | .max => F.infBits true
      | .maxu => F.infBits true
    some (scanWrite x w esz ident (scanAll (redFp fn F (rmOfFrm frm)) x.vl 1
      ((scanInit x w esz).map (fun p => (fpTerm F p.1, p.2)))))

/-! ## Permutes (R195) -/

/-- a[x] under R195: zero and PERM_OOR at or beyond vl. -/
def permEl (x : Vec) (esz va idx : Nat) : Nat × BitVec 7 :=
  if idx < x.vl then (x.el esz va idx, 0) else (0, vxrOor)

/-- R195: VPERM. -/
def vPerm (x : Vec) (w : VecWord) : Option Vec :=
  if w.alt || w.s then none
  else
    let esz := eszOf x.sew
    some (x.map esz w.vd.toNat w.pm.toNat w.z (fun i => permEl x esz w.va.toNat (x.el esz w.vb.toNat i)))

/-- R183, R195: VBCASTE: the index is the low SEW bits of the scalar. -/
def vBcaste (x : Vec) (w : VecWord) (sc : Word) : Option Vec :=
  if w.alt || !w.s then none
  else
    let esz := eszOf x.sew
    some (x.map esz w.vd.toNat w.pm.toNat w.z (fun _ => permEl x esz w.va.toNat (vOpB x w esz sc 0)))

/-- R195: VSLIDEDN: positions at or beyond vl read 0 and are not out of range. -/
def vSlideDn (x : Vec) (w : VecWord) (sc : Word) : Option Vec :=
  if w.alt || !w.s then none
  else
    let esz := eszOf x.sew
    let d := vOpB x w esz sc 0
    some (x.map esz w.vd.toNat w.pm.toNat w.z (fun i => (if i + d < x.vl then x.el esz w.va.toNat (i + d) else 0, 0)))

/-- R195: VSLIDEUP: elements below the distance are unchanged. -/
def vSlideUp (x : Vec) (w : VecWord) (sc : Word) : Option Vec :=
  if w.alt || !w.s then none
  else
    let esz := eszOf x.sew
    let d := vOpB x w esz sc 0
    some (x.map esz w.vd.toNat w.pm.toNat w.z (fun i =>
      (if d ≤ i then x.el esz w.va.toNat (i - d) else x.el esz w.vd.toNat i, 0)))

/-- R195: VREV. -/
def vRev (x : Vec) (w : VecWord) : Option Vec :=
  if w.alt || w.s || decide (w.vb ≠ 0) then none
  else
    let esz := eszOf x.sew
    some (x.map esz w.vd.toNat w.pm.toNat w.z (fun i => (x.el esz w.va.toNat (x.vl - 1 - i), 0)))

/-- R195: VCOMPRESS: the active elements in order, then zeros up to vl. -/
def vCompress (x : Vec) (w : VecWord) : Option Vec :=
  if w.alt || w.s || w.z || decide (w.vb ≠ 0) then none
  else
    let esz := eszOf x.sew
    let l := ((List.range x.vl).filter (x.active w.pm.toNat)).map (x.el esz w.va.toNat)
    some (loop (fun i y => y.setEl esz w.vd.toNat i (l.getD i 0)) x.vl x)

/-- R195: VEXPAND: active element i receives a[k], k the active elements below i. -/
def vExpand (x : Vec) (w : VecWord) : Option Vec :=
  if w.alt || w.s || decide (w.vb ≠ 0) then none
  else
    let esz := eszOf x.sew
    some (x.map esz w.vd.toNat w.pm.toNat w.z (fun i =>
      (x.el esz w.va.toNat ((List.range i).filter (x.active w.pm.toNat)).length, 0)))

/-! ## Conversions (R196, R197) -/

/-- R197: the rounding of element i. -/
def convRm (sr : Bool) (frm : BitVec 3) (seed key : Word) (i : Nat) : Rm :=
  if sr then .sr (srBits seed ((key >>> 48).setWidth 16) (key.toNat % 2 ^ 48 + i)) else rmOfFrm frm

/-- R196: a conversion; seed and key are g30 and g31. -/
def vConvert (x : Vec) (gang : Nat) (w : ConvWord) (frm : BitVec 3) (seed key : Word) : Option Vec :=
  match NumFmt.ofCode w.src.toNat, NumFmt.ofCode w.dst.toNat with
  | some a, some b =>
    if !convPairOk a b || decide (w.rsv ≠ 0) || !decide (8 * eszOf x.sew = a.bits)
        || (w.sr && !srDst b) || (decide (a.bits < b.bits) && w.vd.getLsbD 0) then none
    else
      let f := fun i =>
        let r := a.convert b (convRm w.sr frm seed key i) w.sat (x.el (a.bits / 8) w.va.toNat i)
        (r.1, vxrCond r.2)
      if a.bits < b.bits then some (x.mapPair gang (b.bits / 8) w.vd.toNat w.pm.toNat w.z f)
      else some (x.map (b.bits / 8) w.vd.toNat w.pm.toNat w.z f)
  | _, _ => none

/-! ## Moves (R198) -/

/-- R198: VMV. -/
def vMove (x : Vec) (w : VecWord) : Option Vec :=
  if w.alt then none
  else
    let esz := eszOf x.sew
    some (x.map esz w.vd.toNat w.pm.toNat w.z (fun i => (x.el esz w.va.toNat i, 0)))

/-- R198: VBCAST of a g register. -/
def vBcast (x : Vec) (w : VecWord) (sc : Word) : Option Vec :=
  if w.alt || !w.s then none
  else
    let esz := eszOf x.sew
    some (x.map esz w.vd.toNat w.pm.toNat w.z (fun _ => (sc.toNat % 2 ^ (8 * esz), 0)))

/-- R198: VGETX and VGETF read a[x]: the value and the new flags. -/
def vGet (x : Vec) (w : VecWord) (sc : Word) : Option (Vec × Word) :=
  if w.alt || decide (w.pm ≠ 0) || w.z then none
  else
    let r := permEl x (eszOf x.sew) w.va.toNat sc.toNat
    some (x.flag r.2, BitVec.ofNat 64 r.1)

/-- R198: VPUT: no effect at or beyond vl. -/
def vPut (x : Vec) (w : VecWord) (val idx : Word) : Option Vec :=
  if decide (w.pm ≠ 0) || w.z then none
  else if idx.toNat < x.vl then some (x.setEl (eszOf x.sew) w.vd.toNat idx.toNat (val.toNat % 2 ^ (8 * eszOf x.sew)))
  else some x

end Sys2Proof.Machine
end

