-- ==== Sys2Proof/Machine/ScalarOps.lean ====
section
/-!
DEFINITION. What every instruction of a core shares: the boundary at which it may run (R164), its fetch (R150, R163,
R165), its registers (R147), commit (R145, R169), and the scalar loads and stores through the store buffer (R152 to
R156).
-/
namespace Sys2Proof.Machine

/-! ## Registers -/

/-- R147: g0 reads as zero. -/
def Core.rg (c : Core) (r : BitVec 5) : Word := if r = 0 then 0 else c.g.getD r.toNat 0

/-- R147: a write of a g register; the core discards a write of g0. The register's poison goes with its old value. -/
def Core.wg (c : Core) (r : BitVec 5) (v : Word) : Core :=
  if r = 0 then c else { c with g := modAt c.g r.toNat (fun _ => v), regPoison := c.regPoison.filter (· ≠ .g r.toNat) }

def Core.rd (c : Core) (r : BitVec 5) : Word := c.d.getD r.toNat 0

def Core.wd (c : Core) (r : BitVec 5) (v : Word) : Core :=
  { c with d := modAt c.d r.toNat (fun _ => v), regPoison := c.regPoison.filter (· ≠ .d r.toNat) }

/-- ORs conditions into FFLAGS (R148). -/
def Core.flagged (c : Core) (f : Cond) : Core := { c with fflags := c.fflags ||| f }

/-! ## Exceptions -/

/-- R161: an instruction excepts with a cause and no address. -/
def State.excAt (s : State) (n cause : Nat) : State := s.takeExc n cause 0 0 1 none

/-- An access that fails its translation excepts at its first failing byte; one that meets a range being drained waits. -/
def State.xlateExc (s : State) (n : Nat) (need : Need) : XRes (List Nat) → State
  | .ok _ => s
  | .wait => s
  | .fault cause va range => s.takeExc n cause (BitVec.ofNat 64 va) (xinfoOf need range) 1 none

/-- R163: an instruction that has read the poisoned byte at virtual address va excepts; `unit` consumed it. XINFO's range
index, which Table 4 of 06 does not say poison gives, is 0 (notes/assumptions/112.md). -/
def State.poisonExc (s : State) (n unit : Nat) (va : Nat) (need : Need) (sector : Option Nat) : State :=
  s.takeExc n 6 (BitVec.ofNat 64 va) (xinfoOf need 0) unit sector

/-- The first poisoned byte of an access: its virtual address and its sector. -/
def State.firstBad (s : State) (vas pas : List Nat) : Option (Nat × Nat) :=
  ((vas.zip pas).find? (fun p => s.bad p.2)).map (fun p => (p.1, p.2 / 32))

/-! ## Fetch, boundary and commit -/

/-- Whether a core's scalar pipeline runs a program: a cell of a program grid, or a test pack (R297, R469). -/
def State.runsProgram (s : State) (n : Nat) : Bool :=
  match (s.core n).work with
  | .cell g _ => match s.grid? g with | some x => decide (x.kind = .program) | none => false
  | .pack => true
  | _ => false

/-- Whether an instruction of core n can reach the head of its reorder buffer. -/
def State.executes (s : State) (n : Nat) : Bool :=
  decide ((s.core n).run = .running) && !(s.core n).ending && s.runsProgram n

/-- R164: an exception that waits for the boundary is taken there. -/
def State.takeDelivered (s : State) (n : Nat) : State :=
  match (s.core n).deliver with
  | none => s
  | some d => s.takeExc n d.cause d.addr d.info d.unit d.sector

/-- R365: work of core n through the ranges of an access, by its cluster's buffer. A test pack has no ranges of a table. -/
def State.withCoreRanges (s : State) (n : Nat) (vas : List Nat) (k : State → State) : State :=
  let c := s.core (s.leadOf n)
  if c.work = .pack then k s else s.withRanges (n / 8) c.ctx vas k

/-- The first byte of the 64-byte line that holds a byte. -/
def lineOf (va : Nat) : Nat := va / 64 * 64

/-- R150, R163: the fetch of an instruction of `len` bytes at the pc at Job level: its words translate, and a poisoned
line is consumed. Answers none when the fetch succeeds. Steward level fetches from the monitor store (R160). -/
def State.fetchExc (s : State) (n len : Nat) : Option State :=
  let c := s.core n
  if c.steward then none
  else
    let vas := vAddrs c.pc.toNat len
    match s.coreXlate n .fetch vas with
    | .ok pas =>
      match (vas.zip pas).find? (fun p => (addrs (lineOf p.2) 64).any s.bad) with
      | some p => some (s.poisonExc n 1 p.1 .fetch (((addrs (lineOf p.2) 64).find? s.bad).map (· / 32)))
      | none => none
    | e => some (s.xlateExc n .fetch e)

/-- Counters of Table 9 of 06 that any instruction may raise by an amount that no rule fixes: CYCLES, L1I_MISS and
ROB_FULL. -/
def timingPmc : List Nat := [0, 4, 9]

/-- Adds free counts to counters of a core. -/
def Core.timedBy (c : Core) (draw : Nat) (is : List Nat) : Core :=
  { c with pmc := is.foldl (fun l i => modAt l i (· + Config.freePmc draw i)) c.pmc }

/-- Adds an instruction's free counts to a core's timing counters, and to STEWARD at Steward level. -/
def Core.timed (c : Core) (draw : Nat) : Core := c.timedBy draw (if c.steward then 15 :: timingPmc else timingPmc)

/-- R169: an event of core n that one timing counter counts: 3 BR_MISPRED, 5 L1D_MISS, 6 PARTIAL_WAIT, 10 SB_FULL or 11
FENCE_WAIT. -/
def State.stall (s : State) (n i : Nat) : State := (s.updCore n (fun c => c.timedBy s.free [i])).drawn

/-- R145, R169: the instruction commits: the pc moves past its words and the counters count it at Job level. -/
def Core.retire (c : Core) (long : Bool) (draw : Nat) : Core :=
  let c1 := if c.steward then c else (if long then (c.count 1 1).count 2 1 else c.count 1 1)
  { c1.timed draw with pc := c.pc + (if long then 8 else 4) }

/-- Commits the instruction at the head of core n. -/
def State.commit (s : State) (n : Nat) (long : Bool) : State := (s.updCore n (fun c => c.retire long s.free)).drawn

/-- Changes the core and commits. -/
def State.done (s : State) (n : Nat) (f : Core → Core) : State := (s.updCore n f).commit n false

/-- R173, R174: the members of a machine that hold element groups, or predicate bits, of the elements below vl: element
group k lies with member k mod g. -/
def State.vHolders (s : State) (n : Nat) : List Nat :=
  let v := (s.core n).vec
  (s.machineOf n).take (ceilDiv (v.vl * eszOf v.sew) 256)

/-- R446: whether a register that an instruction of core n reads is poisoned; of a vector or predicate register, with the
members that hold its elements below vl (R174). g0 and p0 hold nothing. -/
def State.regBad (s : State) (n : Nat) (r : RegName) : Bool :=
  match r with
  | .g k => decide (k ≠ 0) && (s.core n).regPoison.contains r
  | .d _ => (s.core n).regPoison.contains r
  | .v _ => (s.vHolders n).any (fun k => (s.core k).regPoison.contains r)
  | .p m => decide (m ≠ 0) && (s.vHolders n).any (fun k => (s.core k).regPoison.contains r)

/-- R163: an instruction that reads a poisoned register consumes the poison in place of its effect. -/
def State.operands (s : State) (n unit : Nat) (reads : List RegName) (f : State → State) : State :=
  if reads.any (s.regBad n) then s.takeExc n 6 0 0 unit none else f s

/-- R161, R163, R164: an instruction at the head of core n's reorder buffer: a delivered exception comes first, then
its fetch, then poison among the registers it reads, then its own effect. -/
def State.instr (s : State) (n len : Nat) (reads : List RegName) (unit : Nat) (f : State → State) : State :=
  if !s.executes n then s
  else if (s.core n).deliver.isSome then s.takeDelivered n
  else
    match s.fetchExc n len with
    | some t => t
    | none =>
      if (s.core n).steward then s.operands n unit reads f
      else s.withCoreRanges n (vAddrs (s.core n).pc.toNat len) (fun t => t.operands n unit reads f)

/-- A one-word scalar instruction. -/
def State.scalar (s : State) (n : Nat) (reads : List RegName) (f : State → State) : State := s.instr n 4 reads 1 f

/-! ## Scalar memory access -/

/-- The youngest store of the buffer that writes one of the addresses, with the entries up to it, oldest first. -/
def sbHit (sb : List StoreEnt) (pas : List Nat) : Option (Nat × StoreEnt) :=
  ((List.range sb.length).reverse.find? (fun i =>
    match sb[i]? with | some e => e.cells.any (fun x => pas.contains x.1) | none => false)).bind
    (fun i => (sb[i]?).map (fun e => (i, e)))

/-- The value a store holds for an address. -/
def StoreEnt.at_ (e : StoreEnt) (pa : Nat) : Option Byte := (e.cells.find? (fun x => decide (x.1 = pa))).map (·.2)

/-- A read of bytes that no store forwards: through the L1 data cache (R152), which may first need the host's copy of a
line it gives up; poison is consumed (R163). -/
def State.loadMem (s : State) (n : Nat) (vas pas : List Nat) : State × Option (List Byte) :=
  match s.heldLines (s.readWaits .scalar pas) with
  | [] =>
    let t := (s.scalarRead n pas).stall n 5
    match t.firstBad vas pas with
    | some b => (t.poisonExc n 1 b.1 .read (some b.2), none)
    | none => (t, some (t.rdAt pas))
  | ls => (ls.foldl State.recallHost s, none)

/-- R153, R154: a scalar load of bytes: forwarded from the youngest overlapping store when that store writes them all,
else read once that store has been written. A poisoned value that is forwarded is consumed (R446). Answers the bytes and the state, or the state without them: an exception, a
kill of the context, or a wait. -/
def State.loadBytes (s : State) (n : Nat) (vas : List Nat) : State × Option (List Byte) :=
  match s.coreXlate n .read vas with
  | .ok pas =>
    let s0 := s.withCoreRanges n vas id
    if (s0.ctx (s0.core n).ctx).killed && !(s.ctx (s.core n).ctx).killed then (s0, none)
    else
      match sbHit (s0.core n).sb pas with
      | some (i, e) =>
        if pas.all (fun a => (e.at_ a).isSome) then
          if e.poison then (s0.poisonExc n 1 (vas.headD 0) .read Option.none, none)
          else (s0.updCore n (fun c => c.count 8 1), some (pas.map (fun a => (e.at_ a).getD 0)))
        else
          let t := ((s0.updCore n (fun c => c.count 7 1)).stall n 6).drain n (i + 1)
          if (t.core n).sb.length + (i + 1) = (s0.core n).sb.length then t.loadMem n vas pas
          else (s0.drain n (i + 1), none)
      | none => s0.loadMem n vas pas
  | e => (s.xlateExc n .read e, none)

/-- A load at `va`: `f` receives the little-endian value and makes the core's change; the instruction commits. -/
def State.loadThen (s : State) (n va len : Nat) (f : Core → Nat → Core) : State :=
  match s.loadBytes n (vAddrs va len) with
  | (t, none) => t
  | (t, some bs) => t.done n (fun c => f c (leNat bs))

/-- R152: a store's work once the store buffer has room: a full buffer writes its oldest entry first, or waits. -/
def State.withRoom (s : State) (n : Nat) (k : State → State) : State :=
  if (s.core n).sb.length < 48 then k s
  else
    let t := s.drain n 1
    if (t.core n).sb.length < 48 then k (t.stall n 10) else t

/-- R152, R165: a store of `len` bytes of a value at `va`: it commits into the store buffer. -/
def State.storeAt (s : State) (n va len v : Nat) : State :=
  match s.coreXlate n .write (vAddrs va len) with
  | .ok pas =>
    s.withCoreRanges n (vAddrs va len) (fun t => t.withRoom n (fun t =>
      (t.updCore n (fun c => { c with sb := c.sb ++ [⟨va, len, pas.zip (leBytes len v), false⟩] })).commit n false))
  | e => s.xlateExc n .write e

/-- R152: ordered and atomic instructions need natural alignment; a misaligned one names its address, and range index 0
(notes/assumptions/46.md, 112.md). -/
def State.aligned (s : State) (n va len : Nat) (need : Need) (f : State → State) : State :=
  if va % len = 0 then f s else s.takeExc n 3 (BitVec.ofNat 64 va) (xinfoOf need 0) 1 none

/-- A result of fewer than 64 bits in a register: the manual does not state the bits above it, which are free
(notes/assumptions/25.md). -/
def freeAbove (bits v : Nat) : Word :=
  if bits < 64 then BitVec.ofNat 64 (v % 2 ^ bits + (Config.freeHigh bits v).toNat / 2 ^ bits * 2 ^ bits)
  else BitVec.ofNat 64 v

/-- R335: an atomic's bytes are for the home slice alone while it is performed; those of a scratchpad lie with its
bank (R159). -/
def State.atomicDo (s : State) (n len : Nat) (rd : BitVec 5) (vas pas : List Nat) (f : Nat → Option Nat) : State :=
  s.whenRecalled (s.coreWaits pas) (fun s =>
    let t := (s.sliceAtomic pas).stall n 5
    match t.firstBad vas pas with
    | some b => t.poisonExc n 1 b.1 .read (some b.2)
    | none =>
      let old := leNat (t.rdAt pas)
      let u := match f old with | some v => t.store (pas.zip (leBytes len v)) | none => t
      u.done n (fun c => c.wg rd (freeAbove (8 * len) old)))

/-- R159: an atomic of `len` bytes at the address in ra: `f` gives the new value from the old one, none to leave it. Each
is an acquire load and a release store, so every earlier store is performed first (R157). -/
def State.atomic (s : State) (n len : Nat) (rd ra : BitVec 5) (f : Nat → Option Nat) : State :=
  let va := ((s.core n).rg ra).toNat
  let vas := vAddrs va len
  s.aligned n va len .write (fun s =>
    match s.coreXlate n .read vas with
    | .ok pas =>
      match s.coreXlate n .write vas with
      | .ok _ => s.withCoreRanges n vas (fun t => t.whenDrained n (fun t => t.atomicDo n len rd vas pas f))
      | e => s.xlateExc n .write e
    | e => s.xlateExc n .read e)

/-! ## What a fence or HALT waits for -/

/-- R286: whether an engine is idle, holds no start and has no DMA tag busy. -/
def Sce.quiet (e : Sce) : Bool := decide (e.run = .idle) && e.held.isNone && e.chains.isEmpty && e.tags.all (·.isNone)

/-- R286, R158: whether every engine and matrix unit of a machine has finished its work. -/
def State.unitsQuiet (s : State) (n : Nat) : Bool :=
  s.mxClear n && (s.machineOf n).all (fun k => (s.core k).sce.all (·.quiet))

end Sys2Proof.Machine
end

