-- ==== Sys2Proof/Machine/SceOps.lean ====
section
/-!
DEFINITION. What the stream chain engines and the matrix unit share: an engine's starts (R262), its faults (R289), and
the start of a pair's chain (R252, R263).
-/
namespace Sys2Proof.Machine

def State.engine (s : State) (n e : Nat) : Sce := (s.core n).sce.getD e Sce.reset

def State.updEngine (s : State) (n e : Nat) (f : Sce → Sce) : State :=
  s.updCore n (fun c => { c with sce := modAt c.sce e f })

/-- Bytes of a core's scratchpad: SPAD of the image in force in units of 512 KiB (R40, R212). In a pack run, and before an
image is in force, it is 3 MiB (R469). -/
def State.spadBytes (s : State) (n : Nat) : Nat :=
  match s.sim.image with
  | some i => if (s.core n).work = .pack then 0x300000 else i.spad.getD n 6 * 0x80000
  | none => 0x300000

/-- R262: an engine begins a start: PC, s, n and lc from it, LEN 0, no loop active, taps clear, SCFAULT.CAUSE zero; the
configuration slots stay. -/
def Sce.begin (x : Sce) (st : Start) : Sce :=
  { x with
    run := .running
    pc := st.entry
    s := st.s
    n := st.n
    lc := st.lc
    act := List.replicate 4 false
    len := 0
    loads := []
    fault := 0
    held := none
    pair := st.pair }

/-- Table 19 of 10: the XCAUSE of an engine cause. -/
def engineXcause (cause : Nat) : Nat :=
  match cause with
  | 1 => 1
  | 2 => 1
  | 3 => 5
  | 4 => 3
  | 5 => 4
  | 6 => 5
  | 7 => 6
  | _ => 0

/-- R289: engine e of core n stops with a cause at a word: it aborts, records the fault, and the core takes the
exception at its next boundary. A pair chain that ends so cancels its descriptor (R263). -/
def State.engineFault (s : State) (n e cause pc : Nat) (addr info : Word) (sector : Option Nat) : State :=
  let wasPair := (s.engine n e).pair
  let s1 := (s.abortEngine n e).updEngine n e (fun x =>
    { x with faultPc := pc, faultX := engineXcause cause, fault := cause })
  let s2 := if wasPair then (s1.machineOf n).foldl (fun t k => t.updMx k Mx.cancel) s1 else s1
  s2.deliverExc (s2.leadOf n) ⟨engineXcause cause, addr, info, 4 + e, sector⟩

/-- R290: the first poisoned byte among scratchpad bytes of a core, as its sector. -/
def State.spadBad (s : State) (n off len : Nat) : Option Nat :=
  ((addrs (spadBase n + off) len).find? s.bad).map (· / 32)

/-- The bytes at a scratchpad offset of a core. -/
def State.spadRead (s : State) (n off len : Nat) : List Byte := s.rdAt (addrs (spadBase n + off) len)

/-- Writes bytes at a scratchpad offset of a core. -/
def State.spadWrite (s : State) (n off : Nat) (bs : List Byte) : State :=
  s.store ((addrs (spadBase n + off) bs.length).zip bs)

/-! ## The start of a pair's chain -/

/-- R263: the start that the matrix unit makes for a block of `rows` in-range rows. -/
def pairStart (e : MxExt) (n rows : Nat) : Start :=
  { entry := e.entry
    s := [e.midIn, 0, e.mid.base, e.mid.scale, 0, 0, 0, 0].map (· % 2 ^ 24)
    n := [n, rows, e.midInPitch, e.mid.pitch].map (· % 2 ^ 24)
    lc := List.replicate 4 0
    pair := true }

/-- Rows of a PAIR's block that lie within M (R252). -/
def pairRows (e : MxExt) (j : MxJob) : Nat := min (j.mN - j.m0 - j.blk * (32 * e.rowsT)) (32 * e.rowsT)

/-- Jobs of a machine with an identity. -/
def State.mxPeers (s : State) (n id : Nat) : List MxJob :=
  (s.machineOf n).flatMap (fun k => (s.core k).mx.jobs.filter (fun j => decide (j.id = id)))

/-- Changes the head job of a unit. -/
def State.mxHead (s : State) (n : Nat) (f : MxJob → MxJob) : State :=
  s.updMx n (fun m => { m with jobs := match m.jobs with | [] => [] | j :: r => f j :: r })

/-- R252, R263, R291: a pair's chain starts on the lead's engine once every member has written its part of the block's rows
(R237), the engine is idle and holds no start, and CLOSE is 0. `row` of the lead's job says that it has started. -/
def State.pairKick (s : State) (n : Nat) : State :=
  match (s.core n).mx.jobs with
  | [] => s
  | j :: _ =>
    let e := MxExt.parse j.ext
    let x := s.engine n e.engine
    let ps := s.mxPeers n j.id
    if decide (j.member = 0) && decide (j.phase = .chain) && decide (j.row = 0) && !j.stop && decide (ps.length = j.gang)
        && ps.all (fun p => decide (p.phase = .chain)) && x.quiet && !x.close then
      (s.mxHead n (fun j => { j with row := 1 })).updEngine n e.engine
        (fun x => x.begin (pairStart e (MxD.parse j.raw).n (pairRows e j)))
    else s

/-- Whether an accepted PAIR names engine e of core n (R262); it runs its chains on the lead's. -/
def State.pairNames (s : State) (n e : Nat) : Bool :=
  (s.core n).mx.jobs.any (fun j => decide ((MxD.parse j.raw).op = 2) && decide (j.member = 0)
    && decide ((MxExt.parse j.ext).engine = e))

/-! ## CHAIN cells -/

/-- Writes words into a program memory from an address; poison goes with the old words. -/
def Sce.load (x : Sce) (dst : Nat) (ws : List Nat) : Sce :=
  { x with
    pm := ((addrs dst ws.length).zip ws).foldl (fun t p => Tab.put 0 t p.1 p.2) x.pm
    pmPoison := nsDelRange x.pmPoison dst ws.length }

/-- The 16-bit words of a byte string. -/
def words16 : List Byte → List Nat
  | a :: b :: r => (a.toNat + 256 * b.toNat) :: words16 r
  | _ => []

/-- R397: what a CHAIN cell does first: the load of LOAD, then the start of its start block (R261, R262). It waits while
the engine's CLOSE is 1 (R291). A failure is an exception of the cell's core. -/
def State.chainBegin (s : State) (n : Nat) : State :=
  match (s.core n).work with
  | .cell gid i =>
    match s.grid? gid with
    | none => s
    | some g =>
      let need := fun (s : State) (va len al : Nat) (f : State → List Byte → State) =>
        if va % al ≠ 0 then s.takeExc n 3 (BitVec.ofNat 64 va) 0 1 none
        else
          match (s.coreCtx n).held.span .other .read (vAddrs va len) with
          | .fault c v r => s.takeExc n c (BitVec.ofNat 64 v) (xinfoOf .read r) 1 none
          | .wait => s
          | .ok pas =>
            match s.firstBad (vAddrs va len) pas with
            | some b => s.poisonExc n 1 b.1 .read (some b.2)
            | none => s.withCoreRanges n [va] (fun s => f (s.unitRead .block pas) (s.rdAt pas))
      if g.kind ≠ .chain ∨ (s.engine n g.engine).close then s
      else need s g.load 16 16 (fun s lb =>
        match loadBlock lb with
        | none => s.excAt n 1
        | some b =>
          match (s.coreCtx n).held.extent .other .read b.1 (2 * b.2.2) with
          | .fault c v r => s.takeExc n c (BitVec.ofNat 64 v) (xinfoOf .read r) 1 none
          | .wait => s
          | .ok _ => need s b.1 (2 * b.2.2) 2 (fun s wb =>
            let ws := words16 wb
            if ws.any (fun w => decide (2 ^ 14 ≤ w)) then s.excAt n 1
            else need s (g.startAt + 64 * i) 64 64 (fun s sb =>
              match startBlock sb with
              | none => s.excAt n 1
              | some st =>
                let t := s.updEngine n g.engine (fun x => x.load b.2.1 ws)
                t.updEngine n g.engine (fun x => x.begin ⟨st.1, st.2.1, st.2.2.1, st.2.2.2, false⟩))))
  | _ => s

end Sys2Proof.Machine
end

