-- ==== Sys2Proof/Machine/Xlt.lean ====
section
/-!
DEFINITION. The translation block: its commands in the order of their codes (R378), ranges (R360, R361), invalidate and
drain (R371, R372), windows (R373), the resolution of fault records (R369), and its register writes (R377).
-/
namespace Sys2Proof.Machine

/-! ## Commands of a block -/

/-- Marks a command as begun. -/
def CmdSt.begin_ (c : CmdSt) (op : Nat) : CmdSt := { c with busy := true, op := op, code := 0 }

/-- Marks a command as ended with a code. -/
def CmdSt.finish (c : CmdSt) (op code : Nat) : CmdSt := { c with busy := false, done := true, op := op, code := code }

/-- A command write that is discarded because one runs. -/
def CmdSt.drop (c : CmdSt) : CmdSt := { c with dropped := true }

/-- RW1C of DROPPED [14] and DONE [13]. -/
def CmdSt.clear (c : CmdSt) (v : Nat) : CmdSt :=
  { c with dropped := c.dropped && !bit v 14, done := c.done && !bit v 13 }

/-- The first code of a list whose condition holds, 0 when none does. -/
def firstCode : List (Nat × Bool) → Nat
  | [] => 0
  | (c, b) :: r => if b then c else firstCode r

/-- An RW field of a register: the written bits take the value's. -/
def merge (old v m : Nat) : Nat := (old &&& (0xFFFFFFFFFFFFFFFF ^^^ m)) ||| (v &&& m)

/-- Writes entry i of a list of 64-bit registers. -/
def mergeAt (l : List Word) (i v m : Nat) : List Word := modAt l i (fun w => BitVec.ofNat 64 (merge w.toNat v m))

/-- The 32-byte argument held in four registers. -/
def argBytes (l : List Word) : List Byte := l.flatMap (fun w => leBytes 8 w.toNat)

/-- A figure of the image in force; 0 when none is. -/
def State.img (s : State) (f : Image → Nat) : Nat := match s.sim.image with | some i => f i | none => 0

/-! ## Range descriptors (R360) -/

/-- PERM values that Table 2 of 13 accepts for a kind. -/
def permOk (kind perm : Nat) : Bool :=
  if kind = 0 ∨ kind = 1 then [1, 3, 5, 4, 9, 11].contains perm
  else if kind = 2 then [1, 3].contains perm
  else decide (perm = 3)

/-- The effective class: CLASS, or PLACE.DEFAULT_CLASS (Table 1 of 13). -/
def State.effClass (s : State) (c : Nat) : Nat := if c = 0xFF then s.img (·.defaultClass) else c

/-- HOME values accepted for an effective class. -/
def homeByteOk (kind cls home : Nat) : Bool :=
  decide (home = 0xFF) || (decide (kind = 1) && ((decide (cls = 1) && decide (home < 2)) || (decide (cls = 2) && decide (home < 8))))

/-- Whether a descriptor obeys Table 1 and Table 2 of 13, and its window port is fabric (R361). -/
def State.rangeArgOk (s : State) (a : List Byte) : Bool :=
  let vbase := leAt a 0 8
  let len := leAt a 8 8
  let tgt := leAt a 0x10 8
  let kind := leAt a 0x18 1
  let cls := leAt a 0x1A 1
  decide (vbase % 65536 = 0) && decide (len % 65536 = 0) && decide (65536 ≤ len) && decide (len ≤ 2 ^ 39)
    && decide (vbase + len ≤ 2 ^ 48) && decide (kind < 4) && permOk kind (leAt a 0x19 1)
    && decide (leAt a 0x1C 4 = 0)
    && (if kind = 1 then decide (cls < 4) || decide (cls = 0xFF) else decide (cls = 0xFF))
    && homeByteOk kind (s.effClass cls) (leAt a 0x1B 1)
    && (match kind with
      | 0 => decide (tgt % 65536 = 0)
      | 1 => decide (tgt = 0)
      | 2 => decide (bits tgt 14 2 = 0) && decide (tgt < 2 ^ 36) && decide (s.role (bits tgt 32 4) = 1)
      | _ => decide (tgt = 0) && decide (len ≤ 12582912))

def kindOf (k : Nat) : RangeKind := if k = 0 then .device else if k = 1 then .placed else if k = 2 then .window else .scratch

/-- The range of an argument, before blocks are assigned. -/
def State.rangeOf (s : State) (a : List Byte) : Range :=
  { valid := true, vbase := leAt a 0 8, len := leAt a 8 8, target := leAt a 0x10 8, kind := kindOf (leAt a 0x18 1)
    perm := BitVec.ofNat 4 (leAt a 0x19 1), clsByte := leAt a 0x1A 1, homeByte := leAt a 0x1B 1
    cls := s.effClass (leAt a 0x1A 1), home := 0, segs := [], draining := false, switching := false }

/-- Whether a range overlaps another of the context in virtual addresses, apart from index `but`. -/
def Ctx.vOverlap (c : Ctx) (r : Range) (but : Nat) : Bool :=
  c.ranges.any (fun e => decide (e.1 ≠ but) && e.2.valid && decide (e.2.vbase < r.vbase + r.len)
    && decide (r.vbase < e.2.vbase + e.2.len))

/-- Blocks that a DEVICE range must not cover: set 0, absent DRAM, assigned blocks (R361). -/
def State.deviceBlocksBad (s : State) (as : List Blocks) (first n : Nat) : Bool :=
  decide (first < 256) || !s.present ((first + n) * 65536 - 1) || !freeRun as (first, n)

/-! ## Draining -/

/-- Whether a span of virtual addresses touches one of a context's ranges. -/
def Ctx.touches (c : Ctx) (ranges : List Nat) (va len : Nat) : Bool :=
  ranges.any (fun i => (c.range i).valid && decide (va < (c.range i).vbase + (c.range i).len)
    && decide ((c.range i).vbase < va + len))

/-- R371: uses in flight of a core: stores not performed, accepted matrix descriptors, busy DMA tags. -/
def State.coreUses (s : State) (c : Nat) (ranges : List Nat) (k : Core) : Bool :=
  let x := s.ctx c
  k.ctxValid && decide (k.ctx = c)
    && (k.sb.any (fun e => x.touches ranges e.vaddr e.size)
      || k.mx.jobs.any (fun j =>
        let d := MxD.parse j.raw
        (d.extents (if d.op = 2 then some (MxExt.parse j.ext) else none)).any (fun e => x.touches ranges e.1 e.2.1))
      || k.sce.any (fun e => e.tags.any (fun t =>
          match t with | some r => x.touches ranges (DmaD.parse r).vaddr (DmaD.parse r).vLen | none => false)))

/-- R371: a COPY with a chunk under way. -/
def State.copyUses (s : State) (c : Nat) (ranges : List Nat) (d : Desc) : Bool :=
  decide (d.ctx = c) && decide (d.type = tyCopy) && decide (d.st = .running) && d.ready
    && decide (d.pos < d.detail.toNat)
    && ((s.ctx c).touches ranges (d.fld 0x10 8) (d.fld 0x20 8) || (s.ctx c).touches ranges (d.fld 0x18 8) (d.fld 0x20 8))

/-- Whether any use of the ranges is in flight (R371). -/
def State.inUse (s : State) (c : Nat) (ranges : List Nat) : Bool :=
  s.cores.any (s.coreUses c ranges) || s.qmg.descs.any (s.copyUses c ranges)

/-- Sets or clears the draining mark of ranges (steps 2 and 5 of Table 4 of 13). -/
def State.setDraining (s : State) (c : Nat) (ranges : List Nat) (b : Bool) : State :=
  ranges.foldl (fun t i => if ((t.ctx c).range i).valid then t.updRange c i (fun r => { r with draining := b }) else t) s

/-- Begins a draining command: new translations wait and the RTBs lose the ranges' entries. -/
def State.beginDrain (s : State) (op c : Nat) (ranges : List Nat) (d : Drain) : State :=
  let s1 := s.setDraining c ranges true
  { s1 with xlt := { (s1.xlt.rtbDrop c ranges) with cmd := s1.xlt.cmd.begin_ op, drain := some (c, ranges, d) } }

/-- Ends the XLT command. -/
def State.xltDone (s : State) (op code : Nat) : State := { s with xlt := { s.xlt with cmd := s.xlt.cmd.finish op code } }

/-- Removes a range: its windows close, its moves stop, its blocks old and new become scrub-pending, its index is free
(R372, R316). -/
def State.dropRange (s : State) (c i : Nat) : State :=
  let r := (s.ctx c).range i
  let s1 := (s.closeWins (fun e => decide (e.ctx = c) && decide (e.range = i))).unpinBy
    (fun p => decide (p.ctx = c) && decide (p.desc = none) && decide (p.range = i))
  let gone := s1.ple.moves.filter (fun m => decide (m.ctx = c) && decide (m.range = i))
  let s2 : State := { s1 with ple := { s1.ple with
    moves := s1.ple.moves.filter (fun m => !(decide (m.ctx = c) && decide (m.range = i))) } }
  let new := gone.flatMap (fun m => (segBlocks m.newSegs (r.len / 65536)).flatMap (fun b => addrs b.1 b.2))
  (((s2.dirtyBlocks r.blocks).dirtyBlocks new).updRange c i (fun _ => Range.none))

/-! ## Growth and shrinking of a range (R372) -/

/-- Splits the growth of a PLACED range: the segments kept, and the last segment when it is shorter than 16 MiB with its
blocks. -/
def placedTail (r : Range) : List Nat × Option (Nat × Nat) :=
  let n := r.len / 65536
  if n % 256 = 0 then (r.segs, none) else (r.segs.dropLast, r.segs.getLast?.map (fun b => (b, n % 256)))

/-- Growth of a PLACED range to n blocks: the DRAM, the new segments and the copy of the old last segment. -/
def State.growPlaced (s : State) (r : Range) (n : Nat) : Option (Dram × List Nat × Option (Nat × Nat × Nat)) :=
  let p := placedTail r
  let sets := (List.range s.setsOpen).drop 1
  match p.2 with
  | none => (allocGo r.cls r.home sets (segLens (n - r.len / 65536)) s.planned s.assigned r.segs).map
      (fun x => (x.1, x.2, none))
  | some (b, have_) =>
    let full := min 256 (n - p.1.length * 256)
    let more := segLens (n - p.1.length * 256 - full)
    let first := b / 65536 + have_
    if decide (b / 65536 % 256 + full ≤ 256) && freeRun s.assigned (first, full - have_) then
      (allocGo r.cls r.home sets more s.planned ((first, full - have_) :: s.assigned) r.segs).map (fun x => (x.1, x.2, none))
    else
      match findRun s.planned s.assigned r.cls r.home 256 sets with
      | none => none
      | some nb =>
        let m := s.planned.setClass (nb / 256) r.cls
        (allocGo r.cls r.home sets more m ((nb, full) :: s.assigned) (p.1 ++ [nb * 65536])).map
          (fun x => (x.1, x.2, some (b, nb * 65536, have_ * 65536)))

/-- Whether a growth can be met: OVERLAP (5) or LIMIT (6), or 0. -/
def State.growCode (s : State) (c i : Nat) (r : Range) (len : Nat) : Nat :=
  let x := s.ctx c
  if len ≤ r.len then 0
  else if x.vOverlap { r with len := len } i then 5
  else
    match r.kind with
    | .device => if s.deviceBlocksBad (s.assigned ++ s.pendingSpans) ((r.target + r.len) / 65536) ((len - r.len) / 65536) then 5 else 0
    | .placed => if (s.growPlaced r (len / 65536)).isNone then 6 else 0
    | _ => 0

/-- R325, R372: a range's new state takes effect: the sets of its segments take their class, a last segment that the
growth moved is copied as class 3 with its marks, and its old blocks are scrub-pending. -/
def State.applyRange (s : State) (op c i : Nat) (r : Range) (tail : Option (Nat × Nat × Nat)) : State :=
  let s1 : State := if r.kind = .placed then { s with dram := s.dram.setClasses r.segs r.cls } else s
  let s2 := match tail with
    | none => s1
    | some (a, b, n) => (s1.unitMove .bulk ((addrs a n).zip (addrs b n))).dirtyBlocks (addrs (a / 65536) (n / 65536))
  (s2.updRange c i (fun _ => r)).xltDone op 0

/-- Applies a range's new state once its blocks are filled, or waits for the fill (R76). -/
def State.install (s : State) (op c i : Nat) (r : Range) (tail : Option (Nat × Nat × Nat)) (blocks : List Nat) : State :=
  if blocks.isEmpty then s.applyRange op c i r tail
  else { s with xlt := { s.xlt with
    cmd := s.xlt.cmd.begin_ op, fillWait := blocks, creating := some (c, i, r), tail := tail } }

/-- Clears the poison mark of a range table entry, which a create or change writes whole (R366). -/
def State.writeEntry (s : State) (c i : Nat) : State :=
  { s with dram := { s.dram with poison := nsDel s.dram.poison (64 * c + i) } }

/-- Moves of a range that wait lose their new blocks: they choose others for its new length when they start. -/
def State.replan (s : State) (c i : Nat) : State :=
  { s with ple := { s.ple with moves := s.ple.moves.map (fun (m : Move) =>
      if m.ctx = c ∧ m.range = i ∧ m.started = false then { m with newSegs := [] } else m) } }

/-- R372: a change of LENGTH and PERM at step 5. A growth that must wait for a zero-fill leaves the range draining until
it applies. -/
def State.applyChange (s : State) (c i len : Nat) (perm : BitVec 4) : State :=
  let r := (s.ctx c).range i
  let r1 := { r with perm := perm, draining := false, len := len }
  let s0 := (s.writeEntry c i).replan c i
  if len ≤ r.len then
    let s1 := s0.closeWins (fun e => decide (e.ctx = c) && decide (e.range = i) && decide (len < e.offset + e.len))
    let keep := { r1 with segs := r.segs.take (ceilDiv len (2 ^ 24)) }
    ((s1.dirtyBlocks (r.blocks.drop (len / 65536))).updRange c i (fun _ => keep)).xltDone 5 0
  else
    match r.kind with
    | .placed =>
      match s0.growPlaced r (len / 65536) with
      | none => (s0.updRange c i (fun _ => { r with draining := false })).xltDone 5 6
      | some (m, segs, cp) =>
        let fresh := (Range.blocks { r1 with segs := segs }).filter (fun b => !r.blocks.contains b)
        s0.install 5 c i { r1 with segs := segs } cp (s0.fillBlocks m segs fresh)
    | _ => s0.install 5 c i r1 none (r1.blocks.filter (fun b => !r.blocks.contains b && !nsHas s0.dram.clean b))

/-- R369: a waiter's descriptor ends with a status; descriptor 0 stands for a recheck's run (R460). -/
def State.waiterEnd (s : State) (w : Waiter) (st : Nat) : State :=
  match w with
  | .core n =>
    let c := s.core n
    if c.run = .waiting then
      let s1 := s.post (excRecord c n c.xcause.toNat st c.xaddr (s.queueOfCore n))
      (s1.updCore n (fun x => { x with run := .running })).failShare n st
    else s
  | .engine n _ => s.failShare (s.leadOf n) st
  | .desc id => if id = 0 then s.endRecheck 4 st else if (s.collOf id).isSome then s.endColl id st none else s.endDesc id st

/-- R369: a waiter translates again. A core returns to its instruction by XRET, counting in XFAULT a fault that stopped
it, which a granted change (R370) is not; a CHAIN cell loads and starts its engine again. -/
def State.waiterRetry (s : State) (w : Waiter) (change : Bool) : State :=
  match w with
  | .core n =>
    if (s.core n).run = .waiting then
      (s.updCore n (fun c => { (if change then c else c.count 13 1) with run := .running })).chainBegin n
    else s
  | .engine n e => s.updCore n (fun c => { c with sce := modAt c.sce e (fun x =>
      if x.run = .waiting then { x with run := .running } else x) })
  | .desc id => s.updDesc id (fun d => { d with waiting := false })

/-- Removes an unresolved record and lets its waiters retry or end (R369). A CHANGE record declined ends with PERM_FAULT
(R370). -/
def State.resolve (s : State) (u : Unresolved) (end_ : Bool) : State :=
  let s1 := { s with xlt := { s.xlt with unresolved := s.xlt.unresolved.filter (fun x => decide (x.rcd.fid ≠ u.rcd.fid)) } }
  u.who.foldl (fun t w => if end_ then t.waiterEnd w (if u.rcd.change then stPerm else stXlate) else t.waiterRetry w u.rcd.change) s1

/-- R359: destroys a context: its ranges, its fault records resolved as END, the context itself. -/
def State.destroyCtx (s : State) (c : Nat) : State :=
  let s1 := ((s.ctx c).ranges.map (·.1)).foldl (fun t i => t.dropRange c i) s
  let s2 := (s1.xlt.unresolved.filter (fun u => decide (u.rcd.ctx = c))).foldl (fun t u => t.resolve u true) s1
  let s3 := { s2 with xlt := { s2.xlt with unrecorded := s2.xlt.unrecorded.filter (fun u => decide (u.rcd.ctx ≠ c)) } }
  s3.updCtx c (fun _ => Ctx.none)

/-- R371, step 5 and 6 of Table 4 of 13: the last use has ended and the change applies. -/
def State.drainEnd (s : State) : State :=
  match s.xlt.drain with
  | none => s
  | some (c, ranges, d) =>
    if s.inUse c ranges then s
    else
      let s0 : State := { s with xlt := { s.xlt with drain := none } }
      let s1 := s0.setDraining c ranges false
      match d with
      | .invalidate => s1.xltDone 6 0
      | .destroy i => (s1.dropRange c i).xltDone 4 0
      | .change i len perm => s0.applyChange c i len perm
      | .destroyCtx => (s1.destroyCtx c).xltDone 2 0
      | .winClose e =>
        let x := (Tab.get WinEntry.none s1.xlt.win e).closed
        { s1 with xlt := { s1.xlt with
          win := Tab.put WinEntry.none s1.xlt.win e x
          resultGen := x.gen } }.xltDone 9 0

/-! ## The command register -/

def State.xltCtxBad (s : State) (c : Nat) : Bool := !decide (c < s.img (·.maxCtx))

def State.xltRangeBad (s : State) (i : Nat) : Bool := !decide (i < s.img (·.rangesPerCtx))

/-- IN_USE of R372: the range is mapped to the host or under a move. -/
def State.rangeBusy (s : State) (c i : Nat) : Bool := s.mapped ((s.ctx c).range i) || s.moving c i

/-- R358: CTX_CREATE. -/
def State.ctxCreate (s : State) (c : Nat) : State :=
  let code := firstCode [(2, s.xltCtxBad c), (3, (s.ctx c).live),
    (6, decide (s.img (·.maxCtx) ≤ (s.ctxs.filter (fun e => e.2.live)).length))]
  if code ≠ 0 then s.xltDone 1 code
  else (s.updCtx c (fun _ => ⟨true, false, [], List.replicate 16 0⟩)).xltDone 1 0

/-- R359: CTX_DESTROY. -/
def State.ctxDestroy (s : State) (c : Nat) : State :=
  let x := s.ctx c
  let used := s.qmg.queues.any (fun e => decide (e.2.st ≠ .absent) && decide (e.2.ctx = c))
    || x.ranges.any (fun r => s.rangeBusy c r.1)
  let code := firstCode [(2, s.xltCtxBad c), (3, !x.live), (7, used)]
  if code ≠ 0 then s.xltDone 2 code else s.beginDrain 2 c (x.ranges.map (·.1)) .destroyCtx

/-- R361: RANGE_CREATE. -/
def State.rangeCreate (s : State) (c i : Nat) : State :=
  let a := argBytes s.xlt.arg
  let r := s.rangeOf a
  let x := s.ctx c
  let n := r.len / 65536
  let home := s.homeFor r.cls r.homeByte
  let al := if r.kind = .placed then s.alloc r.cls home n else none
  let overlap := x.vOverlap r 64
    || (decide (r.kind = .scratch) && x.ranges.any (fun e => e.2.valid && decide (e.2.kind = .scratch)))
    || (decide (r.kind = .device) && s.deviceBlocksBad (s.assigned ++ s.pendingSpans) (r.target / 65536) n)
  let code := firstCode [(2, s.xltCtxBad c || s.xltRangeBad i || !s.rangeArgOk a), (3, !x.live), (4, (x.range i).valid),
    (5, overlap), (6, decide (r.kind = .placed) && al.isNone)]
  if code ≠ 0 then s.xltDone 3 code
  else
    let s0 := s.writeEntry c i
    match r.kind, al with
    | .placed, some (m, segs) =>
      s0.install 3 c i { r with home := home, segs := segs } none (s0.fillFor m segs n)
    | .device, _ =>
      let r1 := { r with cls := s.dram.classOf (r.target / 2 ^ 24) }
      s0.install 3 c i r1 none (r1.blocks.filter (fun b => !nsHas s.dram.clean b))
    | _, _ => s0.install 3 c i r none []

/-- R372: RANGE_DESTROY. -/
def State.rangeDestroy (s : State) (c i : Nat) : State :=
  let code := firstCode [(2, s.xltCtxBad c || s.xltRangeBad i), (3, !(s.ctx c).live), (4, !((s.ctx c).range i).valid),
    (7, s.rangeBusy c i)]
  if code ≠ 0 then s.xltDone 4 code else s.beginDrain 4 c [i] (.destroy i)

/-- R372: RANGE_CHANGE. Only LENGTH and PERM may differ from the range's values. -/
def State.rangeChange (s : State) (c i : Nat) : State :=
  let a := argBytes s.xlt.arg
  let n := s.rangeOf a
  let r := (s.ctx c).range i
  let differs := r.valid && (decide (n.vbase ≠ r.vbase) || decide (n.target ≠ r.target) || decide (n.kind ≠ r.kind)
    || decide (n.clsByte ≠ r.clsByte) || decide (n.homeByte ≠ r.homeByte))
  let grow := s.growCode c i r n.len
  let code := firstCode [(2, s.xltCtxBad c || s.xltRangeBad i || !s.rangeArgOk a || differs), (3, !(s.ctx c).live),
    (4, !r.valid), (5, decide (grow = 5)), (6, decide (grow = 6)), (7, s.rangeBusy c i)]
  if code ≠ 0 then s.xltDone 5 code else s.beginDrain 5 c [i] (.change i n.len n.perm)

/-- R372: INVALIDATE of the ranges set in ARG[0]. -/
def State.invalidate (s : State) (c : Nat) : State :=
  let m := (s.xlt.arg.getD 0 0).toNat
  let rs := (List.range 64).filter (fun i => bit m i)
  let code := firstCode [(2, s.xltCtxBad c || rs.any s.xltRangeBad), (3, !(s.ctx c).live),
    (4, rs.any (fun i => !((s.ctx c).range i).valid))]
  if code ≠ 0 then s.xltDone 6 code else s.beginDrain 6 c rs .invalidate

/-- R369: RESOLVE. -/
def State.resolveCmd (s : State) : State :=
  let a := (s.xlt.arg.getD 0 0).toNat
  match s.xlt.unresolved.find? (fun u => decide (u.rcd.fid = bits a 0 32)) with
  | none => s.xltDone 7 8
  | some u => (s.resolve u (bit a 32)).xltDone 7 0

/-- R373: WIN_OPEN. -/
def State.winOpen (s : State) (c i e : Nat) : State :=
  let a := argBytes s.xlt.arg
  let off := leAt a 0 8
  let len := leAt a 8 8
  let ports := leAt a 0x10 2
  let perm := leAt a 0x12 1
  let r := (s.ctx c).range i
  let x := Tab.get WinEntry.none s.xlt.win e
  let argBad := !decide (off % 65536 = 0) || !decide (len % 65536 = 0) || !decide (65536 ≤ len) || decide (ports = 0)
    || !decide (perm < 4) || !decide (leAt a 0x13 13 = 0)
  let rangeBad := r.valid && ((decide (r.kind ≠ .device) && decide (r.kind ≠ .placed)) || decide (r.len < off + len)
    || (bit perm 0 && !r.perm.getLsbD 0) || (bit perm 1 && !r.perm.getLsbD 1))
  let code := firstCode [(2, s.xltCtxBad c || s.xltRangeBad i || argBad || rangeBad), (3, !(s.ctx c).live), (4, !r.valid),
    (7, x.valid)]
  if code ≠ 0 then s.xltDone 8 code
  else
    let g := x.gen + 1
    { s with
      dram := { s.dram with poison := nsDel s.dram.poison (0x40000 + e) }
      xlt := { s.xlt with
        win := Tab.put WinEntry.none s.xlt.win e
          ⟨true, g, c, i, off, len, BitVec.ofNat 16 ports, BitVec.ofNat 2 perm⟩
        resultGen := g } }.xltDone 8 0

/-- R373: WIN_CLOSE. -/
def State.winClose (s : State) (e : Nat) : State :=
  let x := Tab.get WinEntry.none s.xlt.win e
  s.beginDrain 9 x.ctx [] (.winClose e)

/-- R377, R378: a write of XLT.CMD. While BUSY every write is dropped; else a reserved OP discards it (R7). -/
def State.xltCmd (s : State) (v : Nat) : State :=
  let op := bits v 0 8
  if s.xlt.cmd.busy then { s with xlt := { s.xlt with cmd := s.xlt.cmd.drop } }
  else if op = 0 ∨ 9 < op then s
  else
    let c := bits v 36 12
    let i := bits v 16 6
    let e := bits v 22 14
    match op with
    | 1 => s.ctxCreate c
    | 2 => s.ctxDestroy c
    | 3 => s.rangeCreate c i
    | 4 => s.rangeDestroy c i
    | 5 => s.rangeChange c i
    | 6 => s.invalidate c
    | 7 => s.resolveCmd
    | 8 => s.winOpen c i e
    | _ => s.winClose e

/-- Writes of XLT registers at an offset of the block (Table 8 of 13); `m` masks the bits written. -/
def State.xltWrite (s : State) (off v m : Nat) : State :=
  let x := s.xlt
  match off with
  | 0x0000 => s.xltCmd (v &&& m)
  | 0x0008 => { s with xlt := { x with cmd := x.cmd.clear (v &&& m), sqLost := x.sqLost && !bit (v &&& m) 10 } }
  | 0x0018 => { s with xlt := { x with fqHead := merge x.fqHead v m % 256 } }
  | 0x0020 => { s with xlt := { x with sqHead := merge x.sqHead v m % 64 } }
  | _ => if 0x100 ≤ off ∧ off < 0x120 then { s with xlt := { x with arg := mergeAt x.arg ((off - 0x100) / 8) v m } } else s

/-! ## Events -/

/-- R365, R366: a translation that no other command shows, such as one of the instruction fetch, reads the range table for
a buffer that lacks the entry. -/
def State.rtbFill (s : State) (buf c i : Nat) : State :=
  if !((s.ctx c).range i).valid || ((s.ctx c).range i).draining || (s.xlt.rtb.getD buf []).contains (c * 64 + i) then s
  else s.rtbUse buf c i

/-- R368: a fault that waits unrecorded is written when room appears. -/
def State.deferredFault (s : State) : State :=
  match s.xlt.unrecorded with
  | [] => s
  | u :: r => if s.xlt.fqRoom then ({ s with xlt := { s.xlt with unrecorded := r } }).writeFault u else s

/-- R76: the zero-fill ends: blocks are clean, and the create or change that waited applies. Fills that the mirror
reserve, the stores or moves wait for are in `filling`. -/
def State.fillDone (s : State) : State :=
  let s1 := (s.fill s.xlt.fillWait).fill s.dram.filling
  let s2 : State := { s1 with
    dram := { s1.dram with filling := [] }
    xlt := { s1.xlt with fillWait := [], creating := none, tail := none } }
  match s.xlt.creating with
  | none => s2
  | some (c, i, r) => s2.applyRange s.xlt.cmd.op c i r s.xlt.tail

end Sys2Proof.Machine
end

