-- ==== Sys2Proof/Machine/Qmg.lean ====
section
/-!
DEFINITION. The queue manager: Q_CREATE and Q_DESTROY (R389, R408), queue actions (R404, R405), doorbells (R391, R392),
fetching (R390, R393), returned descriptors (R387, R395), completion records (R394), the context counters (R409) and its
register writes.
-/
namespace Sys2Proof.Machine

def State.qmgDone (s : State) (op code : Nat) : State := { s with qmg := { s.qmg with cmd := s.qmg.cmd.finish op code } }

/-- Sectors of the backing store that hold a queue's state (R390). -/
def State.storeSectors (s : State) (q : Nat) : List Nat := [s.qmg.store * 2048 + 2 * q, s.qmg.store * 2048 + 2 * q + 1]

/-- Clears the marks of a queue's stored state, which is written whole. -/
def State.writeStore (s : State) (q : Nat) : State :=
  { s with dram := { s.dram with poison := (s.storeSectors q).foldl nsDel s.dram.poison } }

/-- Table 13 of 14. -/
def qArgOk (a : List Byte) : Bool :=
  decide (leAt a 0 8 % 4096 = 0) && decide (leAt a 8 8 % 4096 = 0) && decide (6 ≤ leAt a 0x10 1)
    && decide (leAt a 0x10 1 ≤ 16) && decide (leAt a 0x11 1 = 0) && decide (1 ≤ leAt a 0x12 2)
    && decide (leAt a 0x12 2 ≤ 2047) && decide (leAt a 0x14 12 = 0)

/-- Queues of a context. -/
def State.queuesOf (s : State) (c : Nat) : List (Nat × Queue) :=
  s.qmg.queues.filter (fun e => decide (e.2.st ≠ .absent) && decide (e.2.ctx = c))

/-- Puts a queue at the front of the active-queue cache, evicting the least recently used one without a fetched
descriptor when it is full; where every cached queue has one, the cache stays as it is (R390). -/
def State.cacheQueue (s : State) (q : Nat) : State :=
  let l := s.qmg.cached.filter (· ≠ q)
  if l.length < 8192 then
    { s with qmg := { s.qmg with cached := q :: l, reading := s.qmg.reading.filter (· ≠ q) } }
  else
    match l.reverse.find? (fun x => (s.inflight x).isEmpty) with
    | some v => { s with qmg := { s.qmg with cached := q :: l.filter (· ≠ v), reading := s.qmg.reading.filter (· ≠ q) } }
    | none => s

/-- R390: a queue is needed: a cached one becomes the most recently used; for another the miss is counted and its state is
read from the store. -/
def State.needQueue (s : State) (q : Nat) : State :=
  if s.qmg.cached.contains q then s.cacheQueue q
  else if s.qmg.reading.contains q then s
  else { s with qmg := { s.qmg with aqcMiss := s.qmg.aqcMiss + 1, reading := s.qmg.reading ++ [q] } }

/-- R389: Q_CREATE. -/
def State.qCreate (s : State) (c slot q : Nat) : State :=
  let a := argBytes s.qmg.arg
  let mine := s.queuesOf c
  let code := firstCode [
    (2, !decide (q < s.img (·.totalQueues)) || s.xltCtxBad c || !decide (slot < s.img (·.queuesPerCtx)) || !qArgOk a),
    (3, !(s.ctx c).live), (4, decide ((s.queue q).st ≠ .absent) || mine.any (fun e => decide (e.2.slot = slot))),
    (5, decide (s.img (·.queuesPerCtx) ≤ mine.length))]
  if code ≠ 0 then s.qmgDone 1 code
  else
    let x : Queue :=
      { st := if (s.ctx c).killed then .dead else .opened, ctx := c, slot := slot, sqBase := leAt a 0 8
        cqBase := leAt a 8 8, log2 := leAt a 0x10 1, vector := leAt a 0x12 2, tail := 0, head := 0, cqHead := 0
        cqTail := 0, phase := true, overrun := false }
    (((s.updQueue q (fun _ => x)).writeStore q).cacheQueue q).qmgDone 1 0

/-- R408: Q_DESTROY. -/
def State.qDestroy (s : State) (q : Nat) : State :=
  let x := s.queue q
  let code := firstCode [(2, !decide (q < s.img (·.totalQueues))), (4, decide (x.st = .absent)),
    (6, (decide (x.st ≠ .closed) && decide (x.st ≠ .dead)) || !(s.inflight q).isEmpty)]
  if code ≠ 0 then s.qmgDone 2 code
  else
    let s1 := (s.updQueue q (fun _ => Queue.none)).writeStore q
    { s1 with qmg := { s1.qmg with
      cached := s1.qmg.cached.filter (· ≠ q)
      reading := s1.qmg.reading.filter (· ≠ q) } }.qmgDone 2 0

/-- R404, Table 8 of 14: a queue action, with its outcome in QCTL_CODE. -/
def State.qctl (s : State) (q act : Nat) : State :=
  let x := s.queue q
  let out := fun (t : State) (c : Nat) => { t with qmg := { t.qmg with qctlCode := c } }
  let idle := (s.inflight q).isEmpty
  if act = 0 ∨ 4 < act then s
  else if x.st = .absent then out s 1
  else
    match act with
    | 1 => if x.st = .opened then
        out (s.updQueue q (fun y => { y with st := if idle then .closed else .closing })) 0 else out s 2
    | 2 => if x.st = .opened ∨ x.st = .closing then out (s.abortQueue q) 0 else out s 2
    | 3 => if x.st = .closed then out (s.updQueue q (fun y => { y with st := .opened })) 0 else out s 2
    | _ => if x.st = .dead then out s 2 else out (s.updQueue q (fun y => { y with overrun := false })) 0

/-- A write of QMG.CMD. -/
def State.qmgCmd (s : State) (v : Nat) : State :=
  let op := bits v 0 8
  if s.qmg.cmd.busy then { s with qmg := { s.qmg with cmd := s.qmg.cmd.drop } }
  else if op = 0 ∨ 2 < op then s
  else if op = 1 then s.qCreate (bits v 48 12) (bits v 40 6) (bits v 20 18)
  else s.qDestroy (bits v 20 18)

/-- R409: CTX_RESET of the selected context's totals. -/
def State.ctxReset (s : State) : State :=
  if (s.ctx s.qmg.ctxSel).live then s.updCtx s.qmg.ctxSel (fun x => { x with totals := List.replicate 16 0 }) else s

/-- Writes of QMG registers (Table 11 of 14). -/
def State.qmgWrite (s : State) (off v m : Nat) : State :=
  let g := s.qmg
  match off with
  | 0x0000 => s.qmgCmd (v &&& m)
  | 0x0008 => { s with qmg := { g with cmd := g.cmd.clear (v &&& m) } }
  | 0x0010 => s.qctl (bits (v &&& m) 0 18) (bits (v &&& m) 18 3)
  | 0x0018 => { s with qmg := { g with qsel := merge g.qsel v m % 2 ^ 18 } }
  | 0x0028 => { s with qmg := { g with ctxSel := merge g.ctxSel v m % 4096 } }
  | 0x0030 => if bit (v &&& m) 0 then s.ctxReset else s
  | _ => if 0x100 ≤ off ∧ off < 0x120 then { s with qmg := { g with arg := mergeAt g.arg ((off - 0x100) / 8) v m } } else s

/-! ## Doorbells -/

/-- The queue behind a doorbell slot of a context. -/
def State.slotQueue (s : State) (c slot : Nat) : Option (Nat × Queue) :=
  (s.queuesOf c).find? (fun e => decide (e.2.slot = slot))

/-- Whether jobs may be started: SERVICE, not in Frost, and no entry to Frost in progress, which holds events until the
device is awake again (R51, R480). -/
def State.working (s : State) : Bool := decide (s.dev.life = .service) && !s.dev.frost && !s.pcm.frostEntry

/-- R391, R392: a write of SQ_TAIL. -/
def State.ringTail (s : State) (c slot v : Nat) : State :=
  match s.slotQueue c slot with
  | none => s
  | some (q, x) =>
    if x.st = .dead then s
    else if 2 ^ x.log2 ≤ v ∨ 2 ^ x.log2 - 1 < s.occupied q + (v + 2 ^ x.log2 - x.tail) % 2 ^ x.log2 then
      s.updQueue q (fun y => { y with overrun := true })
    else
      (s.updQueue q (fun y => { y with tail := v })).needQueue q

/-- R391: a write of CQ_HEAD. -/
def State.ringHead (s : State) (c slot v : Nat) : State :=
  match s.slotQueue c slot with
  | none => s
  | some (q, x) =>
    if x.st = .dead then s
    else if 2 ^ x.log2 ≤ v then s.updQueue q (fun y => { y with overrun := true })
    else (s.updQueue q (fun y => { y with cqHead := v })).needQueue q

/-! ## Fetching -/

/-- Whether the queue manager has a descriptor to fetch from a queue and may hold it (R393, R403). -/
def State.fetchable (s : State) (q : Nat) (x : Queue) : Bool :=
  decide (x.st = .opened) && decide (x.tail ≠ x.head)
    && decide (((s.inflight q).filter (fun d => decide (d.st = .reading) || decide (d.st = .fetched))).length < 4)

/-- R393: the queue served next: the first fetchable one in ascending number after the queue served last. -/
def State.nextQueue (s : State) : Option Nat :=
  let qs := (s.qmg.queues.filter (fun e => s.fetchable e.1 e.2)).map (·.1)
  match qs.find? (fun q => decide (s.qmg.lastServed < q)) with
  | some q => some q
  | none => qs.head?

/-- R393: issues the read of the next descriptor of the queue whose turn it is. On a miss of the active-queue cache the
device reads the queue's state first (R390). -/
def State.fetchDesc (s : State) : State :=
  if !s.working || !s.host.busMaster || s.host.d3hot then s
  else
    match s.nextQueue with
    | none => s
    | some q =>
      if !s.qmg.cached.contains q then s.needQueue q
      else
        let x := s.queue q
        let d : Desc :=
          { id := s.qmg.nextDesc, queue := q, index := x.head, ctx := x.ctx, st := .reading, raw := zeros 64, marks := []
            stop := false, pos := 0, detail := 0, status := 0, waiting := false, ready := false, stales := [] }
        let s1 := (s.cacheQueue q).updQueue q (fun y => { y with head := (y.head + 1) % 2 ^ y.log2 })
        { s1 with qmg := { s1.qmg with descs := s1.qmg.descs ++ [d], nextDesc := s1.qmg.nextDesc + 1, lastServed := q } }

/-- R390, R449: a queue's state returns from the backing store: it enters the cache, or its poison is consumed for the
queue's context. -/
def State.queueRead (s : State) (q : Nat) : State :=
  if !s.qmg.reading.contains q then s
  else if (s.storeSectors q).any (fun k => s.bad (32 * k)) then
    ({ s with qmg := { s.qmg with reading := s.qmg.reading.filter (· ≠ q) } }).consume (s.queue q).ctx 0xB 0xFF 0 q
      ((s.storeSectors q).find? (fun k => s.bad (32 * k)))
  else (s.unitRead .table (addrs (s.qmg.store * 65536 + 64 * q) 64)).cacheQueue q

/-- R387, R395: a fetched descriptor arrives: its poison is consumed, it is cancelled if it was stopped, it ends with
PERM_FAULT, or it waits to start. -/
def State.descReturn (s : State) (id : Nat) (raw : List Byte) (poison : Bool) : State :=
  match s.desc? id with
  | none => s
  | some d =>
    if d.st ≠ .reading then s
    else
      let bs := (raw ++ zeros 64).take 64
      let s1 := s.updDesc id (fun x => { x with raw := bs, st := .fetched })
      if poison then ((s1.markDesc id stPoison).consume d.ctx 0xB 0xFF 0 d.queue none).endDesc id stPoison
      else if d.stop then s1.endDesc id stOk
      else if !descOk bs then s1.endDesc id stPerm
      else s1

/-- R394: the record of the queue's descriptor that ended first is written when the completion ring has room and the
function may write host memory (R489). -/
def State.recordWrite (s : State) (q : Nat) : State :=
  let ds := s.qmg.ended.filterMap s.desc?
  match ds.find? (fun d => decide (d.queue = q)) with
  | none => s
  | some d => if (s.queue q).cqRoom && s.host.busMaster && !s.host.d3hot then s.writeRecord d else s

/-- R396: whether a fetched descriptor may start. -/
def State.canStart (s : State) (d : Desc) : Bool :=
  let before := (s.inflight d.queue).filter (fun x => decide (x.id < d.id))
  decide (d.st = .fetched) && s.working
    && (if d.async && decide (d.type ≠ tyFence) && decide (d.type ≠ tySignal) then
          before.all (fun x => decide (x.st = .running) || decide (x.st = .ended))
        else before.all (fun x => decide (x.st = .ended)))

/-- Starts a descriptor of a type that may start, or takes up one that runs and neither waits nor has passed its checks;
anything else is left as it is. -/
def State.starting (s : State) (id ty : Nat) (f : State → Desc → State) : State :=
  match s.desc? id with
  | none => s
  | some d =>
    if d.type ≠ ty then s
    else if s.canStart d then f (s.updDesc id (fun x => { x with st := .running })) d
    else if d.st = .running ∧ d.waiting = false ∧ d.ready = false ∧ s.working then f s d
    else s

end Sys2Proof.Machine
end

