-- ==== Sys2Proof/Machine/PowOps.lean ====
section
/-!
DEFINITION. Events that wake the device or an island (R482), and the clock from which idleness counts (R477).
-/
namespace Sys2Proof.Machine

def State.island (s : State) (i : Nat) : Island := s.pcm.islands.getD i (Island.reset i)

def State.updIsland (s : State) (i : Nat) (f : Island → Island) : State :=
  { s with pcm := { s.pcm with islands := modAt s.pcm.islands i f } }

/-- R477: an event addressed to an island restarts its idle time; one that is gated begins to wake (R482). -/
def State.wakeIsland (s : State) (i : Nat) : State :=
  s.updIsland i (fun x => { x with
    since := s.now
    waking := x.waking || decide (x.st = .lull) || decide (x.st = .calm) || decide (x.st = .off) })

/-- R480, R482: an event that wakes the device from Frost. In Frost, and while Frost entry is under way, the wake is due;
for the device as a whole the event restarts the idle time of every island. -/
def State.wakeDevice (s : State) : State :=
  { s with pcm := { s.pcm with
      frostWaking := s.pcm.frostWaking || s.dev.frost || s.pcm.frostEntry
      islands := s.pcm.islands.map (fun (x : Island) => { x with since := s.now }) } }

/-- The C island of a core: its cluster of eight cores (Table 1 of 17). -/
def cIsland (core : Nat) : Nat := core / 8

end Sys2Proof.Machine
end

