-- ==== Sys2Proof/Machine/Desc.lean ====
section
/-!
DEFINITION. The descriptors FENCE, WAIT, SIGNAL, TIMER and COPY (R398 to R401), the countdown timers' expiry (R475, R476)
and the window frames a COPY sends (R420).
-/
namespace Sys2Proof.Machine

/-- How an access of a descriptor goes on: translated, faulted, or waiting for a range that is being drained. -/
inductive Got where
  | ok (pas : List Nat)
  | stop (s : State)

/-- R364: a descriptor's access to n bytes. A translation fault waits on a record, a permission fault ends the
descriptor. -/
def State.descAccess (s : State) (d : Desc) (w : Reach) (n : Need) (va len : Nat) : Got :=
  match s.xlateSpan d.ctx w n va len with
  | .ok pas => .ok pas
  | .wait => .stop s
  | .fault 4 v _ => .stop ((s.postXlate d.ctx v n (.desc d.id) d.queue).updDesc d.id (fun x => { x with waiting := true }))
  | .fault _ _ _ => .stop (s.endDesc d.id stPerm)

/-- The sector of the first poisoned byte among physical addresses. -/
def State.badSector (s : State) (pas : List Nat) : Option Nat := (pas.find? s.bad).map (· / 32)

/-- R401: FENCE completes when it starts. -/
def execFence (id : Nat) (s : State) : Host.Outcome State Fault Refusal :=
  .next (s.starting id tyFence (fun t d => t.endDesc d.id stOk))

/-- R399: WAIT's condition on the word. -/
def waitHolds (cond word value : Nat) : Bool :=
  if cond = 0 then decide (value ≤ word) else if cond = 1 then decide (word = value) else decide (word ≠ value)

/-- R399, R449: WAIT reads its word as an acquire load; poison is consumed, and it completes when COND holds. Table 2 of 12
names no path for the word: it goes as a COPY's bytes do (notes/assumptions/109.md). -/
def State.waitRead (s : State) (d : Desc) : State :=
  match s.descAccess d .other .read (d.fld 0x10 8) 8 with
  | .stop t => t
  | .ok pas =>
    s.withRanges unitRtb d.ctx (vAddrs (d.fld 0x10 8) 8) (fun s =>
    if pas.any s.bad then s.consume d.ctx 0xB 0xFF 0 d.queue (s.badSector pas)
    else
      let w := leNat (s.rdAt pas)
      let s1 := (s.unitRead .stream pas).updDesc d.id (fun x => { x with detail := BitVec.ofNat 64 w })
      if waitHolds (d.fld 0x20 1) w (d.fld 0x18 8) then s1.endDesc d.id stOk else s1)

/-- R399: a WAIT starts. -/
def execWait (id : Nat) (s : State) : Host.Outcome State Fault Refusal := .next (s.starting id tyWait State.waitRead)

/-- R399: a WAIT in flight reads its word again. -/
def execWaitReevaluate (id : Nat) (s : State) : Host.Outcome State Fault Refusal :=
  match s.desc? id with
  | some d => .next (if d.type = tyWait ∧ d.st = .running ∧ d.waiting = false ∧ s.working then s.waitRead d else s)
  | none => .next s

/-- R335, R399, R449: SIGNAL updates its word at its home and reports the value before. ADD consumes poison; SET stores. A
SIGNAL that waits for the host's copy of the line stays at its start. -/
def State.signalDo (s : State) (d : Desc) : State :=
  match s.descAccess d .other .read (d.fld 0x10 8) 8 with
  | .stop t => t
  | .ok pas =>
    match s.descAccess d .other .write (d.fld 0x10 8) 8 with
    | .stop t => t
    | .ok _ =>
      s.withRanges unitRtb d.ctx (vAddrs (d.fld 0x10 8) 8) (fun s => s.whenRecalled (s.coreWaits pas) (fun s =>
      let old := leNat (s.rdAt pas)
      let add := decide (d.fld 0x20 1 = 1)
      if add && pas.any s.bad then s.consume d.ctx 0xB 0xFF 0 d.queue (s.badSector pas)
      else
        let new := if add then old + d.fld 0x18 8 else d.fld 0x18 8
        ((s.sliceAtomic pas).store (pas.zip (leBytes 8 new))).endDescWith d.id stOk (BitVec.ofNat 64 old)))

/-- R399: a SIGNAL starts. -/
def execSignal (id : Nat) (s : State) : Host.Outcome State Fault Refusal := .next (s.starting id tySignal State.signalDo)

/-! ## Timers -/

/-- R400, R476: a TIMER takes the lowest-numbered timer that is neither armed nor held, or waits. -/
def State.timerTake (s : State) (d : Desc) : State :=
  match findIdx? (fun (t : CTimer) => t.due.isNone && t.held.isNone) s.pcm.timers with
  | none => s
  | some i =>
    let s1 := { s with pcm := { s.pcm with timers := modAt s.pcm.timers i (fun t =>
      { t with due := some (s.now + d.fld 0x10 4), held := some d.id }) } }
    s1.updDesc d.id (fun x => { x with ready := true })

/-- R400: a TIMER starts, or takes a timer that has become free. -/
def execTimer (id : Nat) (s : State) : Host.Outcome State Fault Refusal := .next (s.starting id tyTimer State.timerTake)

/-- R475, R476: timer i expires once its time has come: EXPIRED is set, a TIMER that holds it completes, the timer is
free, and the device is awake for it (R482). -/
def execTimerExpiry (i : Nat) (s : State) : Host.Outcome State Fault Refusal :=
  match (s.pcm.timers.getD i ⟨none, none, false⟩) with
  | ⟨some due, held, _⟩ =>
    if s.now < due then .next s
    else
      let s1 := { s with pcm := { s.pcm with timers := modAt s.pcm.timers i (fun _ => ⟨none, none, true⟩) } }.wakeDevice
      match held with
      | some id => .next (s1.endDesc id stOk)
      | none => .next s1
  | _ => .next s

/-! ## COPY -/

/-- The WINDOW range that contains an address, with the offset in it. -/
def State.windowAt (s : State) (c va : Nat) : Option (Range × Nat × Nat) :=
  match (s.ctx c).at_ va with
  | some (i, r) => if r.kind = .window then some (r, i, va - r.vbase) else none
  | none => none

/-- TARGET of a WINDOW range (Table 1 of 13): ENTRY, GEN and PORT. -/
def Range.winEntry (r : Range) : Nat := bits r.target 0 14
def Range.winGen (r : Range) : Nat := bits r.target 16 16
def Range.winPort (r : Range) : Nat := bits r.target 32 4

/-- INFO of a WIN_WRITE or WIN_READ (Table 4 of 15). `a` and `b` are FIRST and LAST, or COUNT and 0. -/
def winInfo (entry gen rtag a b off : Nat) : List Byte :=
  leBytes 2 entry ++ leBytes 2 gen ++ leBytes 2 rtag ++ leBytes 1 a ++ leBytes 1 b ++ leBytes 8 off

/-- The first and past-the-last offsets of each frame of n bytes from window offset o: frames end at multiples of 1,024,
so each carries at most 1,024 payload bytes (R420). -/
def winCuts (o : Nat) : Nat → Nat → List (Nat × Nat)
  | _, 0 => []
  | n, fuel + 1 =>
    if n = 0 then [] else
      let k := min n (1024 - o % 1024)
      (o, o + k) :: winCuts (o + k) (n - k) fuel

/-- The payload of a WIN_WRITE of window bytes [o, o1) from physical addresses: whole sectors, zero beside the valid
bytes, and a mark for each sector that holds a poisoned byte. -/
def State.winPayload (s : State) (o o1 : Nat) (pas : List Nat) : List Byte × BitVec 32 :=
  let head := o % 32
  let tail := (32 - o1 % 32) % 32
  let bs := zeros head ++ s.rdAt pas ++ zeros tail
  let marks := (List.replicate head false) ++ pas.map s.bad
  let poison := (List.range (bs.length / 32)).foldl (fun (m : BitVec 32) k =>
    if ((marks.drop (32 * k)).take 32).any id then m ||| BitVec.ofNat 32 (2 ^ k) else m) 0
  (bs, poison)

/-- Sends one window frame of a COPY: window bytes [o, o1) at the COPY's byte `k`, `wr` from physical addresses `pas`,
and expects its answer. -/
def State.sendWin (s : State) (d : Desc) (r : Range) (k o o1 : Nat) (wr : Bool) (pas : List Nat) : State :=
  let p := r.winPort
  let tag := (s.port p).nextRtag
  let base := o / 32 * 32
  let f := if wr then
      let pl := s.winPayload o o1 pas
      { mkFrame 2 (winInfo r.winEntry r.winGen tag (o % 32) ((o1 - 1) % 32) base) pl.1 with poison := pl.2 }
    else mkFrame 3 (winInfo r.winEntry r.winGen tag ((o1 - base + 31) / 32) 0 base) []
  (s.updPort p (fun x => { x with
    wins := x.wins ++ [⟨tag, d.id, k, o, o1 - o, wr⟩]
    nextRtag := (tag + 1) % 65536 })).enqueue p f (.copy d.id k) false

/-- Window answers outstanding of a COPY. -/
def State.winsOf (s : State) (id : Nat) : List WinReq := s.ports.flatMap (fun p => p.wins.filter (fun w => decide (w.desc = id)))

/-- Bytes of the chunk at a COPY's position (R398). -/
def Desc.chunkLen (d : Desc) (pos : Nat) : Nat := min 65536 (d.fld 0x20 8 - pos)

/-- Of n bytes from a virtual address, those that lie in its range. -/
def Ctx.runLen (x : Ctx) (va n : Nat) : Nat := match x.at_ va with | some (_, r) => min n (r.vbase + r.len - va) | Option.none => n

/-- The pieces of n bytes of a COPY from its byte k in which neither extent leaves its range: first byte and length. A
chunk meets at most two ranges on each side, which are multiples of 64 KiB. -/
def State.copyRuns (s : State) (d : Desc) : Nat → Nat → Nat → List (Nat × Nat)
  | _, _, 0 => []
  | k, n, fuel + 1 =>
    if n = 0 then [] else
      let x := s.ctx d.ctx
      let m := x.runLen (d.fld 0x18 8 + k) (x.runLen (d.fld 0x10 8 + k) n)
      (k, m) :: s.copyRuns d (k + m) (n - m) fuel

/-- The WINDOW range of a COPY's byte k, its window offset, and whether the COPY writes it. -/
def State.copyWindow (s : State) (d : Desc) (k : Nat) : Option (Range × Nat × Bool) :=
  match s.windowAt d.ctx (d.fld 0x10 8 + k) with
  | some (r, _, o) => some (r, o, false)
  | none => (s.windowAt d.ctx (d.fld 0x18 8 + k)).map (fun x => (x.1, x.2.2, true))

/-- R420: the window frames of a piece of a COPY; none for a piece that lies in no window. -/
def State.runFrames (s : State) (d : Desc) (k n : Nat) : State :=
  match s.copyWindow d k with
  | none => s
  | some (r, o, wr) =>
    let loc := if wr then d.fld 0x10 8 + k else d.fld 0x18 8 + k
    (winCuts o n n).foldl (fun t c =>
      match t.xlateSpan d.ctx .copy (if wr then .read else .write) (loc + (c.1 - o)) (c.2 - c.1) with
      | .ok pas => (if wr then t.unitRead .stream pas else t).sendWin d r (k + (c.1 - o)) c.1 c.2 wr pas
      | _ => t) s

/-- R420: the window frames of the chunk at `pos`, of n bytes; none while a port they need is closed (R442). -/
def State.copyFrames (s : State) (d : Desc) (n : Nat) : Option State :=
  let runs := s.copyRuns d d.pos n 8
  let shut := fun (x : Nat × Nat) => match s.copyWindow d x.1 with | some (r, _, _) => (s.port r.winPort).close | none => false
  if runs.any shut then none else some (runs.foldl (fun t x => t.runFrames d x.1 x.2) s)

/-- R398, R364: begins the chunk at `pos`, once its bytes translate. A running COPY's `detail` counts the bytes begun and
`pos` those performed. -/
def State.copyIssue (s : State) (d : Desc) : State :=
  let n := d.chunkLen d.pos
  match s.descAccess d .copy .read (d.fld 0x10 8 + d.pos) n with
  | .stop t => t
  | .ok _ =>
    match s.descAccess d .copy .write (d.fld 0x18 8 + d.pos) n with
    | .stop t => t
    | .ok _ =>
      s.withRanges unitRtb d.ctx (vAddrs (d.fld 0x10 8 + d.pos) n ++ vAddrs (d.fld 0x18 8 + d.pos) n) (fun s =>
      match s.copyFrames d n with
      | none => s
      | some t => t.updDesc d.id (fun x => { x with detail := BitVec.ofNat 64 (d.pos + n) }))

/-- R398: COPY's checks in order: SRC, DST, at most one window, overlap. -/
def State.copyStart (s : State) (d : Desc) : State :=
  let len := d.fld 0x20 8
  let src := d.fld 0x10 8
  let dst := d.fld 0x18 8
  match s.descAccess d .copy .read src len with
  | .stop t => t
  | .ok _ =>
    match s.descAccess d .copy .write dst len with
    | .stop t => t
    | .ok _ =>
      let win := fun (va : Nat) => (vAddrs va len).any (fun a => (s.windowAt d.ctx a).isSome)
      if win src && win dst then s.endDesc d.id stPerm
      else if src < dst + len ∧ dst < src + len then s.endDesc d.id stPerm
      else (s.updDesc d.id (fun x => { x with ready := true })).copyIssue d

/-- R398: a COPY starts. -/
def execCopy (id : Nat) (s : State) : Host.Outcome State Fault Refusal := .next (s.starting id tyCopy State.copyStart)

/-- R13, R398, R405: where a COPY stands after a chunk: it completes after the last byte, stops if it is being cancelled, and
otherwise goes on. -/
def State.copyNext (s : State) (d : Desc) (pos : Nat) : State :=
  let s1 := s.updDesc d.id (fun x => { x with pos := pos })
  if d.fld 0x20 8 ≤ pos then s1.finishDesc d.id (BitVec.ofNat 64 pos)
  else if d.stop then s1.endDescWith d.id stOk (BitVec.ofNat 64 pos)
  else s1.copyIssue { d with pos := pos }

/-- R398, R340, R371: the bytes of the chunk begun that lie in no window are moved, marks with them. `detail` counts the
bytes begun, so the chunk is the one that ends there. -/
def State.copyChunk (s : State) (d : Desc) : State :=
  let e := d.detail.toNat
  let k0 := (e - 1) / 65536 * 65536
  let x := (s.ctx d.ctx).held
  let ks := (addrs k0 (e - k0)).filter (fun k => (s.copyWindow d k).isNone)
  match x.span .copy .read (ks.map (fun k => (d.fld 0x10 8 + k) % 2 ^ 64)),
      x.span .copy .write (ks.map (fun k => (d.fld 0x18 8 + k) % 2 ^ 64)) with
  | .ok ps, .ok pd =>
    s.whenRecalled (s.moveWaits .stream (ps.zip pd)) (fun s => (s.unitMove .stream (ps.zip pd)).copyNext d e)
  | _, _ => s

/-- R398: a 64 KiB chunk of a COPY is performed. For a window, that is when every frame of it has been answered; a chunk
that a closed port or a range being drained kept back begins when it can. -/
def execCopyChunkDone (id : Nat) (s : State) : Host.Outcome State Fault Refusal :=
  match s.desc? id with
  | none => .next s
  | some d =>
    if !(decide (d.type = tyCopy) && decide (d.st = .running) && d.ready && !d.waiting) then .next s
    else if !(s.winsOf id).isEmpty then .next s
    else if d.detail.toNat ≤ d.pos then .next (s.copyNext d d.pos)
    else .next (s.copyChunk d)

end Sys2Proof.Machine
end

