-- ==== Sys2Proof/Machine/Ident.lean ====
section
/-!
DEFINITION. The device's identity and its certificates (R98, R99), the chain of certificate slot 0 (R100), and the keys of a
link (R103).
-/
namespace Sys2Proof.Machine

/-- The bytes of a digest (R35). -/
def digestBytes (d : Digest) : List Byte := leBytes 64 d.toNat

/-- The ASCII bytes of a label. -/
def ascii (l : List Nat) : List Byte := l.map (BitVec.ofNat 8)

/-- The first 32 bytes of a digest. -/
def seed32 (d : Digest) : List Byte := (digestBytes d).take 32

/-- R98: the seed of the identity key pair, from "SY-DEVID" and UDS. -/
def identitySeed : List Byte :=
  seed32 (Config.sha3 (ascii [0x53, 0x59, 0x2D, 0x44, 0x45, 0x56, 0x49, 0x44] ++ Config.uds))

/-- R98: the identity public key. -/
def identityKey : List Byte := Config.mldsaPublic identitySeed

/-- R98: the identity digest. -/
def identity : List Byte := seed32 (Config.sha3 identityKey)

/-- R99: the seed of the boot key pair, from "SY-ALIAS", UDS and the values of slots 2 and 3. -/
def bootKeySeed (slot2 slot3 : Digest) : List Byte :=
  seed32 (Config.sha3 (ascii [0x53, 0x59, 0x2D, 0x41, 0x4C, 0x49, 0x41, 0x53] ++ Config.uds ++ digestBytes slot2
    ++ digestBytes slot3))

/-- R99: the certificate that the boot ROM issues for the boot key: it carries the values of slots 2 and 3 and the running
SVN, and the identity key signs it. -/
def certFor (slot2 slot3 : Digest) (svn issue : Nat) : List Byte :=
  let body := Config.certBody (Config.mldsaPublic (bootKeySeed slot2 slot3))
    (digestBytes slot2 ++ digestBytes slot3 ++ leBytes 2 svn) issue
  body ++ Config.mldsaSign identitySeed body

/-- R100: the certificate chain of slot 0: root, intermediate, identity and boot certificate. -/
def State.chain (s : State) : List Byte :=
  Config.factoryCert 0 ++ Config.factoryCert 1 ++ Config.factoryCert 2 ++ s.svm.bootCert

/-- Measurement indices 1 to n: slots 0 to n − 1. -/
def State.measured (s : State) (n : Nat) : List Byte := (List.range n).flatMap (fun i => digestBytes (s.svm.slots.getD i 0))

/-- R103: a direction's key: from the shared secret, the transcript hash and the label "SYLNK i>r" or "SYLNK r>i". -/
def linkKey (secret : List Byte) (th : Digest) (fromInitiator : Bool) : List Byte :=
  seed32 (Config.sha3 (secret ++ digestBytes th ++ ascii ([0x53, 0x59, 0x4C, 0x4E, 0x4B, 0x20]
    ++ (if fromInitiator then [0x69, 0x3E, 0x72] else [0x72, 0x3E, 0x69]))))

/-- R103: the AES-256-GCM nonce of a frame: 32 zero bits, then the direction's 64-bit frame count. -/
def linkNonce (count : Nat) : List Byte := zeros 4 ++ leBytes 8 count

end Sys2Proof.Machine
end

