-- ==== Sys2Proof/Machine/PortOps.lean ====
section
/-!
DEFINITION. Ports: their states (R413), admission (R102 to R106, R416), loss (R415), received frames (R418), credit and
egress (R419), and the twin controller's state as ports and heartbeat move it (R435, R436, R439).
-/
namespace Sys2Proof.Machine

/-! ## The twin controller's state -/

/-- Whether both twin ports are in SERVICE with one peer, and that peer. -/
def State.twinPeer (s : State) : Option Ident :=
  if s.twinPorts = [14, 15] ∧ (s.port 14).peer = (s.port 15).peer then (s.port 14).peer else none

/-- R436: on leaving PAIRING this device reports RESUMED or FRESH to its twin. -/
def State.reportTwin (s : State) : State :=
  let resumed := s.twc.kept && decide (s.twc.reserveOf = s.twc.peer)
  s.enqueue 14 (ctrlFrame 9 (leBytes 1 (bnat resumed) ++ zeros 31)) .none false

/-- R436: the transitions of Table 8 that ports and heartbeat allow. -/
def State.twinMove (s : State) : State :=
  match s.twc.st with
  | .pairing =>
    match s.twinPeer with
    | some p =>
      if s.twc.hbLive then
        ({ s with twc := { s.twc with
          peer := some p
          st := if s.twc.emptied then .unmirrored else .paired } }).reportTwin
      else s
    | none => s
  | .paired => if (s.port 14).lost && (s.port 15).lost then { s with twc := { s.twc with st := .unmirrored } } else s
  | .unmirrored =>
    if !s.twinPorts.isEmpty && !s.twc.emptied then { s with twc := { s.twc with st := .paired } } else s
  | _ => s

/-- Ends the TWC command with a code. -/
def State.twcDone (s : State) (op code detail : Nat) : State :=
  { s with twc := { s.twc with cmd := s.twc.cmd.finish op code, detail := detail, run := none } }

/-- R438, R439, R441: the heartbeat is lost: from PAIRED or UNMIRRORED the twin is released, every entry held for it is
retained, CHECKPOINTs end TWIN_LOST and a SEND ends with code TWIN_LOST. -/
def State.heartbeatLost (s : State) : State :=
  let s0 := { s with twc := { s.twc with hbLive := false } }
  if s.twc.st = .paired ∨ s.twc.st = .unmirrored then
    let cat := Tab.mapAll none s0.twc.cat (fun _ (e : Option CatEntry) => e.map (fun (x : CatEntry) =>
      if x.kind ≠ .retained ∧ some x.origin = s0.twc.peer then { x with kind := .retained } else x))
    let s1 : State := { s0 with twc := { s0.twc with st := .released, cat := cat } }
    let ids := (s1.qmg.descs.filter (fun d => decide (d.type = tyCheckpoint) && decide (d.st = .running))).map (·.id)
    let s2 := ids.foldl (fun t i => (t.dropCkpt i).endDescWith i stTwin (BitVec.ofNat 64 (t.ckptBytes i))) s1
    match s2.twc.run with
    | some r => if r.send then s2.twcDone 2 9 0 else s2
    | none => s2
  else s0

/-! ## What a port may send -/

/-- Frames a port in a state receives (Table 1 of 15): TRAIN and KEEPALIVE when trained or refused, CTRL in admission,
every frame that the role permits in SERVICE. -/
def PortSt.receives (st : PortSt) (type op : Nat) : Bool :=
  match st with
  | .trained => decide (type = 1) && (decide (op = 1) || decide (op = 6))
  | .refused => decide (type = 1) && (decide (op = 1) || decide (op = 6))
  | .admitting => decide (type = 1)
  | .service => true
  | _ => false

/-- The requester of the egress arbiter that a frame uses (R419). -/
def egressReq (type : Nat) : Nat :=
  if type = 8 then 1 else if type = 9 then 2 else if [2, 3, 4, 5].contains type then 3 else 0

/-- Credits a frame uses (R419). -/
def Frame.credits (f : Frame) : Nat := max 1 f.sectors

/-- Whether a frame uses credit: a CTRL CREDIT frame does not, and outside SERVICE none does (notes/assumptions/22.md). -/
def Port.charges (x : Port) (f : Frame) : Bool :=
  decide (x.st = .service) && !(decide (f.type = 1) && decide (leAt f.info 0 1 = 5))

/-- Whether a port may send a frame now: its state carries it, and its VLANE has the credit it uses. -/
def Port.maySend (x : Port) (f : OutFrame) : Bool :=
  !f.held && x.st.receives f.frame.type (leAt f.frame.info 0 1)
    && (!x.charges f.frame || decide (f.frame.credits ≤ x.credit.getD f.frame.vlane 0))

/-- The frame a requester would send: the first of its frames that is the first of its VLANE and may be sent. -/
def Port.nextOf (x : Port) (r : Nat) : Option OutFrame :=
  x.queue.find? (fun f => decide (egressReq f.frame.type = r) && x.maySend f
    && decide ((x.queue.find? (fun g => decide (g.frame.vlane = f.frame.vlane) && !g.held)) = some f))

/-- R27, R28: the egress arbiter once frames have left the queue or may no longer be sent. -/
def Port.settled (x : Port) : Port := { x with egress := x.egress.settle (fun r => (x.nextOf r).isSome) }

/-! ## Port states -/

/-- What admission and key exchange have reached is gone (R103, R413). -/
def Port.unadmitted (x : Port) : Port :=
  { x with
    seen := none
    initiator := false
    asked := 0
    answered := 0
    admitted := false
    proofSent := false
    proofOk := false
    transcript := []
    kemKey := none
    txKey := none
    rxKey := none
    nextTx := none
    nextRx := none
    keyed := false
    rekeying := false }

/-- R413: a port leaves SERVICE, or another state, for a new one. In RELOCK alone its admission and keys stand. -/
def State.setPort (s : State) (p : Nat) (st : PortSt) : State :=
  s.updPort p (fun x =>
    { (if st = .service ∨ st = .relock then x else x.unadmitted) with
      st := st
      outSince := if x.st = .service then s.now else x.outSince
      relockAt := if st = .relock then s.now else x.relockAt
      badTags := 0 })

/-- R413, R416: a port is refused with a check code, and a PORT record is written. -/
def State.refuse (s : State) (p check : Nat) : State :=
  ((s.setPort p .refused).updPort p (fun x => { x with check := check })).post (portRecord p (0x10 + check))

/-- Whether a frame belongs to admission or key exchange: CTRL SPDM, KEM and KEYMARK. -/
def Frame.ofAdmission (f : Frame) : Bool :=
  decide (f.type = 1) && [2, 3, 4].contains (leAt f.info 0 1)

/-- R102, R106: a trained port begins admission in SERVICE when its role is not off, and tells the peer its identity digest;
a device without an alias secret key is refused. What an earlier exchange left to send is dropped. A twin port that
reaches ADMITTING ends RELEASED (Table 8 of 15). -/
def State.startAdmission (s : State) (p : Nat) : State :=
  let s1 := (s.setPort p .admitting).updPort p (fun x => { x with
    check := 0, peer := none, queue := x.queue.filter (fun f => !f.frame.ofAdmission) })
  let s2 := if s.role p = 2 ∧ s1.twc.st = .released then { s1 with twc := { s1.twc with st := .pairing } } else s1
  if s.svm.aliasSeed.isNone then s2.refuse p 8
  else s2.enqueue p (ctrlFrame 2 identity) .none true

/-- R413: a port whose training ends. Outside SERVICE it stays in TRAINED. -/
def State.trained (s : State) (p : Nat) : State :=
  if s.dev.life = .service ∧ s.role p ≠ 0 then s.startAdmission p else s.setPort p .trained

/-- R413, R418, R421: admission and key exchange are complete: the port is in SERVICE, LOST clears, the frames that are
unacknowledged are encrypted again under the new key with the first counts, and the node number is sent to the
neighbour. The exchange's transcript is gone. -/
def State.enterService (s : State) (p : Nat) : State :=
  let s1 := s.updPort p (fun x => { x with
    st := .service
    rekeying := false
    hadService := true
    lost := false
    quietSince := s.now
    owed := (List.range 5).map Config.rxBuffer
    transcript := []
    unacked := (x.unacked.zip (List.range x.unacked.length)).map (fun (f : OutFrame × Nat) => { f.1 with count := f.2 })
    frameCount := x.unacked.length
    replays := x.replays + BitVec.ofNat 64 x.unacked.length })
  let s2 := if s.cle.nodeValid then s1.enqueue p (ctrlFrame 7 (leBytes 2 s.cle.node ++ zeros 30)) .none false else s1
  s2.twinMove

/-- R413: RETRAINING begins. -/
def State.retrainPort (s : State) (p : Nat) : State :=
  let st := (s.port p).st
  if st = .service ∨ st = .relock ∨ st = .refused then s.setPort p .retraining else s

/-- Outside SERVICE no port goes beyond TRAINED (R412, R57): links stop, keys and frames are gone, notices end. -/
def Port.leaveService (x : Port) : Port :=
  { x.unadmitted with
    st := match x.st with
      | .off => .down
      | .admitting => .trained
      | .service => .trained
      | .refused => .trained
      | .relock => .training
      | .retraining => .training
      | y => y
    check := 0
    lost := false
    peer := none
    peerNode := none
    hadService := false
    queue := []
    unacked := []
    nextLseq := 0
    lastRx := 0xFFFFFFFF
    credit := List.replicate 5 0
    owed := List.replicate 5 0
    egress := Arb.reset 4
    notices := []
    frameCount := 0
    rxMarked := false
    badTags := 0
    wins := []
    nextRtag := 0 }

/-! ## Loss of a port and of a node -/

/-- Whether a COPY's window frame has not left the egress. -/
def Port.unsent (x : Port) (w : WinReq) : Bool := x.queue.any (fun f => decide (f.of = .copy w.desc w.pos))

/-- COPYs with a frame that is sent on a port and not acknowledged, by the link or by its window answer (R415, R420). -/
def Port.copies (x : Port) : List Nat :=
  (x.unacked.filterMap (fun f => match f.of with | .copy d _ => some d | _ => none)
    ++ (x.wins.filter (fun w => !x.unsent w)).map (·.desc)).eraseDups

/-- Forgets the window answers and the queued frames of a COPY. -/
def State.dropWins (s : State) (id : Nat) : State :=
  { s with ports := s.ports.map (fun (p : Port) => Port.settled { p with
      wins := p.wins.filter (fun w => decide (w.desc ≠ id))
      queue := p.queue.filter (fun f => match f.of with | .copy d _ => decide (d ≠ id) | _ => true) }) }

/-- R434: a node joins the lost set, and every collective whose group holds it ends with LINK_LOST. -/
def State.loseNode (s : State) (node : Nat) : State :=
  let s1 := { s with cle := { s.cle with lost := nsIns s.cle.lost node } }
  let ids := (s1.cle.colls.filter (fun c => c.nodes.contains node)).map (·.desc)
  ids.foldl (fun t i => t.endColl i stLink (some stLink)) s1

/-- Fabric ports in SERVICE. -/
def State.fabricPorts (s : State) : List Nat := (List.range 16).filter s.fabricUp

/-- INFO of a LOST notice (Table 4 of 15). -/
def lostInfo (node reporter hops event : Nat) : List Byte :=
  leBytes 2 node ++ leBytes 2 reporter ++ leBytes 1 hops ++ zeros 3 ++ leBytes 4 event ++ zeros 4

/-- Mirror frames of a lost twin port go out on the other twin port (R441). -/
def State.moveMirror (s : State) (p : Nat) : State :=
  let q := if p = 14 then 15 else 14
  if s.role p = 2 ∧ s.twinPorts.contains q then
    let isM := fun (f : OutFrame) => decide (f.frame.type = 9)
    let x := s.port p
    let fs := (x.unacked ++ x.queue).filter isM
    (s.updPort p (fun y => Port.settled { y with
      unacked := y.unacked.filter (fun f => !isM f)
      queue := y.queue.filter (fun f => !isM f) })).updPort q (fun y => { y with queue := y.queue ++ fs })
  else s

/-- R415: a port is declared lost. -/
def State.losePort (s : State) (p : Nat) : State :=
  let x := s.port p
  let s1 := (s.updPort p (fun y => { y with lost := true })).post (portRecord p 0)
  let s2 := match x.peerNode with
    | none => s1
    | some n =>
      let ev := s1.cle.nextEvent
      let t : State := { s1 with cle := { s1.cle with nextEvent := (ev + 1) % 2 ^ 32, seen := (n, s1.cle.node, ev) :: s1.cle.seen } }
      ((t.fabricPorts.filter (· ≠ p)).foldl (fun (u : State) q =>
        u.enqueue q (mkFrame 0xD (lostInfo n s1.cle.node 0 ev) []) .none true) t).loseNode n
  let s3 := x.copies.foldl (fun t i =>
    match t.desc? i with
    | some d => (t.dropWins i).endDescWith i stLink (BitVec.ofNat 64 d.pos)
    | none => t) s2
  (s3.moveMirror p).twinMove

/-! ## Received frames -/

/-- The distance from sequence number b up to a, modulo 2^32. -/
def seqDist (a b : Nat) : Nat := (a + 2 ^ 32 - b) % 2 ^ 32

/-- Whether a port's role permits a frame type (R412): window, collective and WAKE frames on fabric ports, mirror frames
on twin ports, control frames and notices on both. -/
def roleTakes (role type : Nat) : Bool :=
  if [2, 3, 4, 5, 8, 0xE, 0xF].contains type then decide (role = 1)
  else if type = 9 ∨ type = 0xA then decide (role = 2) else true

/-- R413: the eighth frame in a row whose tag fails starts a retrain; any other is discarded, counted and asked for
again (R418). -/
def State.tagFailed (s : State) (p : Nat) : State :=
  let x := s.port p
  let s1 := s.updPort p (fun y => { y with tagFail := y.tagFail + 1, badTags := y.badTags + 1 })
  if 7 ≤ x.badTags then s1.retrainPort p
  else s1.enqueue p (ctrlFrame 0xA (leBytes 4 ((x.lastRx + 1) % 2 ^ 32) ++ zeros 28)) .none true

/-- R413, R415: a frame whose tag verifies: the run of failing tags ends, and the port is not quiet. -/
def State.validFrame (s : State) (p : Nat) : State :=
  s.updPort p (fun x => { x with badTags := 0, quietSince := s.now })

/-- R418, R419: a valid frame in order: it is accepted, the credit that it used is owed again, and what its ACK covers is
released. -/
def State.accept (s : State) (h : RxHdr) (type op bytes : Nat) : State :=
  s.updPort h.port (fun x => { x with
    owed := if x.st = .service ∧ ¬(type = 1 ∧ op = 5) then modAt x.owed (laneOf type) (· + max 1 (ceilDiv bytes 32)) else x.owed
    lastRx := h.lseq
    rxBytes := x.rxBytes + BitVec.ofNat 64 bytes
    unacked := x.unacked.filter (fun f => !decide (seqDist h.ack f.lseq < 2 ^ 31)) })

/-- R413, R418, R482: a frame arrives: it is refused by the port's state or role, fails its tag, repeats one accepted, is
out of order, or is accepted and takes effect. A frame other than KEEPALIVE, HOLD or LOST wakes the device. -/
def State.rx (s : State) (h : RxHdr) (type op bytes : Nat) (f : State → State) : State :=
  let x := s.port h.port
  if !x.st.receives type op || (decide (x.st = .service) && !roleTakes (s.role h.port) type) then s
  else
    let s0 := if type = 0xC ∨ type = 0xD ∨ (type = 1 ∧ op = 6) then s else s.wakeDevice
    if !h.tagOk then s0.tagFailed h.port
    else if h.lseq ≠ (x.lastRx + 1) % 2 ^ 32 then s0.validFrame h.port
    else f ((s0.validFrame h.port).accept h type op bytes)

/-- A LINK_POISON record for each poisoned sector that a frame brings; `entry` is its window entry (R340, R452). -/
def State.linkPoison (s : State) (h : RxHdr) (entry : Nat) : State :=
  ((List.range 32).filter (fun k => h.poison.getLsbD k)).foldl (fun t _ =>
    t.post (((LogRec.mk0 5 sevRecoverable 0 8).withIndex h.port).withQueue entry)) s

/-! ## Egress -/

/-- Removes the first frame equal to one. -/
def dropFirst (f : OutFrame) : List OutFrame → List OutFrame
  | [] => []
  | g :: r => if g = f then r else g :: dropFirst f r

/-- R103: a fresh encapsulation key goes to the partner, with this device's signature over the transcript so far
(notes/assumptions/117.md). In SERVICE it begins the transcript of a change of key. -/
def State.offerKey (s : State) (p : Nat) : State :=
  let k := Config.kemGen s.free
  let x := s.port p
  let tr := (if x.st = .service then [] else x.transcript) ++ k.1
  ((s.drawn.updPort p (fun y => { y with kemKey := some k.2, transcript := tr })).enqueue p
    (ctrlFrame 3 (k.1 ++ Config.mldsaSign (s.svm.aliasSeed.getD []) tr)) .none true)

/-- R104: a sender in SERVICE starts a new exchange for its direction. -/
def State.startRekey (s : State) (p : Nat) : State :=
  if (s.port p).st = .service ∧ (s.port p).rekeying = false then
    (s.updPort p (fun x => { x with rekeying := true })).offerKey p
  else s

/-- The frame count at which the device starts a new exchange by itself, well before the count of R104 (DESIGN CHOICE,
notes/assumptions/117.md). -/
def rekeyAt : Nat := 2 ^ 35

/-- R104: what a sent frame does to its direction's key: a KEYMARK puts the new key in use for the next frame, whose count
is 0; any other frame counts. -/
def Port.sent (x : Port) (f : Frame) : Port :=
  if f.type = 1 ∧ leAt f.info 0 1 = 4 then
    { x with txKey := x.nextTx, nextTx := none, rekeying := false, frameCount := 0 }
  else { x with frameCount := x.frameCount + 1 }

/-- R419: a port in SERVICE that owes its partner credit queues a CTRL CREDIT with it: five 32-bit counts. -/
def State.grantCredit (s : State) (p : Nat) : State :=
  let x := s.port p
  if x.st = .service ∧ x.owed.any (fun n => decide (0 < n)) = true then
    (s.updPort p (fun y => { y with owed := List.replicate 5 0 })).enqueue p
      (ctrlFrame 5 (x.owed.flatMap (leBytes 4) ++ zeros 12)) .none true
  else s

/-- R104, R418, R419: the port grants the credit it owes and sends the frame its arbiter grants; the sender keeps it until it is acknowledged. No frame is
sent whose count would reach 2^36. -/
def State.egress (s : State) (p : Nat) : State :=
  let s := s.grantCredit p
  let x := s.port p
  if 512 ≤ x.unacked.length ∨ 2 ^ 36 ≤ x.frameCount + 1 then s
  else
    match x.egress.serve egressParams (fun r => (x.nextOf r).isSome) with
    | none => s
    | some (r, a) =>
      match x.nextOf r with
      | none => s
      | some f =>
        let c := f.frame.credits
        let s1 := s.updPort p (fun y => Port.settled (Port.sent { y with
          egress := a
          queue := dropFirst f y.queue
          unacked := y.unacked ++ [{ f with lseq := y.nextLseq, count := y.frameCount }]
          nextLseq := (y.nextLseq + 1) % 2 ^ 32
          txBytes := y.txBytes + BitVec.ofNat 64 f.frame.payload.length
          credit := if y.charges f.frame then modAt y.credit f.frame.vlane (· - c) else y.credit } f.frame))
        if rekeyAt ≤ (s1.port p).frameCount then s1.startRekey p else s1

/-! ## LNK.CTL -/

/-- R442: aborts a port: every COPY, COLLECTIVE and CHECKPOINT with a frame queued or unacknowledged on it is cancelled. -/
def State.abortPort (s : State) (p : Nat) : State :=
  let x := s.port p
  let ids := ((x.queue ++ x.unacked).filterMap (fun f =>
    match f.of with
    | .copy d _ => some d
    | .mirror d => some d
    | .coll g q => (s.cle.colls.find? (fun c => decide (c.group = g) && decide (c.seq = q))).map (·.desc)
    | .none => none)).eraseDups
  s.cancelAll ids stCancelled 7

/-- R442: CLOSE of a port; frames kept back are sent once it opens. -/
def State.closePort (s : State) (p : Nat) (b : Bool) : State :=
  s.updPort p (fun x => { x with
    close := b
    queue := if b then x.queue else x.queue.map (fun (f : OutFrame) => { f with held := false }) })

/-- Writes of an LNK instance (Table 12, Table 13 of 15); `m` masks the bits written. -/
def State.lnkWrite (s : State) (p off v m : Nat) : State :=
  if off ≠ 0 then s
  else
    let w := v &&& m
    let s1 := if bit m 0 then s.closePort p (bit v 0) else s
    let s2 := if bit w 1 then s1.abortPort p else s1
    let s3 := if bit w 2 then s2.retrainPort p else s2
    if bit w 3 then s3.updPort p (fun x => { x with txBytes := 0, rxBytes := 0, replays := 0, tagFail := 0 }) else s3

end Sys2Proof.Machine
end

