-- ==== Sys2Proof/Machine/CollOps.lean ====
section
/-!
DEFINITION. The collective engine: the COLLECTIVE descriptor's fields and checks (R424, R425), the tree of R426 and R427,
frames of 1,024 bytes (R429), staging and the pool (R428), receipts and completion (R431), and routing (R421).
-/
namespace Sys2Proof.Machine

/-! ## The descriptor -/

/-- A collective built from a descriptor and its group: nothing sent yet. -/
def State.collFrom (s : State) (d : Desc) : Coll :=
  let g := d.fld 0x28 1
  let grp := Tab.get Group.none s.cle.groups g
  { desc := d.id
    ctx := d.ctx
    group := g
    seq := d.fld 0x30 4
    op := d.fld 0x29 1
    fmt := d.fld 0x2A 1
    func := d.fld 0x2B 1
    mode := d.fld 0x2C 1
    root := d.fld 0x2E 2
    count := d.fld 0x20 8
    src := d.fld 0x10 8
    dst := d.fld 0x18 8
    n := grp.size
    rank := grp.rank
    nodes := (List.range grp.size).map (fun k => Tab.get 0 s.cle.rankmap (4096 * g + k) % 4096)
    wake := if bit (d.fld 0x2D 1) 7 then some (d.fld 0x34 2 % 4096, d.fld 0x2D 1 % 64, d.fld 0x36 2) else none
    started := false
    acc := []
    early := []
    got := []
    written := []
    owed := []
    grants := []
    waiting := none
    cancel := none }

/-- Whether this rank writes any output. -/
def Coll.writes (c : Coll) : Bool := decide (c.op ≠ 0) || decide (c.rank = c.root)

/-- Input and output elements (Table 6 of 15). -/
def Coll.inLen (c : Coll) : Nat := if c.op = 3 ∨ c.op = 4 then c.n * c.count else c.count
def Coll.outLen (c : Coll) : Nat :=
  if !c.writes then 0 else if c.op = 2 ∨ c.op = 4 then c.n * c.count else c.count

/-- Table 5 of 15: the fields' values in a group of n ranks. -/
def collFieldsOk (d : Desc) (n : Nat) : Bool := collBodyOk d.raw && (decide (d.fld 0x29 1 ≠ 0) || decide (d.fld 0x2E 2 < n))

/-- DST is 0 for REDUCE at a rank other than ROOT (Table 5 of 15). -/
def Coll.dstOk (c : Coll) : Bool := c.writes || decide (c.dst = 0)

/-- R425: whether a collective's own values and node are acceptable, its extents apart. -/
def State.collOk (s : State) (d : Desc) (c : Coll) : Bool :=
  let grp := Tab.get Group.none s.cle.groups c.group
  grp.valid && decide (grp.ctx = d.ctx) && collFieldsOk d grp.size && c.dstOk
    && (decide (c.mode = 0) || (match s.sim.image with | some i => i.allowUnordered | none => false))
    && s.cle.nodeValid && decide (c.nodes.getD c.rank 4096 = s.cle.node)

/-! ## Blocks and the tree -/

/-- The blocks a collective works through. -/
def Coll.blocks (c : Coll) : Nat :=
  if c.op = 0 then 1 else if c.op = 1 then ceilDiv c.count (ceilDiv c.count c.n) else c.n

/-- Element offset and elements of frame f within block j. -/
def Coll.frameAt (c : Coll) (j f : Nat) : Nat × Nat :=
  let per := 1024 / c.esz
  (f * per, min per ((c.blockAt j).2 - f * per))

/-- Whether a collective reduces. -/
def Coll.reduces (c : Coll) : Bool := decide (c.op = 0) || decide (c.op = 1) || decide (c.op = 3)

/-- R426: the rotation of block j. -/
def Coll.rot (c : Coll) (j : Nat) : Nat := if c.op = 0 then c.root else j

/-- This rank's tree position for block j. -/
def Coll.pos (c : Coll) (j : Nat) : Nat := (c.rank + c.n - c.rot j % c.n) % c.n

/-- The rank at a tree position of block j. -/
def Coll.rankAt (c : Coll) (j i : Nat) : Nat := (i + c.rot j) % c.n

/-- R427: the distances d at which position i of n receives. -/
def childDists (n i : Nat) : List Nat :=
  ((List.range 12).map (2 ^ ·)).filter (fun d => decide (i % (2 * d) = 0) && decide (i + d < n))

/-- The lowest set bit of a position: it sends its partial to the position that far below. -/
def parentDist (i : Nat) : Nat := ((List.range 13).map (2 ^ ·)).find? (fun d => decide (i % (2 * d) ≠ 0)) |>.getD 1

/-- Ranks from which this rank receives partials of block j, in order of level. -/
def Coll.children (c : Coll) (j : Nat) : List Nat := (childDists c.n (c.pos j)).map (fun d => c.rankAt j (c.pos j + d))

/-- Ranks from which this rank receives any partial (R427), for the reservation of R428. -/
def Coll.sources (c : Coll) : List Nat :=
  if c.reduces then ((List.range c.blocks).flatMap c.children).eraseDups else []

/-- Elements of a payload. -/
def payloadEls (esz : Nat) (bs : List Byte) (n : Nat) : List Nat := (List.range n).map (fun k => leAt bs (k * esz) esz)

/-- R426: ⊕ of two elements: FUNC in TYPE, rounded once with RNE. -/
def Coll.combine1 (c : Coll) (a b : Nat) : Nat :=
  let fn : RedFn := if c.func = 0 then .sum else if c.func = 1 then .min else .max
  match c.fmt with
  | 0 => (redFp fn .fp64 .rne a b).1
  | 1 => (redFp fn .fp32 .rne a b).1
  | 2 => (redFp fn .bf16 .rne a b).1
  | _ => (redInt fn 32 a b).1

/-- ⊕ of two payloads of k elements. -/
def Coll.combine (c : Coll) (k : Nat) (a b : List Byte) : List Byte :=
  ((payloadEls c.esz a k).zip (payloadEls c.esz b k)).flatMap (fun p => leBytes c.esz (c.combine1 p.1 p.2))

/-- Poison bits by 32-byte payload sector of bytes at physical addresses. -/
def State.payPoison (s : State) (pas : List Nat) : BitVec 32 :=
  (List.range 32).foldl (fun (m : BitVec 32) k =>
    if ((pas.drop (32 * k)).take 32).any s.bad then m ||| BitVec.ofNat 32 (2 ^ k) else m) 0

/-- Elements `k` of the input from element `e`: their bytes and poison. -/
def State.collRead (s : State) (c : Coll) (e k : Nat) : List Byte × BitVec 32 :=
  match (s.ctx c.ctx).span .other .read (vAddrs (c.src + e * c.esz) (k * c.esz)) with
  | .ok pas => (s.rdAt pas, s.payPoison pas)
  | _ => (zeros (k * c.esz), 0)

/-- R340: writes output bytes from element `e` as class 1 (R427); an element with an input in a poisoned sector goes into a
poisoned sector. The bytes have been translated when the work began that writes them (`collReady`). -/
def State.collWrite (s : State) (c : Coll) (e : Nat) (bs : List Byte) (po : BitVec 32) : State :=
  match (s.ctx c.ctx).held.span .other .write (vAddrs (c.dst + e * c.esz) bs.length) with
  | .ok pas =>
    let hit := ((List.range pas.length).zip pas).filter (fun p => po.getLsbD (p.1 / 32))
    (s.unitStore .stream (pas.zip bs)).mark (hit.map (·.2))
  | _ => s

/-- Whether work of a collective on some of its bytes may go on: the accesses translate, and the host holds none of the
lines written; otherwise what becomes of the state while the work waits (R334, R364, R369). -/
def State.collReady (s : State) (c : Coll) (rd wr : List Nat) (k : State → State) : State :=
  let queue := match s.desc? c.desc with | some d => d.queue | none => 0
  let fault := fun (v : Nat) (n : Need) (code : Nat) =>
    if code = 4 then
      (s.postXlate c.ctx v n (.desc c.desc) queue).updDesc c.desc (fun x => { x with waiting := true })
    else s.endColl c.desc stPerm none
  match (s.ctx c.ctx).span .other .read rd, (s.ctx c.ctx).span .other .write wr with
  | .ok _, .ok pas => s.withRanges unitRtb c.ctx (rd ++ wr) (fun s => s.whenRecalled (s.writeWaits .stream pas) k)
  | .fault code v _, _ => fault v .read code
  | _, .fault code v _ => fault v .write code
  | _, _ => s

def State.updColl (s : State) (id : Nat) (f : Coll → Coll) : State :=
  { s with cle := { s.cle with colls := s.cle.colls.map (fun c => if c.desc = id then f c else c) } }

/-! ## Frames -/

/-- INFO of a COLL frame (Table 4 of 15). -/
def collInfo (dst src group kind block seq chunk : Nat) : List Byte :=
  leBytes 2 dst ++ leBytes 2 src ++ leBytes 1 group ++ leBytes 1 kind ++ leBytes 2 block ++ leBytes 4 seq
    ++ leBytes 4 chunk

/-- CHUNK of frame f: [31:6] the 64 KiB chunk, [5:0] the frame in it. -/
def chunkOf (f : Nat) : Nat := f / 64 * 64 + f % 64

/-- Sends a COLL frame of a collective to a rank. -/
def State.sendColl (s : State) (c : Coll) (rank kind block chunk : Nat) (bs : List Byte) (po : BitVec 32) : State :=
  let node := c.nodes.getD rank 0
  let pad := bs ++ zeros ((32 - bs.length % 32) % 32)
  s.sendNode node { mkFrame 8 (collInfo node s.cle.node c.group kind block c.seq chunk) pad with poison := po }
    (.coll c.group c.seq) false

/-- Sends data frame f of block j and expects a RECEIPT for its chunk. -/
def State.sendData (s : State) (id rank kind j f : Nat) (bs : List Byte) (po : BitVec 32) : State :=
  match s.collOf id with
  | none => s
  | some c =>
    (s.sendColl c rank kind j (chunkOf f) bs po).updColl id (fun x =>
      if x.owed.contains (rank, kind, j, f / 64) then x else { x with owed := x.owed ++ [(rank, kind, j, f / 64)] })

/-- Books output elements of block j, frame f as written with their final values. -/
def State.bookWritten (s : State) (id j f k : Nat) : State :=
  s.updColl id (fun x => { x with written := x.written ++ [(j, f, k)] })

/-- Other ranks. -/
def Coll.others (c : Coll) : List Nat := (List.range c.n).filter (· ≠ c.rank)

/-- The place in the output of block j's elements at the rank that writes it. -/
def Coll.outAt (c : Coll) (j : Nat) : Nat :=
  if c.op = 1 then (c.blockAt j).1 else if c.op = 2 ∨ c.op = 4 then j * c.count else 0

/-- The final values of frame f of block j are known at position 0: they are written, and ALL_REDUCE sends them to every
other rank. -/
def State.collFinal (s : State) (id j f : Nat) (bs : List Byte) (po : BitVec 32) : State :=
  match s.collOf id with
  | none => s
  | some c =>
    let k := (c.frameAt j f).2
    let s1 := (s.collWrite c (c.outAt j + (c.frameAt j f).1) bs po).bookWritten id j f k
    if c.op = 1 then c.others.foldl (fun t r => t.sendData id r 2 j f bs po) s1 else s1

/-- Whether this rank may send frame f of block j to its parent: within the parent's grant (R428, R429). -/
def Coll.granted (c : Coll) (rank j f : Nat) : Bool :=
  c.grants.any (fun g => decide (g.1 = rank) && (decide (j < g.2.1) || (decide (j = g.2.1) && decide (f / 64 < g.2.2))))

/-- One frame of a reduction whose partial is complete here: position 0 has the result, any other position sends it to
its parent when granted. -/
def State.collPass (s : State) (id j f : Nat) : State :=
  match s.collOf id with
  | none => s
  | some c =>
    match c.acc.find? (fun a => decide (a.1 = j) && decide (a.2.1 = f)) with
    | none => s
    | some (_, _, k, bs, po) =>
      if k ≠ (c.children j).length then s
      else
        let mark := fun (t : State) => t.updColl id (fun x => { x with acc := x.acc.map (fun a =>
          if a.1 = j ∧ a.2.1 = f then (j, f, k + 1, [], 0) else a) })
        let i := c.pos j
        if i = 0 then mark (s.collFinal id j f bs po)
        else
          let up := c.rankAt j (i - parentDist i)
          if c.granted up j f then mark (s.sendData id up 1 j f bs po) else s

/-- Whether every frame of a chunk has come from a rank. -/
def Coll.chunkGot (c : Coll) (rank kind j ch : Nat) : Bool :=
  (List.range (min 64 (c.frames j - 64 * ch))).all (fun k => c.got.contains (rank, kind, j, 64 * ch + k))

/-- The chunks that a rank sends here as partials, in order: block and chunk (R427). -/
def Coll.order (c : Coll) (rank : Nat) : List (Nat × Nat) :=
  ((List.range c.blocks).filter (fun j => (c.children j).contains rank)).flatMap (fun j =>
    (List.range (ceilDiv (c.frames j) 64)).map (fun ch => (j, ch)))

/-- R428, R429: a GRANT: a rank may send up to sixteen chunks, its reservation of 1 MiB, ahead of the combine point. It
names the first chunk that the rank may not yet send. -/
def State.collGrant (s : State) (c : Coll) (rank : Nat) : State :=
  let l := c.order rank
  let n := (l.filter (fun x => c.chunkGot rank 1 x.1 x.2)).length
  let lim := match l[n + 16]? with
    | some x => x
    | none => match l.getLast? with | some x => (x.1, x.2 + 1) | none => (0, 0)
  s.sendColl c rank 4 lim.1 (64 * lim.2) [] 0

/-- R428: whether a combined chunk permits one more: some chunk of the rank stands sixteen past those combined, or did
before the last. -/
def Coll.grantOpen (c : Coll) (rank : Nat) : Bool :=
  let l := c.order rank
  decide ((l.filter (fun x => c.chunkGot rank 1 x.1 x.2)).length + 15 < l.length)

/-- R431: books a frame as performed or combined; the last of its chunk is answered with a RECEIPT, and a partial's with
a GRANT while the rank has chunks that no GRANT has permitted. -/
def State.collGot (s : State) (id rank kind j f : Nat) : State :=
  let s1 := s.updColl id (fun x => { x with got := x.got ++ [(rank, kind, j, f)] })
  match s1.collOf id with
  | none => s1
  | some c =>
    if c.chunkGot rank kind j (f / 64) then
      let s2 := s1.sendColl c rank 5 j (f / 64 * 64) [] 0
      if kind = 1 ∧ c.grantOpen rank then s2.collGrant c rank else s2
    else s1

/-- Combines a child's partial into frame f of block j. -/
def State.collCombine (s : State) (id rank j f : Nat) (bs : List Byte) (po : BitVec 32) : State :=
  match s.collOf id with
  | none => s
  | some c =>
    let k := (c.frameAt j f).2
    let s1 := s.updColl id (fun x => { x with acc := x.acc.map (fun a =>
      if a.1 = j ∧ a.2.1 = f then (j, f, a.2.2.1 + 1, c.combine k a.2.2.2.1 bs, a.2.2.2.2 ||| po) else a) })
    (s1.collGot id rank 1 j f).collPass id j f

/-- R426, R430: a partial arrives: in MODE 0 it is combined when its level's turn has come and otherwise kept; in MODE 1 it
is combined at once. -/
def State.collPartial (s : State) (id rank j f : Nat) (bs : List Byte) (po : BitVec 32) : State :=
  match s.collOf id with
  | none => s
  | some c =>
    match c.acc.find? (fun a => decide (a.1 = j) && decide (a.2.1 = f)) with
    | none => s
    | some (_, _, k, _, _) =>
      if c.mode = 1 ∨ (c.children j).getD k c.n = rank then
        let s1 := s.collCombine id rank j f bs po
        -- what arrived early follows, level by level
        ((c.children j).drop (k + 1)).foldl (fun t r =>
          match t.collOf id with
          | none => t
          | some x =>
            match x.early.find? (fun e => decide (e.1 = j) && decide (e.2.1 = f) && decide (e.2.2.1 = r)),
                  x.acc.find? (fun a => decide (a.1 = j) && decide (a.2.1 = f)) with
            | some (_, _, _, b, p), some a =>
              if (x.children j).getD a.2.2.1 x.n = r then
                (t.updColl id (fun y => { y with early := y.early.filter (fun e =>
                  !(decide (e.1 = j) && decide (e.2.1 = f) && decide (e.2.2.1 = r))) })).collCombine id r j f b p
              else t
            | _, _ => t) s1
      else s.updColl id (fun x => { x with early := x.early ++ [(j, f, rank, bs, po)] })

/-! ## Completion -/

/-- INFO of a WAKE or WAKE_ACK (Table 4 of 15). -/
def wakeInfo (dst src core status gen wtag : Nat) : List Byte :=
  leBytes 2 dst ++ leBytes 2 src ++ leBytes 1 core ++ leBytes 1 status ++ leBytes 2 gen ++ leBytes 4 wtag ++ zeros 4

/-- R422: a WAKE for this device: the status of its answer, and the link wake recorded. -/
def State.wakeHere (s : State) (core gen : Nat) : State × Nat :=
  if (s.cle.coreGen.getD core 0).toNat = gen ∧ core < 64 then
    (({ s with cle := { s.cle with linkWakes := nsIns s.cle.linkWakes core } }).wakeIsland (cIsland core), stOk)
  else (s, stStale)

/-- R422: the stale record of a WAKE whose generation did not match. -/
def wakeStale (ctx core gen port queue : Nat) : StaleRec :=
  { StaleRec.none with ctx := ctx, range := 0xFF, cause := 2, entry := core, gen := gen, port := port, queue := queue }

/-- A collective that has done all of its work ends (R13, R431). -/
def State.finishColl (s : State) (id : Nat) : State :=
  match s.collOf id with
  | none => s
  | some c => (s.dropColl id).finishDesc id (BitVec.ofNat 64 c.detail)

/-- R431: the answer to a collective's WAKE completes it. -/
def State.collWoken (s : State) (id st : Nat) : State :=
  match s.collOf id with
  | none => s
  | some c =>
    if st = stStale then
      match c.wake, s.desc? id with
      | some (node, core, gen), some d =>
        (s.postStale (wakeStale c.ctx core gen (Tab.get 0 s.cle.route node % 16) d.queue)).endColl id stStale none
      | _, _ => s.endColl id stStale none
    else s.finishColl id

/-- R431: a collective completes when every output element is performed and every chunk it sends has its RECEIPT; it then
sends its WAKE, or ends. One that is being cancelled ends at the chunk boundary (R442). -/
def State.collSettle (s : State) (id : Nat) : State :=
  match s.collOf id with
  | none => s
  | some c =>
    let sent := !c.reduces || c.acc.all (fun a => decide ((c.children a.1).length < a.2.2.1))
    let stop := match s.desc? id with | some d => d.stop | none => false
    let done := c.started && c.waiting.isNone && sent && c.owed.isEmpty && decide (c.outLen ≤ c.detail)
    if stop && !c.midChunk && !(done && c.wake.isNone) then s.endColl id stOk (some stCancelled)
    else if !done then s
    else
      match c.wake with
      | none => s.finishColl id
      | some (node, core, gen) =>
        if s.cle.nodeValid ∧ node = s.cle.node then
          let r := s.wakeHere core gen
          r.1.collWoken id r.2
        else
          let tag := s.cle.nextWtag
          let s1 := s.updColl id (fun x => { x with waiting := some tag })
          ({ s1 with cle := { s1.cle with nextWtag := (tag + 1) % 2 ^ 32 } }).sendNode node
            (mkFrame 0xE (wakeInfo node s1.cle.node core 0 gen tag) []) .none false

/-! ## Received COLL frames -/

/-- Fields of a COLL frame's INFO. -/
structure CollHdr where
  dst : Nat
  src : Nat
  group : Nat
  kind : Nat
  block : Nat
  seq : Nat
  chunk : Nat
  deriving DecidableEq, Repr

def CollHdr.parse (i : List Byte) : CollHdr :=
  ⟨leAt i 0 2, leAt i 2 2, leAt i 4 1, leAt i 5 1, leAt i 6 2, leAt i 8 4, leAt i 12 4⟩

/-- Whether a node number is this device's. -/
def State.isNode (s : State) (n : Nat) : Bool := s.cle.nodeValid && decide (n = s.cle.node)

/-- The collective a frame names. -/
def State.collNamed (s : State) (group seq : Nat) : Option Coll :=
  s.cle.colls.find? (fun c => decide (c.group = group) && decide (c.seq = seq))

/-- Whether a frame's parameters fit this rank's collective (R425, R429). -/
def Coll.fits (c : Coll) (h : CollHdr) (rank : Nat) (len : Nat) : Bool :=
  let data := decide (h.block < c.blocks) && decide (h.chunk < c.frames h.block)
    && decide (len = ceilDiv ((c.frameAt h.block h.chunk).2 * c.esz) 32 * 32)
  match h.kind with
  | 1 => c.reduces && data && (c.children h.block).contains rank
  | 2 => decide (c.op = 1) && data && decide (c.rankAt h.block 0 = rank)
  | 3 => data && ((decide (c.op = 2) && decide (h.block = rank)) || (decide (c.op = 4) && decide (h.block = c.rank)))
  | 4 => c.reduces && decide (h.block < c.blocks) && decide (len = 0)
  | 5 => decide (h.block < c.blocks) && decide (h.chunk % 64 = 0) && decide (len = 0)
  | _ => false

/-- A frame of a started collective takes effect. -/
def State.collApply (s : State) (c : Coll) (h : CollHdr) (bs : List Byte) (po : BitVec 32) : State :=
  match findIdx? (fun n => decide (n = h.src)) c.nodes with
  | none => s.endColl c.desc stPerm (some stPerm)
  | some rank =>
    if !c.fits h rank bs.length then s.endColl c.desc stPerm (some stPerm)
    else
      let f := h.chunk
      let k := (c.frameAt h.block f).2
      let data := bs.take (k * c.esz)
      let e := (c.frameAt h.block f).1
      let s1 := match h.kind with
        | 1 => s.collPartial c.desc rank h.block f data po
        | 2 => (((s.collWrite c (c.outAt h.block + e) data po).bookWritten c.desc h.block f k).collGot c.desc rank 2 h.block f)
        | 3 => (((s.collWrite c (rank * c.count + e) data po).bookWritten c.desc rank f k).collGot c.desc rank 3 h.block f)
        | 4 =>
          let t := s.updColl c.desc (fun x => { x with grants := (rank, h.block, h.chunk / 64) :: x.grants })
          (c.acc.map (fun (a : Nat × Nat × Nat × List Byte × BitVec 32) => (a.1, a.2.1))).foldl (fun (u : State) (a : Nat × Nat) => u.collPass c.desc a.1 a.2) t
        | _ => s.updColl c.desc (fun x => { x with owed := x.owed.filter (fun o =>
            !(decide (o.1 = rank) && decide (o.2.2.1 = h.block) && decide (o.2.2.2 = h.chunk / 64))) })
      s1.collSettle c.desc

/-- Payload bytes the pool holds for a node and a collective, and in all (R428). -/
def State.poolBytes (s : State) (p : CollHdr → Bool) : Nat :=
  ((s.cle.pool.filter (fun f => p (CollHdr.parse f.2.info))).map (fun f => f.2.payload.length)).sum

/-- Output bytes that a frame can make this rank write: its elements of a RESULT or BLOCK, or of the block whose tree has its
root here. -/
def Coll.frameWrites (c : Coll) (h : CollHdr) : List Nat :=
  let e := c.frameAt h.block h.chunk
  let at_ := fun (o : Nat) => vAddrs (c.dst + (o + e.1) * c.esz) (e.2 * c.esz)
  match h.kind with
  | 1 => if c.pos h.block = 0 then at_ (c.outAt h.block) else []
  | 2 => at_ (c.outAt h.block)
  | 3 => (match findIdx? (fun n => decide (n = h.src)) c.nodes with | some rank => at_ (rank * c.count) | none => [])
  | _ => []

/-- Whether the pool has room for a frame of a collective that has not started (R428). -/
def State.poolRoom (s : State) (h : CollHdr) (n : Nat) : Bool :=
  decide (s.poolBytes (fun x => decide (x.src = h.src) && decide (x.group = h.group) && decide (x.seq = h.seq)) + n ≤ 65536)
    && decide (s.poolBytes (fun _ => true) + n ≤ 2 ^ 24)

/-- A COLL frame for this device: `take` accepts it, and it takes effect on a started collective, or waits in the pool.
While the pool has no room for it, or what it writes cannot be written, it is not accepted: the sender waits for
credit. -/
def State.collTake (s : State) (port : Nat) (fr : Frame) (take : State → (State → State) → State) : State :=
  let h := CollHdr.parse fr.info
  let keep := if s.poolRoom h fr.payload.length then
      take s (fun t => { t with cle := { t.cle with pool := t.cle.pool ++ [(port, fr)] } }) else s
  match s.collNamed h.group h.seq with
  | some c =>
    if !c.started then keep
    else
      let ok := match findIdx? (fun n => decide (n = h.src)) c.nodes with
        | some rank => c.fits h rank fr.payload.length | none => false
      s.collReady c [] (if ok then c.frameWrites h else []) (fun u =>
        take u (fun t => match t.collOf c.desc with | some x => t.collApply x h fr.payload fr.poison | none => t))
  | none => if h.kind = 5 then take s id else keep

/-! ## Starting -/

/-- Collectives running. -/
def Cle.active (c : Cle) : Nat := (c.colls.filter (·.started)).length

/-- MiB reserved by the running collectives (R428). -/
def Cle.reserved (c : Cle) : Nat := ((c.colls.filter (·.started)).map (fun x => x.sources.length)).sum

/-- The own input of every block, as partials of no child. -/
def State.collLoad (s : State) (c : Coll) : List (Nat × Nat × Nat × List Byte × BitVec 32) :=
  if !c.reduces then []
  else (List.range c.blocks).flatMap (fun j => (List.range (c.frames j)).map (fun f =>
    let e := c.frameAt j f
    let r := s.collRead c ((c.blockAt j).1 + e.1) e.2
    (j, f, 0, r.1, r.2)))

/-- ALL_GATHER and ALL_TO_ALL: sends the input's blocks, and writes this rank's own. -/
def State.collSpread (s : State) (c : Coll) : State :=
  if c.reduces then s
  else
    (List.range c.n).foldl (fun t r =>
      let j := if c.op = 2 then c.rank else r
      (List.range (c.frames j)).foldl (fun u f =>
        let e := c.frameAt j f
        let d := s.collRead c ((c.blockAt j).1 + e.1) e.2
        if r = c.rank then
          (u.collWrite c (c.rank * c.count + e.1) d.1 d.2).bookWritten c.desc c.rank f e.2
        else u.sendData c.desc r 3 j f d.1 d.2) t) s

/-- The bytes of a collective's input and output. -/
def Coll.inBytes (c : Coll) : List Nat := vAddrs c.src (c.inLen * c.esz)
def Coll.outBytes (c : Coll) : List Nat := vAddrs c.dst (c.outLen * c.esz)

/-- R428: a waiting collective starts: it grants its sources, sends what it can, and takes its frames from the pool. -/
def State.collRun (s : State) (c : Coll) : State :=
  let s0 := match (s.ctx c.ctx).span .other .read c.inBytes with | .ok pas => s.unitRead .stream pas | _ => s
  let s1 := s0.updColl c.desc (fun x => { x with started := true, acc := s0.collLoad x })
  let s2 := c.sources.foldl (fun t r => t.collGrant c r) s1
  let s3 := s2.collSpread c
  let keys : List (Nat × Nat) := match s3.collOf c.desc with | some x => x.acc.map (fun a => (a.1, a.2.1)) | none => []
  let s4 := keys.foldl (fun (u : State) a => u.collPass c.desc a.1 a.2) s3
  let mine := fun (f : Nat × Frame) =>
    let h := CollHdr.parse f.2.info
    decide (h.group = c.group) && decide (h.seq = c.seq)
  let fs := s4.cle.pool.filter mine
  let s5 : State := { s4 with cle := { s4.cle with pool := s4.cle.pool.filter (fun f => !mine f) } }
  (fs.foldl (fun (t : State) f =>
    match t.collOf c.desc with
    | some x => t.collApply x (CollHdr.parse f.2.info) f.2.payload f.2.poison
    | none => t) s5).collSettle c.desc

end Sys2Proof.Machine
end

