-- ==== Sys2Proof/Machine/TwinOps.lean ====
section
/-!
DEFINITION. Checkpoints (R437, R438), the catalogue of the mirror reserve (R439), IMPORT and SEND (R440), HOLD notices
(R433), and writes of the CLE and TWC registers (R444, R445).
-/
namespace Sys2Proof.Machine

/-! ## Catalogue -/

def Twc.entry (t : Twc) (e : Nat) : Option CatEntry := Tab.get none t.cat e

/-- Blocks of the reserve held by entries. -/
def Twc.held (t : Twc) : List Nat := t.cat.flatMap (fun e => match e.2 with | some x => x.blocks | none => [])

/-- Removes an entry; its blocks are zero-filled before reuse (R439, R76). -/
def State.dropEntry (s : State) (e : Nat) : State :=
  match s.twc.entry e with
  | none => s
  | some x => ({ s with twc := { s.twc with cat := Tab.put none s.twc.cat e none } }).dirtyBlocks x.blocks

/-- n free blocks of the reserve, lowest first. -/
def State.reserveTake (s : State) (n : Nat) : Option (List Nat) :=
  let free := (addrs s.twc.reserve s.twc.reserveBlocks).filter (fun b => !s.twc.held.contains b)
  if free.length < n then none else some (free.take n)

/-- R438: the holder of a checkpoint allocates blocks for a new entry; what was in progress for the same context of the
same origin is gone. -/
def State.openEntry (s : State) (e : Nat) (d : MirrorDesc) (peer : Ident) : State :=
  let origin := d.origin.getD peer
  let old := (s.twc.cat.filter (fun c =>
    match c.2 with
    | some x => decide (x.kind = .progress) && decide (x.ctx = d.ctx) && decide (x.origin = origin)
    | none => false)).map (·.1)
  let s1 := old.foldl State.dropEntry s
  let n := d.lens.sum / 65536
  match s1.reserveTake n with
  | none => s1
  | some bs =>
    let s2 := s1.fill (bs.filter (fun b => !nsHas s1.dram.clean b))
    { s2 with twc := { s2.twc with cat := Tab.put none s2.twc.cat e (some
        { kind := .progress, ctx := d.ctx, ckpt := d.ckpt, ranges := d.ranges, lens := d.lens, origin := origin
          blocks := bs, got := 0 }) } }

/-- The device physical address of an offset of an entry. -/
def CatEntry.phys (x : CatEntry) (off : Nat) : Nat := x.blocks.getD (off / 65536) 0 * 65536 + off % 65536

/-- R438, R439: an entry that has received everything is completed, and frees the context's previous one; one that a SEND
brings is retained. -/
def State.closeEntry (s : State) (e : Nat) (peer : Ident) : State :=
  match s.twc.entry e with
  | none => s
  | some x =>
    let keep := decide (x.origin ≠ peer)
    let old := if keep then [] else (s.twc.cat.filter (fun c =>
      match c.2 with
      | some y => decide (c.1 ≠ e) && decide (y.kind = .completed) && decide (y.ctx = x.ctx) && decide (y.origin = x.origin)
      | none => false)).map (·.1)
    let s1 := old.foldl State.dropEntry s
    { s1 with twc := { s1.twc with
        cat := Tab.put none s1.twc.cat e (some { x with kind := if keep then .retained else .completed })
        reserveOf := some peer } }

/-- Whether a retained entry exists (Table 20 of 15). -/
def Twc.retained (t : Twc) : Bool := t.cat.any (fun e => match e.2 with | some x => decide (x.kind = .retained) | none => false)

/-! ## CHECKPOINT -/

/-- Indices named by a RANGES word, ascending. -/
def namedRanges (r : Nat) : List Nat := (List.range 64).filter (fun i => bit r i)

/-- R438: whether a CHECKPOINT's ranges are present, DEVICE or PLACED, and readable. -/
def State.ckptOk (s : State) (c r : Nat) : Bool :=
  (namedRanges r).all (fun i =>
    let x := (s.ctx c).range i
    x.valid && (decide (x.kind = .device) || decide (x.kind = .placed)) && x.perm.getLsbD 0)

/-- INFO of a MIRROR or MIRROR_ACK frame. -/
def mirrorInfo (entry off : Nat) : List Byte := leBytes 1 entry ++ zeros 7 ++ leBytes 8 off

/-- The twin port that chunk k uses (R438). -/
def State.mirrorPort (s : State) (k : Nat) : Nat :=
  match s.twinPorts with
  | [p] => p
  | _ => if k % 2 = 0 then 14 else 15

/-- Sends 64 KiB at a physical address to the twin as the entry's bytes from `off`, marks with them. -/
def State.sendMirror (s : State) (desc entry off pa : Nat) : State :=
  let p := s.mirrorPort (off / 65536)
  (List.range 64).foldl (fun t k =>
    let pas := addrs (pa + 1024 * k) 1024
    t.enqueue p { mkFrame 9 (mirrorInfo entry (off + 1024 * k)) (t.rdAt pas) with poison := t.payPoison pas }
      (.mirror desc) false) (s.unitRead .stream (addrs pa 65536))

/-- The next chunk of a CHECKPOINT is read and sent. One whose range no longer holds it ends the descriptor
(notes/assumptions/128.md). -/
def State.ckptSend (s : State) (c : CkptRun) (ctx : Nat) : State :=
  match c.todo with
  | [] => s
  | (i, o) :: r =>
    if !s.ckptOk ctx (2 ^ i) || decide (((s.ctx ctx).range i).len ≤ o) then
      (s.dropCkpt c.desc).endDescWith c.desc stPerm (BitVec.ofNat 64 c.acked)
    else
    let s1 := s.sendMirror c.desc c.entry (c.total - 65536 * (r.length + 1)) (((s.ctx ctx).range i).phys o)
    { s1 with twc := { s1.twc with ckpts := s1.twc.ckpts.map (fun x => if x.desc = c.desc then { x with todo := r } else x) } }

/-- R438: a CHECKPOINT starts, by the twin's state. `entry` is the entry that the twin allocates, none when its blocks or
its catalogue do not suffice (notes/assumptions/23.md). -/
def State.ckptStart (s : State) (d : Desc) (entry : Option Nat) : State :=
  let r := d.fld 0x18 8
  if !s.ckptOk d.ctx r then s.endDesc d.id stPerm
  else
    match s.twc.st with
    | .unpaired => s.endDesc d.id stLimit
    | .released => s.endDesc d.id stTwin
    | .pairing => s
    | _ =>
      if s.twinPorts.isEmpty then s
      else
        match entry with
        | none => s.endDesc d.id stLimit
        | some e =>
          let todo := (namedRanges r).flatMap (fun i =>
            (List.range (((s.ctx d.ctx).range i).len / 65536)).map (fun k => (i, 65536 * k)))
          let c : CkptRun := { desc := d.id, entry := e, todo := todo, total := 65536 * todo.length, acked := 0 }
          let s1 := s.updDesc d.id (fun x => { x with ready := true })
          ({ s1 with twc := { s1.twc with ckpts := s1.twc.ckpts ++ [c] } }).ckptSend c d.ctx

/-- R13, R438, R440, R441: a chunk is acknowledged. The last one completes the CHECKPOINT, or ends a SEND; at any other an
abort takes effect. -/
def State.mirrorAcked (s : State) (entry : Nat) : State :=
  match s.twc.ckpts.find? (fun c => decide (c.entry = entry)) with
  | some c =>
    let c1 := { c with acked := c.acked + 65536 }
    let s1 : State := { s with twc := { s.twc with ckpts := s.twc.ckpts.map (fun x => if x.desc = c.desc then c1 else x) } }
    if c.total ≤ c1.acked then
      let s2 := (s1.dropCkpt c.desc).finishDesc c.desc (BitVec.ofNat 64 c.total)
      { s2 with twc := { s2.twc with ckptDone := true } }
    else
      match s1.desc? c.desc with
      | some d =>
        if d.stop then (s1.dropCkpt c.desc).endDescWith c.desc stOk (BitVec.ofNat 64 c1.acked) else s1.ckptSend c1 d.ctx
      | none => s1
  | none =>
    match s.twc.run with
    | none => s
    | some r =>
      if r.send ∧ r.peerEntry = entry then
        let n := match s.twc.entry r.entry with | some x => 65536 * x.blocks.length | none => 0
        if n ≤ r.acked + 65536 then (s.dropEntry r.entry).twcDone 2 0 0
        else if r.stop then s.twcDone 2 0xA 0
        else { s with twc := { s.twc with run := some { r with acked := r.acked + 65536 } } }
      else s

/-! ## TWC commands -/

/-- R364, R440: the first offending range index of an IMPORT; the twin controller reaches DEVICE and PLACED ranges alone. -/
def State.importBad (s : State) (c : Nat) (x : CatEntry) : Option Nat :=
  (((namedRanges x.ranges).zip x.lens).find? (fun p =>
    let r := (s.ctx c).range p.1
    !(r.valid && (decide (r.kind = .device) || decide (r.kind = .placed)) && r.perm.getLsbD 1 && decide (r.len = p.2)))).map (·.1)

/-- R445, Table 22 of 15: a write of TWC.CMD. -/
def State.twcCmd (s : State) (v : Nat) : State :=
  let op := bits v 0 4
  let c := bits v 8 12
  let e := bits v 20 8
  if s.twc.cmd.busy then { s with twc := { s.twc with cmd := s.twc.cmd.drop } }
  else if op = 0 ∨ 4 < op then s
  else
    let kept := match s.twc.entry e with | some x => decide (x.kind = .retained) | none => false
    let x := (s.twc.entry e).getD ⟨.progress, 0, 0, 0, [], 0, [], 0⟩
    match op with
    | 1 =>
      let bad := s.importBad c x
      let code := firstCode [(2, s.twc.close), (3, !kept), (4, !(s.ctx c).live), (5, bad.isSome)]
      if code ≠ 0 then s.twcDone 1 code (if code = 5 then bad.getD 0 else 0)
      else { s with twc := { s.twc with cmd := s.twc.cmd.begin_ 1, detail := 0, run := some ⟨false, e, c, 0, 0, 0, false⟩ } }
    | 2 =>
      let away := !(decide (s.twc.st = .paired) || decide (s.twc.st = .unmirrored)) || s.twinPorts.isEmpty
      let code := firstCode [(2, s.twc.close), (3, !kept), (6, away)]
      if code ≠ 0 then s.twcDone 2 code 0
      else { s with twc := { s.twc with cmd := s.twc.cmd.begin_ 2, detail := 0, run := some ⟨true, e, 0, 0, 0, 0, false⟩ } }
    | 3 => if kept then (s.dropEntry e).twcDone 3 0 0 else s.twcDone 3 3 0
    | _ =>
      if s.twc.emptied then (({ s with twc := { s.twc with emptied := false } }).twinMove).twcDone 4 0 0
      else s.twcDone 4 8 0

/-- The chunk at a position of an entry: the range it belongs to and the offset in it. -/
def CatEntry.chunkAt (x : CatEntry) (k : Nat) : Option (Nat × Nat) :=
  (((namedRanges x.ranges).zip x.lens).flatMap (fun p => (List.range (p.2 / 65536)).map (fun j => (p.1, 65536 * j))))[k]?

/-- R440: one chunk of an IMPORT or SEND. `peer` is the entry that the twin allocates for a SEND, none when it cannot hold
it. An IMPORT waits for a range that drains, and fails where its ranges have changed (notes/assumptions/128.md). -/
def State.twinChunk (s : State) (peer : Option Nat) : State :=
  match s.twc.run with
  | none => s
  | some r =>
    match s.twc.entry r.entry with
    | none => s
    | some x =>
      if !r.send then
        match x.chunkAt r.pos with
        | none => s.twcDone 1 0 0
        | some (i, o) =>
          let bad := s.importBad r.ctx x
          if bad.isSome then s.twcDone 1 5 (bad.getD 0)
          else if ((s.ctx r.ctx).range i).draining || ((s.ctx r.ctx).range i).switching then s
          else
          let from_ := addrs (x.phys (65536 * r.pos)) 65536
          let to_ := addrs (((s.ctx r.ctx).range i).phys o) 65536
          s.whenRecalled (s.moveWaits .stream (from_.zip to_)) (fun s =>
            let s1 := s.unitMove .stream (from_.zip to_)
            if x.blocks.length ≤ r.pos + 1 then s1.twcDone 1 0 0
            else { s1 with twc := { s1.twc with run := some { r with pos := r.pos + 1 } } })
      else if r.pos = 0 ∧ peer.isNone then s.twcDone 2 7 0
      else if x.blocks.length ≤ r.pos ∨ s.twinPorts.isEmpty ∨ r.stop then s
      else
        let pe := if r.pos = 0 then peer.getD 0 else r.peerEntry
        let s1 := s.sendMirror 0 pe (65536 * r.pos) (x.phys (65536 * r.pos))
        { s1 with twc := { s1.twc with run := some { r with pos := r.pos + 1, peerEntry := pe } } }

/-- R441, R442: an IMPORT or SEND stops at its next chunk boundary: at once, but for a SEND with a chunk unacknowledged. -/
def State.twcStop (s : State) : State :=
  match s.twc.run with
  | some r =>
    if r.send && decide (r.acked < 65536 * r.pos) then { s with twc := { s.twc with run := some { r with stop := true } } }
    else s.twcDone (if r.send then 2 else 1) 0xA 0
  | none => s

/-- R442: aborts the twin controller. -/
def State.twcAbort (s : State) : State := (s.cancelAll (s.twc.ckpts.map (·.desc)) stCancelled 7).twcStop

/-- Writes of TWC registers (Table 19 of 15). -/
def State.twcWrite (s : State) (off v m : Nat) : State :=
  let w := v &&& m
  match off with
  | 0x00 => s.twcCmd w
  | 0x08 => { s with twc := { s.twc with cmd := s.twc.cmd.clear w } }
  | 0x10 =>
    let s1 : State := if bit m 0 then { s with twc := { s.twc with close := bit v 0 } } else s
    if bit w 1 then s1.twcAbort else s1
  | 0x18 => { s with twc := { s.twc with catSel := merge s.twc.catSel v m % 256 } }
  | _ => s

/-! ## CLE registers -/

/-- NODE, GROUP, ROUTE and RANKMAP registers as 64-bit values (Tables 17 and 18 of 15). -/
def Cle.nodeReg (c : Cle) : Nat := c.node + fld (bnat c.nodeValid) 31
def Group.reg (g : Group) : Nat := g.ctx + fld g.rank 16 + fld g.size 32 + fld (bnat g.valid) 63
def Cle.routeReg (c : Cle) (i : Nat) : Nat := ((List.range 8).map (fun k => fld (Tab.get 0 c.route (8 * i + k)) (8 * k))).sum
def Cle.rankReg (c : Cle) (g i : Nat) : Nat :=
  ((List.range 4).map (fun k => fld (Tab.get 0 c.rankmap (4096 * g + 4 * i + k)) (16 * k))).sum

/-- R442: aborts the collective engine. -/
def State.cleAbort (s : State) : State :=
  s.cancelAll ((s.cle.colls.filter (·.started)).map (·.desc)) stCancelled 7

/-- Groups with a collective in flight: in the engine, or fetched and not yet recorded (R394). -/
def State.collGroups (s : State) : List Nat :=
  s.cle.colls.map (·.group) ++ (s.qmg.descs.filter (fun d => decide (d.type = tyCollective))).map (·.fld 0x28 1)

/-- Writes of CLE registers (Table 16 of 15). NODE is kept while a collective is in flight, a group and its rank map while
one of the group is (R423, R444). -/
def State.cleWrite (s : State) (off v m : Nat) : State :=
  let c := s.cle
  if off = 0 then
    let s1 : State := if bit m 0 then { s with cle := { c with close := bit v 0 } } else s
    if bit (v &&& m) 1 then s1.cleAbort else s1
  else if off = 0x10 then
    if !s.collGroups.isEmpty then s
    else
      let r := merge c.nodeReg v m
      { s with cle := { c with node := bits r 0 12, nodeValid := bit r 31 } }
  else if 0x400 ≤ off ∧ off < 0x600 then
    let g := (off - 0x400) / 8
    if s.collGroups.contains g then s
    else
      let r := merge (Tab.get Group.none c.groups g).reg v m
      { s with cle := { c with groups := Tab.put Group.none c.groups g ⟨bit r 63, bits r 32 13, bits r 16 12, bits r 0 12⟩ } }
  else if 0x1000 ≤ off ∧ off < 0x2000 then
    let i := (off - 0x1000) / 8
    let r := merge (c.routeReg i) v m
    let t := loop (fun k t => Tab.put 0 t (8 * i + k) (bits r (8 * k) 8 &&& 0x8F)) 8 c.route
    { s with cle := { c with route := t } }
  else if 0x80000 ≤ off ∧ off < 0x100000 then
    let g := (off - 0x80000) / 0x2000
    let i := (off - 0x80000) % 0x2000 / 8
    if s.collGroups.contains g then s
    else
      let r := merge (c.rankReg g i) v m
      let t := loop (fun k t => Tab.put 0 t (4096 * g + 4 * i + k) (bits r (16 * k) 12)) 4 c.rankmap
      { s with cle := { c with rankmap := t } }
  else s

/-! ## HOLD notices -/

/-- R345: the class of a stack's notices: Gapped ≤10 ms, Stopped ≤1 s, and indefinite past one second. -/
def Mcu.holdClass (m : Mcu) (now : Nat) : Option Nat :=
  match m.therm with
  | .gapped => some 1
  | .stopped => some (if m.stoppedAt + 1000000 < now then 3 else 2)
  | _ => none

/-- The stack with the largest class, when one is Gapped or Stopped. -/
def State.stackHold (s : State) : Option (Nat × Nat) :=
  ((List.range 8).filterMap (fun i => ((s.mcu.getD i Mcu.reset).holdClass s.now).map (fun c => (c, i)))).foldl
    (fun (b : Option (Nat × Nat)) x => match b with | none => some x | some y => if y.1 < x.1 then some x else b) none

/-- Live notices of the device, with their ports. -/
def State.notices (s : State) : List Notice := s.ports.flatMap (·.notices)

/-- A notice to send and the port it must not go out on: class, cause, hops, unit, origin. -/
structure HoldOut where
  notice : Notice
  but : Option Nat
  deriving DecidableEq, Repr

/-- R345, R433: the notices that this device sends now, on its ports in SERVICE. -/
def State.holdsOut (s : State) : List HoldOut :=
  let n := s.cle.node
  let mk := fun (cls cause hops unit origin : Nat) =>
    ({ origin := origin, cls := cls, cause := cause, hops := hops, unit := unit, at_ := s.now } : Notice)
  let stack := match s.stackHold with | some (c, i) => [(⟨mk c 1 0 i n, none⟩ : HoldOut)] | none => []
  let ports := (List.range 16).filterMap (fun p =>
    match (s.port p).st with
    | .relock => some (⟨mk 0 2 0 p n, some p⟩ : HoldOut)
    | .retraining => some ⟨mk 2 2 0 p n, some p⟩
    | _ => none)
  let live := s.notices
  let relay := if s.cle.colls.isEmpty then [] else
    ((live.map (·.origin)).eraseDups).filterMap (fun o =>
      let mine := live.filter (fun x => decide (x.origin = o))
      let cls := (mine.map (·.cls)).foldl max 0
      let hops := (mine.map (·.hops)).foldl max 0
      if 63 ≤ hops then none else some (⟨mk cls 3 (hops + 1) 0 o, none⟩ : HoldOut))
  stack ++ (if s.dev.life = .service then ports ++ relay else [])

/-- INFO of a HOLD frame. -/
def Notice.info (x : Notice) : List Byte :=
  leBytes 2 x.origin ++ leBytes 1 x.cls ++ leBytes 1 x.cause ++ leBytes 1 x.hops ++ leBytes 1 x.unit

/-- R433: sends the notices on every port in SERVICE. -/
def State.holdRefresh (s : State) : State :=
  let ps := (List.range 16).filter (fun p => decide ((s.port p).st = .service))
  s.holdsOut.foldl (fun t h => (ps.filter (fun p => decide (h.but ≠ some p))).foldl (fun (u : State) p =>
    u.enqueue p (mkFrame 0xC h.notice.info []) .none true) t) s

end Sys2Proof.Machine
end

