-- ==== Sys2Proof/Machine/Link.lean ====
section
/-!
DEFINITION. The events of ports, twin and collectives: signals, training, notices, received frames, the COLLECTIVE and
CHECKPOINT descriptors and the copying of the twin controller (chapter 15). An event whose condition does not hold leaves
the state as it is (notes/assumptions/7.md).
-/
namespace Sys2Proof.Machine

/-! ## Twin signals (R435) -/

/-- R435: a paired device in SERVICE toggles TWN_HB. -/
def execTwnHbToggle (s : State) : Host.Outcome State Fault Refusal :=
  .next (if s.dev.life = .service ∧ s.dev.twnAliveOut then { s with dev := { s.dev with twnHbOut := !s.dev.twnHbOut } } else s)

/-- R435: whether TWN_HB_IN has changed within 1 ms. -/
def State.hbFresh (s : State) : Bool := match s.twc.hbAt with | some t => decide (s.now ≤ t + 1000) | none => false

/-- R435: TWN_ALIVE_IN rises. -/
def execTwnAliveRise (s : State) : Host.Outcome State Fault Refusal :=
  let s1 : State := { s with
    dev := { s.dev with twnAliveIn := true }
    twc := { s.twc with hbLive := s.hbFresh } }
  .next s1.twinMove

/-- R435: TWN_HB_IN changes level. -/
def execTwnHbInChange (s : State) : Host.Outcome State Fault Refusal :=
  let s1 : State := { s with
    dev := { s.dev with twnHbIn := !s.dev.twnHbIn }
    twc := { s.twc with hbAt := some s.now, hbLive := s.dev.twnAliveIn } }
  .next s1.twinMove

/-- R435, R439: TWN_ALIVE_IN has read low for 100 µs, or TWN_HB_IN has not changed for 1 ms by the device's clock: the
heartbeat is lost. -/
def execHeartbeatLost (aliveLow : Bool) (s : State) : Host.Outcome State Fault Refusal :=
  let s1 : State := if aliveLow then { s with dev := { s.dev with twnAliveIn := false } } else s
  .next (if s.twc.hbLive && (aliveLow || !s.hbFresh) then s1.heartbeatLost else s1)

/-! ## Port states (R413) -/

/-- R413: signal is detected on a DOWN port. -/
def execLinkSignalDetect (p : Nat) (s : State) : Host.Outcome State Fault Refusal :=
  .next (if (s.port p).st = .down then s.setPort p .training else s)

/-- R410, R413: training ends: a lane fault keeps the port in TRAINING, otherwise it is TRAINED or admits. -/
def execLinkTrained (p : Nat) (lanesOk reversed : Bool) (s : State) : Host.Outcome State Fault Refusal :=
  if (s.port p).st ≠ .training ∧ (s.port p).st ≠ .retraining then .next s
  else if !lanesOk then .next ((s.setPort p .training).updPort p (fun x => { x with check := 0xA }))
  else .next ((s.updPort p (fun x => { x with reversed := reversed, check := 0 })).trained p)

/-- R413: a lane of a port in SERVICE loses lock. -/
def execLaneLockLoss (p : Nat) (s : State) : Host.Outcome State Fault Refusal :=
  .next (if (s.port p).st = .service then s.setPort p .relock else s)

/-- R413, R418: every lane is locked again, and what is unacknowledged is replayed. -/
def execLaneLockRegained (p : Nat) (s : State) : Host.Outcome State Fault Refusal :=
  .next (if (s.port p).st = .relock then
    (s.updPort p (fun x => { x with
      st := .service
      lost := false
      quietSince := s.now
      replays := x.replays + BitVec.ofNat 64 x.unacked.length })).twinMove else s)

/-- R413: RELOCK has lasted 100 µs. -/
def execRelockTimeout (p : Nat) (s : State) : Host.Outcome State Fault Refusal :=
  .next (if (s.port p).st = .relock ∧ (s.port p).relockAt + 100 ≤ s.now then s.setPort p .retraining else s)

/-- R413: the partner's signal is gone. -/
def execPartnerSignalLoss (p : Nat) (s : State) : Host.Outcome State Fault Refusal :=
  .next (if (s.port p).st = .off ∨ (s.port p).st = .down then s else s.setPort p .down)

/-- R413: an uncorrectable codeword; the sixteenth within 1 ms puts a port in SERVICE into RELOCK. -/
def execLinkCodewordUncorrectable (p : Nat) (s : State) : Host.Outcome State Fault Refusal :=
  let ts := s.now :: (s.port p).uncorTimes.filter (fun t => decide (s.now < t + 1000))
  let s1 := s.updPort p (fun x => { x with uncorTimes := ts })
  .next (if 16 ≤ ts.length ∧ (s.port p).st = .service then s1.setPort p .relock else s1)

/-- R415: whether a port has been out of SERVICE, or without a valid frame, for 50 ms. -/
def Port.quiet (x : Port) (now : Nat) : Bool :=
  decide (x.quietSince + 50000 ≤ now) || (decide (x.st ≠ .service) && decide (x.outSince + 50000 ≤ now))

/-- R415: 50 ms out of SERVICE or without a valid frame, counted past the last live notice, declare a port lost. -/
def execPortLost (p : Nat) (s : State) : Host.Outcome State Fault Refusal :=
  let x := s.port p
  .next (if x.hadService && !x.lost && x.notices.isEmpty && x.quiet s.now then s.losePort p else s)

/-- R414: a port in SERVICE that can send nothing it holds sends KEEPALIVE, ahead of what waits. -/
def execKeepaliveSend (p : Nat) (s : State) : Host.Outcome State Fault Refusal :=
  let x := s.port p
  .next (if x.st = .service ∧ (List.range 4).all (fun r => (x.nextOf r).isNone) = true then
    (s.enqueue p (ctrlFrame 6 []) .none true).updPort p (fun y =>
      { y with queue := y.queue.drop x.queue.length ++ x.queue }) else s)

/-- R433: the device refreshes its HOLD notices. -/
def execHoldRefresh (s : State) : Host.Outcome State Fault Refusal := .next s.holdRefresh

/-- R433: a received notice lapses 30 µs after its last refresh; the time of R415 counts from it. -/
def execHoldLapse (p index : Nat) (s : State) : Host.Outcome State Fault Refusal :=
  match (s.port p).notices[index]? with
  | none => .next s
  | some n =>
    .next (if n.at_ + 30 ≤ s.now then
      s.updPort p (fun x => { x with notices := x.notices.eraseIdx index, quietSince := s.now, outSince := s.now }) else s)

/-- R104: a sender starts a new key exchange. -/
def execRekey (p : Nat) (s : State) : Host.Outcome State Fault Refusal :=
  .next (s.startRekey p)

/-- R419: a port sends a frame. -/
def execFrameEgress (p : Nat) (s : State) : Host.Outcome State Fault Refusal := .next (s.egress p)

/-! ## CTRL frames -/

/-- R413: CTRL TRAIN: the partner retrains, and a port in SERVICE or REFUSED retrains with it; in TRAINED it is a valid frame
(DEDUCED, notes/assumptions/118.md). -/
def execTrain (h : RxHdr) (s : State) : Host.Outcome State Fault Refusal :=
  .next (s.rx h 1 1 0 (fun t => t.retrainPort h.port))

/-! ## Admission and keys (R102 to R105) -/

/-- A message of admission that counts in the transcript goes to the peer. -/
def State.sayAdm (s : State) (p : Nat) (bs : List Byte) : State :=
  (s.updPort p (fun x => { x with transcript := x.transcript ++ bs })).enqueue p (ctrlFrame 2 bs) .none true

/-- R102: the next request of this device's turn: the certificate exchange, CHALLENGE, GET_MEASUREMENTS. SPDM lays the
message out. -/
def State.askPeer (s : State) (p : Nat) : State :=
  let k := (s.port p).asked
  let t := s.sayAdm p (Config.spdmBytes (0x10 + k) s.spdm.draws)
  { t.updPort p (fun x => { x with asked := k + 1 }) with spdm := { t.spdm with draws := t.spdm.draws + 1 } }

/-- R102: the answer to the k-th request of the peer's turn: the chain, the challenge's measurement summary, the measured
slots; the last two signed with the transcript by the boot key. -/
def State.answerPeer (s : State) (p k : Nat) : State :=
  let tr := (s.port p).transcript
  let sign := fun (bs : List Byte) => bs ++ Config.mldsaSign (s.svm.aliasSeed.getD []) (tr ++ bs)
  let bs := if k = 0 then s.chain else if k = 1 then sign (digestBytes (Config.sha3 (s.measured 4))) else sign (s.measured 32)
  (s.sayAdm p bs).updPort p (fun x => { x with answered := k + 1 })

/-- R105: the twin proof of a sender: its identity digest, the transcript hash and this device's owner key. -/
def State.twinProof (s : State) (p : Nat) (sender : List Byte) : Digest :=
  let h := Config.sha3 (s.tkm.ownerKey.getD [])
  let th := Config.sha3 (s.port p).transcript
  Config.sha3 (digestBytes h ++ digestBytes th ++ sender)

/-- Both turns of R102 are over on a port. -/
def Port.turnsDone (x : Port) : Bool := x.admitted && decide (3 ≤ x.answered)

/-- R105: a port may exchange keys: both turns are over, and on a twin port the peer's proof has matched. -/
def State.mayKey (s : State) (p : Nat) : Bool :=
  (s.port p).turnsDone && (decide (s.role p ≠ 2) || (s.port p).proofOk)

/-- R102, R103, R105: what follows once both turns are over: a twin port sends its proof, and the initiator its
encapsulation key. -/
def State.admNext (s : State) (p : Nat) : State :=
  let x := s.port p
  let s1 := if x.turnsDone && decide (s.role p = 2) && !x.proofSent then
      (s.updPort p (fun y => { y with proofSent := true })).enqueue p (ctrlFrame 2 (digestBytes (s.twinProof p identity)))
        .none true
    else s
  if s1.mayKey p && x.initiator && x.kemKey.isNone && !x.keyed then s1.offerKey p else s1

/-- R102, R106, R416: the first check that a peer's answers fail, 0 when none does (Table 2 of 15). -/
def State.peerCheck (s : State) (p : Nat) (e : PeerEvidence) : Nat :=
  if !e.chainOk then 1
  else if e.svn < s.svm.fwFloor then 2
  else if e.keyed && (!e.signedOk || decide (e.meas2 ≠ e.cert2) || decide (e.meas3 ≠ e.cert3)) then 3
  else if e.part ≠ 0x7A21 then 4
  else if e.role ≠ s.role p then 5
  else if !e.keyed then 8
  else 0

/-- The other twin port. -/
def otherTwin (p : Nat) : Nat := if p = 14 then 15 else 14

/-- R102, R105, R416: the peer's answers are judged: a failing check refuses the port; otherwise the peer is admitted. -/
def State.judgePeer (s : State) (p : Nat) (e : PeerEvidence) : State :=
  let c := s.peerCheck p e
  let other := s.port (otherTwin p)
  if c ≠ 0 then s.refuse p c
  else if s.role p = 2 ∧ other.admitted = true ∧ other.peer ≠ some e.peer then s.refuse p 7
  else (s.updPort p (fun y => { y with admitted := true, peer := some e.peer })).admNext p

/-- R102, R105: a message of admission takes effect. The device with the lower identity digest initiates: it takes its turn
of three requests first, and the responder its own once it has answered the third (notes/assumptions/117.md). -/
def State.admission (s : State) (p : Nat) (m : AdmMsg) : State :=
  let x := s.port p
  if x.st ≠ .admitting then s
  else
    let heard := fun (bs : List Byte) => s.updPort p (fun y => { y with transcript := y.transcript ++ bs })
    match m with
    | .hello peer =>
      if x.seen.isSome then s
      else
        let first := decide (leNat identity < peer.toNat)
        let s1 := s.updPort p (fun y => { y with seen := some peer, initiator := first })
        if first then s1.askPeer p else s1
    | .request msg =>
      if x.seen.isNone ∨ 3 ≤ x.answered ∨ (x.initiator && !x.admitted) then s
      else
        let s1 := (heard msg).answerPeer p x.answered
        if x.answered = 2 ∧ x.initiator = false then s1.askPeer p else s1.admNext p
    | .response msg => if x.asked = 0 ∨ 3 ≤ x.asked then s else (heard msg).askPeer p
    | .last msg e => if x.asked ≠ 3 ∨ x.admitted = true then s else (heard msg).judgePeer p e
    | .proof proof =>
      match x.peer with
      | some peer =>
        if s.role p ≠ 2 ∨ x.turnsDone = false then s
        else if s.twinProof p (leBytes 32 peer.toNat) = proof then (s.updPort p (fun y => { y with proofOk := true })).admNext p
        else s.refuse p 6
      | none => s

/-- R102: CTRL SPDM. -/
def execSpdm (h : RxHdr) (m : AdmMsg) (s : State) : Host.Outcome State Fault Refusal :=
  .next (s.rx h 1 2 0 (fun t => t.admission h.port m))

/-- R105, R413: a port with its keys enters SERVICE; a twin port does so only when the other twin port has admitted the same
peer, and the two enter together when the other waits for it. -/
def State.joinService (s : State) (p : Nat) : State :=
  if s.role p ≠ 2 then s.enterService p
  else
    let q := otherTwin p
    let y := s.port q
    if y.peer ≠ (s.port p).peer ∨ y.admitted = false ∨ y.proofOk = false then s
    else if y.st = .admitting then (if y.keyed then (s.enterService p).enterService q else s)
    else s.enterService p

/-- R103, R104: an encapsulation key arrives: this device answers with a ciphertext and its signature, and has the direction
keys: at admission for both directions, in SERVICE for the partner's, which its KEYMARK puts in use. -/
def State.kemOffer (s : State) (p : Nat) (key : List Byte) : State :=
  let x := s.port p
  let serve := decide (x.st = .service)
  if !serve && (!s.mayKey p || x.initiator || x.keyed) then s
  else
    let e := Config.kemEncap key s.free
    let tr := (if serve then [] else x.transcript) ++ key ++ e.1
    let th := Config.sha3 tr
    let s1 := s.drawn.enqueue p (ctrlFrame 3 (e.1 ++ Config.mldsaSign (s.svm.aliasSeed.getD []) tr)) .none true
    if serve then s1.updPort p (fun y => { y with nextRx := some (linkKey e.2 th true) })
    else (s1.updPort p (fun y => { y with
      txKey := some (linkKey e.2 th false), rxKey := some (linkKey e.2 th true), keyed := true })).joinService p

/-- R103, R104: a ciphertext arrives for this device's encapsulation key: it has the direction keys, and the decapsulation
key is erased. A change of key is marked by KEYMARK, the last frame under the old key. -/
def State.kemAnswer (s : State) (p : Nat) (ct : List Byte) : State :=
  let x := s.port p
  match x.kemKey with
  | none => s
  | some k =>
    let ss := Config.kemDecap k ct
    let th := Config.sha3 (x.transcript ++ ct)
    if x.st = .service then
      (s.updPort p (fun y => { y with kemKey := none, transcript := [], nextTx := some (linkKey ss th true) })).enqueue p
        (ctrlFrame 4 []) .none true
    else (s.updPort p (fun y => { y with
      kemKey := none
      txKey := some (linkKey ss th true)
      rxKey := some (linkKey ss th false)
      keyed := true })).joinService p

/-- R103, R104, R416: CTRL KEM: a message of a key exchange; a failure refuses the port. -/
def State.kem (s : State) (p : Nat) (m : KemMsg) : State :=
  if !m.ok then s.refuse p 9 else if m.offer then s.kemOffer p m.bytes else s.kemAnswer p m.bytes

/-- R103: CTRL KEM. -/
def execKem (h : RxHdr) (m : KemMsg) (s : State) : Host.Outcome State Fault Refusal :=
  .next (s.rx h 1 3 0 (fun t => t.kem h.port m))

/-- R104: CTRL KEYMARK: the partner's next frame is the first under its new key. -/
def execKeymark (h : RxHdr) (s : State) : Host.Outcome State Fault Refusal :=
  .next (s.rx h 1 4 0 (fun t => t.updPort h.port (fun x => { x with
    rxMarked := true
    rxKey := if x.nextRx.isSome then x.nextRx else x.rxKey
    nextRx := none })))

/-- R419: CTRL CREDIT grants sectors for each VLANE. -/
def execCredit (h : RxHdr) (counts : List Nat) (s : State) : Host.Outcome State Fault Refusal :=
  .next (s.rx h 1 5 32 (fun t => t.updPort h.port (fun x => { x with
    credit := (List.range 5).map (fun i => x.credit.getD i 0 + counts.getD i 0) })))

/-- R414: CTRL KEEPALIVE is a valid frame. -/
def execKeepalive (h : RxHdr) (s : State) : Host.Outcome State Fault Refusal := .next (s.rx h 1 6 0 id)

/-- R421, R434: CTRL NODE gives the neighbour's number, and the node leaves the lost set. -/
def execNode (h : RxHdr) (node : Nat) (s : State) : Host.Outcome State Fault Refusal :=
  .next (s.rx h 1 7 32 (fun t =>
    let t1 := t.updPort h.port (fun x => { x with peerNode := some (node % 4096) })
    { t1 with cle := { t1.cle with lost := nsDel t1.cle.lost (node % 4096) } }))

/-- R432: a CANCEL for this device ends the collective or is recorded for its start; one for another node goes on. -/
def State.cancelIn (s : State) (node group seq st : Nat) : State :=
  if !s.isNode node then s.sendNode node (ctrlFrame 8 (cancelPayload node group seq st)) .none true
  else
    match s.collNamed group seq with
    | some c => s.endColl c.desc st none
    | none => { s with cle := { s.cle with cancels := (group, seq, st) :: s.cle.cancels } }

/-- R432: CTRL CANCEL. -/
def execCancel (h : RxHdr) (node group seq st : Nat) (s : State) : Host.Outcome State Fault Refusal :=
  .next (s.rx h 1 8 32 (fun t => t.cancelIn node group seq st))

/-- R436: CTRL TWIN_STATE: a twin that reports FRESH has lost this device's checkpoints. -/
def execTwinState (h : RxHdr) (resumed : Bool) (s : State) : Host.Outcome State Fault Refusal :=
  .next (s.rx h 1 9 32 (fun t =>
    if !resumed ∧ t.twc.ckptDone ∧ t.role h.port = 2 then
      { t with twc := { t.twc with emptied := true, st := if t.twc.st = .paired then .unmirrored else t.twc.st } }
    else t))

/-- R418: CTRL REPLAY: stored frames from an LSEQ are sent again. -/
def execReplay (h : RxHdr) (lseq : Nat) (s : State) : Host.Outcome State Fault Refusal :=
  .next (s.rx h 1 0xA 32 (fun t => t.updPort h.port (fun x => { x with
    replays := x.replays + BitVec.ofNat 64 (x.unacked.filter (fun f => decide (seqDist f.lseq lseq < 2 ^ 31))).length })))

/-! ## Window frames (R374, R375, R420) -/

/-- INFO of a WIN_DATA or WIN_ACK. -/
def ansInfo (rtag st : Nat) : List Byte := zeros 4 ++ leBytes 2 rtag ++ leBytes 1 st

/-- The outcome of the checks of R374: performed at physical addresses, returned with a status, or waiting. -/
inductive WinGot where
  | ok (pas : List Nat)
  | ret (st : Nat)
  | wait

/-- R374: checks a frame for window bytes [o, o1) of an entry. -/
def State.winCheck (s : State) (port entry gen o o1 : Nat) (n : Need) : WinGot :=
  let e := Tab.get WinEntry.none s.xlt.win entry
  let closing := match s.xlt.drain with | some (_, _, .winClose k) => decide (k = entry) | _ => false
  if !e.valid || e.gen.toNat ≠ gen || closing || s.xlt.winPoison.contains entry then .ret stStale
  else if !e.ports.getLsbD port || e.len < o1 || !e.perm.getLsbD n.bit then .ret stPerm
  else
    let r := (s.ctx e.ctx).range e.range
    match s.xlateSpan e.ctx .other n (r.vbase + e.offset + o) (o1 - o) with
    | .ok pas => .ok pas
    | .wait => .wait
    | .fault _ _ _ => .ret stPerm

/-- R365: a frame for window bytes [o, o1) of an entry goes on through the ranges it uses. -/
def State.winRanges (s : State) (entry o o1 : Nat) (k : State → State) : State :=
  let e := Tab.get WinEntry.none s.xlt.win entry
  let base := ((s.ctx e.ctx).range e.range).vbase + e.offset
  s.withRanges unitRtb e.ctx (vAddrs (base + o) (o1 - o)) k

/-- R449: a frame that names a poisoned window entry kills the context that owns it. -/
def State.winPoisoned (s : State) (entry : Nat) : State :=
  let e := Tab.get WinEntry.none s.xlt.win entry
  if s.xlt.winPoison.contains entry && e.valid then
    ({ s with xlt := { s.xlt with winPoison := s.xlt.winPoison.filter (· ≠ entry) } }).consume e.ctx 0xC 0xFF 0 0 none
  else s

/-- R374, R420: WIN_WRITE. A frame whose range is being drained waits. -/
def execWinWrite (h : RxHdr) (info payload : List Byte) (s : State) : Host.Outcome State Fault Refusal :=
  let entry := leAt info 0 2 % 16384
  let tag := leAt info 4 2
  let o := leAt info 8 8 + leAt info 6 1 % 32
  let o1 := leAt info 8 8 + (payload.length - 32) + leAt info 7 1 % 32 + 1
  match s.winCheck h.port entry (leAt info 2 2) o o1 .write with
  | .wait => .next s
  | .ret st => .next (s.rx h 2 0 payload.length (fun t =>
      ((t.linkPoison h entry).winPoisoned entry).enqueue h.port (mkFrame 5 (ansInfo tag st) []) .none true))
  | .ok pas => .next (s.winRanges entry o o1 (fun s => s.whenRecalled (s.writeWaits .windowWrite pas) (fun s =>
      s.rx h 2 0 payload.length (fun t =>
      let data := (payload.drop (o % 32)).take pas.length
      let hit := ((List.range pas.length).zip pas).filter (fun p => h.poison.getLsbD ((p.1 + o % 32) / 32))
      (((t.linkPoison h entry).unitStore .windowWrite (pas.zip data)).mark (hit.map (·.2))).enqueue h.port
        (mkFrame 5 (ansInfo tag stOk) []) .none true))))

/-- R374, R420: WIN_READ. -/
def execWinRead (h : RxHdr) (info : List Byte) (s : State) : Host.Outcome State Fault Refusal :=
  let entry := leAt info 0 2 % 16384
  let tag := leAt info 4 2
  let o := leAt info 8 8
  match s.winCheck h.port entry (leAt info 2 2) o (o + 32 * leAt info 6 1) .read with
  | .wait => .next s
  | .ret st => .next (s.rx h 3 0 0 (fun t =>
      (t.winPoisoned entry).enqueue h.port (mkFrame 5 (ansInfo tag st) []) .none true))
  | .ok pas => .next (s.winRanges entry o (o + 32 * leAt info 6 1) (fun s => s.rx h 3 0 0 (fun t =>
      (t.unitRead .windowRead pas).enqueue h.port { mkFrame 4 (ansInfo tag 0) (t.rdAt pas) with poison := t.payPoison pas }
        .none true)))

/-- Removes an answered request of a port, and completes a COPY that a failed frame stopped once the last is answered
(R420). -/
def State.winAnswered (s : State) (p : Nat) (w : WinReq) (done : Nat) : State :=
  let s1 := (s.updPort p (fun x => { x with wins := x.wins.filter (fun y => decide (y.rtag ≠ w.rtag)) })).updDesc w.desc
    (fun d => { d with pos := d.pos + done })
  match s1.desc? w.desc with
  | none => s1
  | some d =>
    if (s1.winsOf w.desc).isEmpty && d.stop && (d.marks.contains stStale || d.marks.contains stPerm) then
      s1.endDescWith w.desc stOk (BitVec.ofNat 64 d.pos)
    else s1

/-- R420, R371: WIN_DATA brings a COPY's bytes, marks with them; its chunk is a use in flight. -/
def execWinData (h : RxHdr) (info payload : List Byte) (s : State) : Host.Outcome State Fault Refusal :=
  match (s.port h.port).wins.find? (fun w => decide (w.rtag = leAt info 4 2) && !w.write) with
  | none => .next (s.rx h 4 0 payload.length (fun t => t.linkPoison h 0))
  | some w =>
    match s.desc? w.desc with
    | none => .next (s.rx h 4 0 payload.length (fun t => t.linkPoison h 0))
    | some d =>
      match s.windowAt d.ctx (d.fld 0x10 8 + w.pos) with
      | none => .next (s.rx h 4 0 payload.length (fun t => t.linkPoison h 0))
      | some (r, _, _) =>
        match (s.ctx d.ctx).held.span .copy .write (vAddrs (d.fld 0x18 8 + w.pos) w.len) with
        | .wait => .next s
        | .fault k _ _ => .next (s.rx h 4 0 payload.length (fun t =>
            ((t.linkPoison h r.winEntry).updDesc d.id (fun x => { x with
              stop := true
              marks := x.marks ++ [if k = 4 then stXlate else stPerm] })).winAnswered h.port w 0))
        | .ok pas => .next (s.whenRecalled (s.writeWaits .stream pas) (fun s => s.rx h 4 0 payload.length (fun t =>
            let data := (payload.drop (w.off % 32)).take pas.length
            let hit := ((List.range pas.length).zip pas).filter (fun p => h.poison.getLsbD ((p.1 + w.off % 32) / 32))
            (((t.linkPoison h r.winEntry).unitStore .stream (pas.zip data)).mark (hit.map (·.2))).winAnswered h.port w w.len)))

/-- R375: the stale record of a COPY's window, one for each descriptor and window: the first frame that returns from it. -/
def State.copyStale (s : State) (d : Desc) (w : WinReq) : State :=
  let win := match s.windowAt d.ctx (d.fld 0x10 8 + w.pos) with
    | some x => some x
    | none => s.windowAt d.ctx (d.fld 0x18 8 + w.pos)
  match win with
  | none => s
  | some (r, i, _) =>
    if d.stales.contains i then s
    else (s.updDesc d.id (fun x => { x with stales := i :: x.stales })).postStale { StaleRec.none with
      ctx := d.ctx
      range := i
      cause := 1
      entry := r.winEntry
      gen := r.winGen
      port := r.winPort
      offset := w.off / 32 * 32
      queue := d.queue }

/-- R420: WIN_ACK acknowledges a write, or returns a failure: the sender issues no further frame of the COPY. -/
def State.winAck (s : State) (p rtag st : Nat) : State :=
  match (s.port p).wins.find? (fun w => decide (w.rtag = rtag)) with
  | none => s
  | some w =>
    if st = stOk then s.winAnswered p w w.len
    else
      match s.desc? w.desc with
      | none => s
      | some d =>
        let first := !(d.marks.contains stStale || d.marks.contains stPerm)
        let s1 := if st = stStale then s.copyStale d w else s
        let s2 := s1.updPort p (fun x => Port.settled { x with
          wins := x.wins.filter (fun y => !(decide (y.desc = d.id) && x.unsent y))
          queue := x.queue.filter (fun f => match f.of with | .copy i _ => decide (i ≠ d.id) | _ => true) })
        let s3 := s2.updDesc d.id (fun x => { x with stop := true, marks := if first then x.marks ++ [st] else x.marks })
        s3.winAnswered p w 0

/-- R420: WIN_ACK. -/
def execWinAck (h : RxHdr) (info : List Byte) (s : State) : Host.Outcome State Fault Refusal :=
  .next (s.rx h 5 0 0 (fun t => t.winAck h.port (leAt info 4 2) (leAt info 6 1)))

/-! ## COLL frames (R421, R427 to R431) -/

/-- R421: a COLL frame of a kind, or of a reserved one, which any of the five commands brings (R429): for this device it takes effect or waits in the pool, for another it goes on. One that
the pool has no room for waits for credit. -/
def State.collFrame (s : State) (h : RxHdr) (info payload : List Byte) (kind : Nat) : State :=
  let c := CollHdr.parse info
  let fr : Frame := { mkFrame 8 info payload with poison := h.poison }
  if c.kind ≠ kind ∧ 1 ≤ c.kind ∧ c.kind ≤ 5 then s
  else if !s.isNode c.dst then
    s.rx h 8 0 payload.length (fun t => (t.linkPoison h 0).sendNode c.dst fr .none true)
  else
    s.collTake h.port fr (fun u f => u.rx h 8 0 payload.length (fun t => f (t.linkPoison h 0)))

/-- R427: COLL PARTIAL. -/
def execPartialFrame (h : RxHdr) (info payload : List Byte) (s : State) : Host.Outcome State Fault Refusal :=
  .next (s.collFrame h info payload 1)

/-- R427: COLL RESULT. -/
def execResultFrame (h : RxHdr) (info payload : List Byte) (s : State) : Host.Outcome State Fault Refusal :=
  .next (s.collFrame h info payload 2)

/-- R427: COLL BLOCK. -/
def execBlockFrame (h : RxHdr) (info payload : List Byte) (s : State) : Host.Outcome State Fault Refusal :=
  .next (s.collFrame h info payload 3)

/-- R429: COLL GRANT. -/
def execGrantFrame (h : RxHdr) (info : List Byte) (s : State) : Host.Outcome State Fault Refusal :=
  .next (s.collFrame h info [] 4)

/-- R431: COLL RECEIPT. -/
def execReceiptFrame (h : RxHdr) (info : List Byte) (s : State) : Host.Outcome State Fault Refusal :=
  .next (s.collFrame h info [] 5)

/-! ## MIRROR, notices and wakes -/

/-- R438: MIRROR: checkpoint bytes go into the blocks of their entry, marks with them; the last frame of a chunk is
acknowledged. Bytes past the entry's blocks are discarded. -/
def State.mirrorIn (s : State) (h : RxHdr) (info payload : List Byte) (first : Option MirrorDesc) : State :=
  let e := leAt info 0 1
  let off := leAt info 8 8
  match (s.port h.port).peer with
  | none => s
  | some peer =>
    let s1 := match first with | some d => s.openEntry e d peer | none => s
    match s1.twc.entry e with
    | none => s1
    | some x =>
      if x.kind ≠ .progress ∨ 65536 * x.blocks.length < off + payload.length then s1
      else
        let pas := addrs (x.phys off) payload.length
        let hit := ((List.range pas.length).zip pas).filter (fun p => h.poison.getLsbD (p.1 / 32))
        let s2 := ((s1.linkPoison h 0).unitStore .stream (pas.zip payload)).mark (hit.map (·.2))
        let got := x.got + payload.length
        let cat := Tab.put none s2.twc.cat e (some { x with got := got })
        let s3 : State := { s2 with twc := { s2.twc with cat := cat } }
        let s4 := if (off + payload.length) % 65536 = 0 then
            s3.enqueue h.port (mkFrame 0xA (mirrorInfo e (off / 65536 * 65536)) []) .none true else s3
        if 65536 * x.blocks.length ≤ got then s4.closeEntry e peer else s4

/-- R438: MIRROR. -/
def execMirror (h : RxHdr) (info payload : List Byte) (first : Option MirrorDesc) (s : State) :
    Host.Outcome State Fault Refusal :=
  .next (s.rx h 9 0 payload.length (fun t => t.mirrorIn h info payload first))

/-- R438: MIRROR_ACK. -/
def execMirrorAck (h : RxHdr) (info : List Byte) (s : State) : Host.Outcome State Fault Refusal :=
  .next (s.rx h 0xA 0 0 (fun t => t.mirrorAcked (leAt info 0 1)))

/-- R433: HOLD makes a notice live, or refreshes it. -/
def execHold (h : RxHdr) (info : List Byte) (s : State) : Host.Outcome State Fault Refusal :=
  .next (s.rx h 0xC 0 0 (fun t =>
    let n : Notice := ⟨leAt info 0 2, leAt info 2 1, leAt info 3 1, leAt info 4 1, leAt info 5 1, t.now⟩
    t.updPort h.port (fun x => { x with
      notices := x.notices.filter (fun m => !(decide (m.origin = n.origin) && decide (m.cause = n.cause)
        && decide (m.unit = n.unit))) ++ [n] })))

/-- R434: LOST: a notice seen before is discarded; another is relayed once, and the node is lost. -/
def State.lostIn (s : State) (p node reporter hops event : Nat) : State :=
  if s.cle.seen.contains (node, reporter, event) then s
  else
    let s1 : State := { s with cle := { s.cle with seen := (node, reporter, event) :: s.cle.seen } }
    let s2 := if hops < 63 then
        (s1.fabricPorts.filter (· ≠ p)).foldl (fun (t : State) q =>
          t.enqueue q (mkFrame 0xD (lostInfo node reporter (hops + 1) event) []) .none true) s1
      else s1
    s2.loseNode node

/-- R434: LOST. -/
def execLost (h : RxHdr) (info : List Byte) (s : State) : Host.Outcome State Fault Refusal :=
  .next (s.rx h 0xD 0 0 (fun t => t.lostIn h.port (leAt info 0 2) (leAt info 2 2) (leAt info 4 1) (leAt info 8 4)))

/-- R422: WAKE: another node's goes on; this device's is checked, recorded and answered. -/
def State.wakeIn (s : State) (info : List Byte) : State :=
  let dst := leAt info 0 2
  let src := leAt info 2 2
  if !s.isNode dst then s.sendNode dst (mkFrame 0xE info []) .none true
  else
    let core := leAt info 4 1
    let gen := leAt info 6 2
    let r := s.wakeHere core gen
    r.1.sendNode src (mkFrame 0xF (wakeInfo src dst core r.2 gen (leAt info 8 4)) []) .none false

/-- R422: WAKE. -/
def execWake (h : RxHdr) (info : List Byte) (s : State) : Host.Outcome State Fault Refusal :=
  .next (s.rx h 0xE 0 0 (fun t => t.wakeIn info))

/-- R431: WAKE_ACK completes the collective that waits for it. -/
def State.wakeAckIn (s : State) (info : List Byte) : State :=
  let dst := leAt info 0 2
  if !s.isNode dst then s.sendNode dst (mkFrame 0xF info []) .none true
  else
    match s.cle.colls.find? (fun c => decide (c.waiting = some (leAt info 8 4))) with
    | some c => s.collWoken c.desc (leAt info 5 1)
    | none => s

/-- R431: WAKE_ACK. -/
def execWakeAck (h : RxHdr) (info : List Byte) (s : State) : Host.Outcome State Fault Refusal :=
  .next (s.rx h 0xF 0 0 (fun t => t.wakeAckIn info))

/-! ## Descriptors -/

/-- R425: an extent of a COLLECTIVE: any failure of R364 ends it with PERM_FAULT. -/
def State.collExtent (s : State) (d : Desc) (n : Need) (va len : Nat) : Got :=
  match s.xlateSpan d.ctx .other n va len with
  | .ok pas => .ok pas
  | .wait => .stop s
  | .fault _ _ _ => .stop (s.endDesc d.id stPerm)

/-- R425, R434: a COLLECTIVE's checks; it then waits for staging, unless a cancel or a lost node ends it. -/
def State.collStart (s : State) (d : Desc) : State :=
  let c := s.collFrom d
  if !s.collOk d c then s.endDesc d.id stPerm
  else
    match s.collExtent d .read c.src (c.inLen * c.esz) with
    | .stop t => t
    | .ok _ =>
      match s.collExtent d .write c.dst (c.outLen * c.esz) with
      | .stop t => t
      | .ok _ =>
        if 0 < c.outLen ∧ c.src < c.dst + c.outLen * c.esz ∧ c.dst < c.src + c.inLen * c.esz then s.endDesc d.id stPerm
        else
          let s1 := s.updDesc d.id (fun x => { x with ready := true })
          let s2 : State := { s1 with cle := { s1.cle with colls := s1.cle.colls ++ [c] } }
          match s2.cle.cancels.find? (fun x => decide (x.1 = c.group) && decide (x.2.1 = c.seq)) with
          | some x =>
            ({ s2 with cle := { s2.cle with cancels := s2.cle.cancels.filter (fun y =>
              !(decide (y.1 = c.group) && decide (y.2.1 = c.seq))) } }).endColl d.id x.2.2 none
          | none => if c.nodes.any (fun n => nsHas s2.cle.lost n) then s2.endColl d.id stLink (some stLink) else s2

/-- R425: a COLLECTIVE starts. -/
def execCollective (id : Nat) (s : State) : Host.Outcome State Fault Refusal :=
  .next (s.starting id tyCollective State.collStart)

/-- R428: a collective starts once fewer than 16 run, the engine is open and staging has 1 MiB for each rank that sends
it partials, beside the pool's 16 MiB. -/
def execCollectiveStart (id : Nat) (s : State) : Host.Outcome State Fault Refusal :=
  match s.collOf id with
  | none => .next s
  | some c =>
    let stop := match s.desc? id with | some d => d.stop || d.waiting | none => false
    .next (if !c.started && !stop && !s.cle.close && decide (s.cle.active < 16)
        && decide (s.cle.reserved + c.sources.length + 16 ≤ 256) then s.collReady c c.inBytes c.outBytes (fun t => t.collRun c)
      else s)

/-- R438: a CHECKPOINT starts, unless the twin controller is closed (R442). -/
def execCheckpoint (id : Nat) (entry : Option Nat) (s : State) : Host.Outcome State Fault Refusal :=
  .next (if s.twc.close then s else s.starting id tyCheckpoint (fun t d => t.ckptStart d entry))

/-- R440: a chunk of an IMPORT or SEND. -/
def execTwinCopyChunk (entry : Option Nat) (s : State) : Host.Outcome State Fault Refusal := .next (s.twinChunk entry)

end Sys2Proof.Machine
end

