-- ==== Sys2Proof/Machine/Memory.lean ====
section
/-!
DEFINITION. Requests at the home slices (R326 to R334), the controllers' transactions (R330, R331, R338, R339), the patrol
scrub (R342), stack temperatures (R343), channel retraining (R347 to R350), exclusion (R351 to R355), the MCU registers
(R356, R357) and uncorrectable SRAM entries (R446).
-/
namespace Sys2Proof.Machine

/-- Whether a stack is in self-refresh for heat. -/
def State.stopped (s : State) (i : Nat) : Bool := decide ((s.stack i).therm = .stopped)

/-- Whether a stack is in self-refresh: stopped for heat, in Frost (R480), or in HELD (Table 8 of 02). -/
def State.asleep (s : State) (i : Nat) : Bool := s.stopped i || s.dev.frost || decide (s.dev.life = .held)

/-! ## Slices -/

/-- R326 to R328, R334: a request at its home slice: a hit is served, and what it needs of DRAM goes to the controllers,
whose completions allocate (R331). A class 2 write and a narrow hit stay in the line. -/
def State.sliceServe (s : State) (r : SliceReq) : State :=
  let s1 := if r.write || r.excl then s.takeCopy r.line r.core true else s.takeCopy r.line r.core false
  let n := r.who.narrow
  let cls := r.who.cls
  let l := s1.line r.line
  let full := (bePart r.be r.mask).foldl (fun (a : BitVec 8) k => a &&& ~~~(BitVec.ofNat 8 (2 ^ k))) r.mask
  if r.write then
    if n then
      if s1.hits r.line r.mask then s1.allocate r.line r.mask full r.mask
      else (s1.allocate r.line r.mask full 0).sendTxn true 0 true r.line r.mask r.be
    else if clsAllocates cls then
      (match s1.room r.line with
      | .none => s1.sendTxn false cls true r.line r.mask r.be
      | _ => s1.allocate r.line r.mask full r.mask)
    else (if l.valid &&& r.mask ≠ 0 then s1.touchLine r.line id else s1).sendTxn false cls true r.line r.mask r.be
  else
    let miss := (if n || !clsAllocates cls then r.mask else 0xFF#8) &&& ~~~l.valid
    let s2 := if l.valid &&& r.mask ≠ 0 then s1.touchLine r.line id else s1
    if miss = 0 then s2 else s2.sendTxn n cls false r.line miss 0

/-- R326, R334: a request reaches its home slice. While the host may hold the line of an exclusive request or a write, or
the line that must leave to make room, the request waits for the host's answer. -/
def execSliceRequest (r : SliceReq) (s : State) : Host.Outcome State Fault Refusal :=
  let alloc := r.who.narrow || clsAllocates r.who.cls
  .next (s.whenRecalled (s.waitsFor r.line (r.excl || r.write) alloc) (fun t => t.sliceServe r))

/-! ## Retraining -/

/-- R351: whether the top sixteen groups are to be given up: at the first failure. -/
def State.beginRetire (s : State) : State :=
  if s.excl.inForce.isSome then s else { s with excl := { s.excl with retiring := true } }

/-- A CHANNEL record (Table 5 of 16). -/
def chanRecord (ch cause : Nat) : LogRec :=
  { ((LogRec.mk0 7 sevRecoverable cause 6).withIndex (ch / 32)) with channel := ch % 32 }

/-- R351: a channel is declared failed. -/
def State.declareFailed (s : State) (ch : Nat) : State :=
  if (s.chan ch).failed then s
  else ((s.updChan ch (fun c => { c with failed := true, st := if c.st = .ready then .failedReadable else c.st })).beginRetire).post
    (chanRecord ch 2)

/-- R347: a channel begins to retrain. -/
def State.startRetrain (s : State) (ch : Nat) : State :=
  let times := s.now :: (s.chan ch).retrainTimes.filter (fun t => decide (s.now < t + 1000000))
  (s.updChan ch (fun c => { c with
    st := .retraining
    retrains := if c.retrains = 0xFFFF then c.retrains else c.retrains + 1
    retrainTimes := times })).updMcu (ch / 32) (fun m => { m with retraining := some (ch % 32) })

/-- Whether a channel serves requests and so can retrain: ready, or failed and readable (R347, R351). -/
def State.trains (s : State) (ch : Nat) : Bool :=
  decide ((s.chan ch).st = .ready) || decide ((s.chan ch).st = .failedReadable)

/-- R347: a trigger: the channel retrains, or waits for the controller's retrain to end and for the stack to leave
self-refresh. -/
def State.trigger (s : State) (ch : Nat) : State :=
  let m := s.stack (ch / 32)
  if !s.trains ch then s
  else if m.retraining.isSome || s.asleep (ch / 32) then
    if m.retrainWait.contains (ch % 32) then s
    else s.updMcu (ch / 32) (fun x => { x with retrainWait := x.retrainWait ++ [ch % 32] })
  else s.startRetrain ch

/-- Starts the first trigger that waits of a channel that can still retrain. -/
def State.nextRetrain (s : State) (i : Nat) : State :=
  if (s.stack i).retraining.isSome || s.asleep i then s
  else
    match (s.stack i).retrainWait.filter (fun c => s.trains (32 * i + c)) with
    | [] => s
    | c :: r => (s.updMcu i (fun m => { m with retrainWait := r })).trigger (32 * i + c)

/-- The retrains that waited for the stacks to leave self-refresh start. -/
def State.retrainAll (s : State) : State := (List.range 8).foldl State.nextRetrain s

/-- LIFE changes, and stacks that leave self-refresh with it go on with the retrains that waited (Table 8 of 02, R347). -/
def State.toLife (s : State) (l : Life) : State := (s.setLife l).retrainAll

/-- Ends an MCU command of a stack. -/
def State.mcuDone (s : State) (i op code : Nat) : State := s.updMcu i (fun m => { m with cmd := m.cmd.finish op code })

/-- Ends RETRAIN when the channel that it named has retrained (R357). -/
def State.retrainCmd (s : State) (i c : Nat) : State :=
  let m := s.stack i
  if m.cmd.busy && decide (m.cmd.op = 1) && decide (m.cmdChan = c) then s.mcuDone i 1 0 else s

/-- R347: a command or address parity error on channel c of stack i. -/
def execParityError (i c : Nat) (s : State) : Host.Outcome State Fault Refusal := .next (s.trigger (32 * i + c))

/-- R347: a controller starts one channel's periodic turn. -/
def execPeriodicRetrainTurn (i : Nat) (s : State) : Host.Outcome State Fault Refusal :=
  let c := (s.stack i).turn
  .next ((s.updMcu i (fun m => { m with turn := (c + 1) % 32 })).trigger (32 * i + c))

/-! ## Controllers -/

/-- The channel state lets a transaction proceed: not retraining, and the stack not stopped. -/
def State.chanRuns (s : State) (ch : Nat) : Bool := decide ((s.chan ch).st ≠ .retraining) && !s.stopped (ch / 32)

/-- A DRAM record of a sector (Table 5 of 16). -/
def State.dramRecord (s : State) (type sev sector syndrome : Nat) : LogRec :=
  let a := s.chanOf (32 * sector)
  { ((LogRec.mk0 type sev 0 6).withIndex (a.ch / 32)).withAddr (32 * sector) false with
    channel := a.ch % 32
    syndrome := syndrome }

/-- The sectors of a transaction. -/
def Txn.sectors (t : Txn) : List Nat := (maskSectors t.mask).map (8 * t.line + ·)

/-- The sectors of a write in which it covers some codeword of 8 data bytes only in part (R339). -/
def Txn.partialSectors (t : Txn) : List Nat :=
  ((maskSectors t.mask).filter (fun k => (List.range 4).any (fun j =>
    let e := (beOf t.be k).extractLsb' (8 * j) 8
    decide (e ≠ 0#8) && decide (e ≠ 0xFF#8)))).map (8 * t.line + ·)

/-- Transactions outstanding at a controller: waiting, in its pools, or buffered in a retrain. -/
def Mcu.outstanding (m : Mcu) : List Txn := m.waiting ++ m.normal ++ m.narrow ++ m.ch.flatMap (·.buffered)

/-- Writes outstanding at the controllers to a sector, among those that reached the slices from place q on. -/
def State.laterWrites (s : State) (q sector : Nat) : List Txn :=
  (s.mcu.flatMap Mcu.outstanding).filter (fun t => t.write && decide (q ≤ t.seq) && t.sectors.contains sector)

/-- R338, R347: a corrected codeword: counted and recorded, and written back as class 3 unless a write to its sector has
reached the slice; the sixteenth within 1 ms retrains the channel. -/
def State.corrected (s : State) (q sector syndrome : Nat) : State :=
  let ch := (s.chanOf (32 * sector)).ch
  let times := s.now :: (s.chan ch).ceTimes.filter (fun t => decide (s.now < t + 1000))
  let s1 := (s.updChan ch (fun c => { c with ce := c.ce + 1, ceTimes := times })).updMcu (ch / 32)
    (fun m => { m with ceCount := m.ceCount + 1 })
  let dirty := (s.line (sector / 8)).dirty.getLsbD (sector % 8)
  let s2 := if dirty || !(s.laterWrites q sector).isEmpty then s1
    else s1.sendTxn false 3 true (sector / 8) (BitVec.ofNat 8 (2 ^ (sector % 8))) (BitVec.allOnes 256)
  let s3 := s2.post (s2.dramRecord 1 sevCorrected sector syndrome)
  if 16 ≤ times.length then s3.trigger ch else s3

/-- R338: an uncorrectable codeword: its sector is poisoned, written with the poison syndrome as class 3, counted and
recorded, with data under R85. A sector of which a cache holds a good copy is lost in DRAM alone, and one that a later
write covers whole keeps no mark. -/
def State.uncorrectable (s : State) (q sector syndrome : Nat) : State :=
  let ch := (s.chanOf (32 * sector)).ch
  let covered := (s.laterWrites q sector).any (fun t => decide (beOf t.be (sector % 8) = BitVec.allOnes 32))
  let s0 : State := if covered then s
    else if s.copied (32 * sector) then { s with dram := { s.dram with lost := nsIns s.dram.lost sector } }
    else s.mark [32 * sector]
  let s1 := (s0.updMcu (ch / 32) (fun m => { m with ueCount := m.ueCount + 1 })).sendTxn false 3 true (sector / 8)
    (BitVec.ofNat 8 (2 ^ (sector % 8))) (BitVec.allOnes 256)
  let r := s1.dramRecord 2 sevRecoverable sector syndrome
  s1.post (if s1.faultData then r.withData (s1.sectorData sector) else r)

/-- R337: wrong bytes of a sector, unless a newer copy of it exists. -/
def State.wrongBytes (s : State) (q sector : Nat) (bs : List Byte) : State :=
  if s.copied (32 * sector) || !(s.laterWrites q sector).isEmpty then s else s.putCells ((addrs (32 * sector) 32).zip bs)

/-- R337, R338: what a read of a codeword finds, among sectors that a request at place q reads. -/
def State.found (s : State) (q : Nat) (sectors : List Nat) (e : DramErr) : State :=
  match e with
  | .clean => s
  | .corrected k y => if sectors.contains k then s.corrected q k y else s
  | .uncorrectable k y => if sectors.contains k then s.uncorrectable q k y else s
  | .miscorrected k y bs => if sectors.contains k then (s.wrongBytes q k bs).corrected q k y else s
  | .undetected k bs => if sectors.contains k then s.wrongBytes q k bs else s

/-- What a read finds, codeword by codeword. -/
def State.foundAll (s : State) (q : Nat) (sectors : List Nat) (es : List DramErr) : State :=
  es.foldl (fun t e => t.found q sectors e) s

/-- R330: controller i accepts a waiting transaction of a path when its pool has room; the class arbiter chooses among
normal ones. -/
def execControllerAccept (i : Nat) (narrow : Bool) (s : State) : Host.Outcome State Fault Refusal :=
  let m := s.stack i
  if narrow then
    match findIdx? (fun (t : Txn) => t.narrow) m.waiting with
    | none => .next s
    | some k =>
      if 4096 ≤ m.narrow.length then .next s
      else .next (s.updMcu i (fun x => { x with
        waiting := x.waiting.eraseIdx k
        narrow := x.narrow ++ (m.waiting[k]?).toList }))
  else if 12288 ≤ m.normal.length then .next s
  else
    let req := fun (ts : List Txn) (c : Nat) => ts.any (fun t => !t.narrow && decide (t.cls = c))
    match m.classArb.serve classParams (req m.waiting) with
    | none => .next s
    | some (c, a) =>
      match findIdx? (fun (t : Txn) => !t.narrow && decide (t.cls = c)) m.waiting with
      | none => .next s
      | some k => .next (s.updMcu i (fun x => { x with
          classArb := a.settle (req (m.waiting.eraseIdx k))
          waiting := x.waiting.eraseIdx k
          normal := x.normal ++ (m.waiting[k]?).toList }))

/-- The k-th transaction of a controller's path. -/
def Mcu.txn? (m : Mcu) (narrow : Bool) (k : Nat) : Option Txn := if narrow then m.narrow[k]? else m.normal[k]?

/-- Removes the k-th transaction of a path. -/
def Mcu.dropTxn (m : Mcu) (narrow : Bool) (k : Nat) : Mcu :=
  if narrow then { m with narrow := m.narrow.eraseIdx k } else { m with normal := m.normal.eraseIdx k }

/-- R331: whether no outstanding transaction that reached the slice earlier overlaps a transaction, one of the two being a
write. -/
def Mcu.inOrder (m : Mcu) (t : Txn) : Bool :=
  m.outstanding.all (fun u => decide (t.seq ≤ u.seq) || (!u.write && !t.write) || decide (u.line ≠ t.line)
    || decide (u.mask &&& t.mask = 0))

/-- The channels that hold a transaction's sectors. -/
def State.chansOf (s : State) (t : Txn) : List Nat := (t.sectors.map (fun k => (s.chanOf (32 * k)).ch)).eraseDups

/-- Whether a controller may issue a transaction: in order, its stack awake, and for a read no channel of it retraining
(R331, R346, R349). -/
def State.issuable (s : State) (i : Nat) (t : Txn) : Bool :=
  (s.stack i).inOrder t && !s.stopped i && (t.write || (s.chansOf t).all s.chanRuns)

/-- The pseudo-channel, within its stack, of a transaction's first sector. -/
def State.slotOf (s : State) (t : Txn) : Nat :=
  let a := s.chanOf (32 * t.sectors.headD 0)
  a.ch % 32 * 2 + a.off / 128 % 2

/-- The requests at a pseudo-channel's command slot: 0 the normal path, 1 the narrow path. -/
def State.slotReq (s : State) (i c p : Nat) : Bool :=
  (if p = 0 then (s.stack i).normal else if p = 1 then (s.stack i).narrow else []).any (fun t =>
    decide (s.slotOf t = c) && s.issuable i t)

/-- Table 4 of 01: the command slot's arbiter grants a transaction's path, or the transaction waits. One decision is made
for a transaction, at the pseudo-channel of its first sector (notes/assumptions/108.md). -/
def State.slotGrant (s : State) (i : Nat) (narrow : Bool) (t : Txn) : Option State :=
  let c := s.slotOf t
  if !s.issuable i t then none
  else
    match ((s.stack i).slots.getD c (Arb.reset 2)).serve slotParams (s.slotReq i c) with
    | none => none
    | some (p, a) => if p = bnat narrow then some (s.updMcu i (fun m => { m with slots := modAt m.slots c (fun _ => a) })) else none

/-- The command slot once a transaction has left its pool (R27, R28). -/
def State.slotSettle (s : State) (i c : Nat) : State :=
  s.updMcu i (fun m => { m with slots := modAt m.slots c (fun a => a.settle (s.slotReq i c)) })

/-- R327, R328, R331, R350: a read's data returns; the slice takes the sectors that the request allocates, and sectors that
cannot be read come poisoned. -/
def execControllerReadComplete (i : Nat) (narrow : Bool) (k : Nat) (es : List DramErr) (s : State) :
    Host.Outcome State Fault Refusal :=
  match (s.stack i).txn? narrow k with
  | none => .next s
  | some t =>
    if t.write then .next s
    else
      match s.slotGrant i narrow t with
      | none => .next s
      | some s0 =>
        let live := t.sectors.filter (fun x => !s.chanDead (32 * x))
        let s1 := ((s0.updMcu i (fun m => m.dropTxn narrow k)).foundAll t.seq live es).slotSettle i (s.slotOf t)
        .next (if t.narrow || clsAllocates t.cls then s1.allocate t.line t.mask 0 0 else s1)

/-- The sectors of a transaction that lie on a channel. -/
def State.maskOn (s : State) (t : Txn) (ch : Nat) : BitVec 8 :=
  (maskSectors t.mask).foldl (fun (m : BitVec 8) k =>
    if (s.chanOf (256 * t.line + 32 * k)).ch = ch then m ||| BitVec.ofNat 8 (2 ^ k) else m) 0

/-- Bytes that a write changes. -/
def Txn.bytes (t : Txn) : Nat :=
  ((maskSectors t.mask).map (fun k => ((List.range 32).filter (fun j => (beOf t.be k).getLsbD j)).length)).sum

/-- Changes the k-th transaction of a path. -/
def Mcu.modTxn (m : Mcu) (narrow : Bool) (k : Nat) (f : Txn → Txn) : Mcu :=
  if narrow then { m with narrow := modAt m.narrow k f } else { m with normal := modAt m.normal k f }

/-- R349: the part of a write that a retraining channel holds joins the 64 KiB of buffered writes, when there is room. -/
def State.bufferWrite (s : State) (i : Nat) (narrow : Bool) (k : Nat) (t : Txn) (ch : Nat) : State :=
  let p := s.maskOn t ch
  let w := { t with mask := p }
  if ((s.chan ch).buffered.map Txn.bytes).sum + w.bytes ≤ 65536 then
    let s1 := s.updChan ch (fun c => { c with buffered := c.buffered ++ [w] })
    if t.mask = p then s1.updMcu i (fun m => m.dropTxn narrow k)
    else s1.updMcu i (fun m => m.modTxn narrow k (fun x => { x with mask := x.mask &&& ~~~p }))
  else s

/-- R339, R349, R350: a write is performed in whole codewords; a codeword that it covers in part is read first. -/
def execControllerWritePerformed (i : Nat) (narrow : Bool) (k : Nat) (es : List DramErr) (s : State) :
    Host.Outcome State Fault Refusal :=
  match (s.stack i).txn? narrow k with
  | none => .next s
  | some t =>
    if !t.write then .next s
    else
      match s.slotGrant i narrow t with
      | none => .next s
      | some s0 =>
        match (s.chansOf t).find? (fun c => decide ((s.chan c).st = .retraining)) with
        | some c => .next ((s0.bufferWrite i narrow k t c).slotSettle i (s.slotOf t))
        | none =>
          let s1 := (s0.updMcu i (fun m => m.dropTxn narrow k)).foundAll t.seq
            (t.partialSectors.filter (fun x => !s.chanDead (32 * x))) es
          .next (s1.slotSettle i (s.slotOf t))

/-- R339, R348, R351: retraining ends: the buffered writes are issued, codewords that they cover in part being read first,
then the waiting reads; the eighth retrain within a second fails the channel. -/
def execRetrainComplete (r : RetrainEnd) (s : State) : Host.Outcome State Fault Refusal :=
  let i := r.stack
  match (s.stack i).retraining with
  | none => .next s
  | some c =>
    let ch := 32 * i + c
    let ws := (s.chan ch).buffered
    let s1 := (s.updChan ch (fun x => { x with st := if x.failed then .failedReadable else .ready, buffered := [] })).updMcu i
      (fun m => { m with retraining := none })
    let s2 := if 8 ≤ (s.chan ch).retrainTimes.length then s1.declareFailed ch else s1
    let s3 := s2.foundAll s2.dram.arrivals (ws.flatMap Txn.partialSectors) r.finds
    .next ((s3.retrainCmd i c).nextRetrain i)

/-- R350: retraining has not ended at 20 µs: the channel is failed and unreadable, waiting reads return its sectors
poisoned and buffered writes are discarded. -/
def execRetrainTimeout (i : Nat) (s : State) : Host.Outcome State Fault Refusal :=
  match (s.stack i).retraining with
  | none => .next s
  | some c =>
    let ch := 32 * i + c
    if s.now < (s.chan ch).retrainTimes.headD 0 + 20 then .next s
    else
    let cut := fun (ts : List Txn) => (ts.map (fun t => if t.write then t else { t with mask := t.mask &&& ~~~(s.maskOn t ch) })).filter
      (fun t => t.write || decide (t.mask ≠ 0))
    let s1 := (s.updChan ch (fun x => { x with st := .failedUnreadable, failed := true, buffered := [] })).updMcu i
      (fun m => { m with
        retraining := none
        normal := cut m.normal
        narrow := cut m.narrow })
    .next ((((s1.beginRetire).post (chanRecord ch 1)).retrainCmd i c).nextRetrain i)

/-- The device physical address / 32 of the sector at a place of a stack's patrol: channel, row and sector in row order;
none where the place holds no address. -/
def State.patrolSector (s : State) (i p : Nat) : Option Nat :=
  (s.addrAt ⟨32 * i + p / 2 ^ 26 % 32, p / 2048 % 32768, p % 2048 * 32⟩).map (· / 32)

/-- R342: the patrol scrub of stack i reads the codewords of its next sector as class 3, and treats what it finds under
R338, in codewords 0 and 1 and in codewords 2 and 3. It pauses while the stack is in self-refresh and resumes where it
stopped. A read of a retraining channel waits. -/
def execPatrolScrub (i : Nat) (lower upper : List DramErr) (s : State) : Host.Outcome State Fault Refusal :=
  let p := (s.stack i).patrolPos
  let k := s.patrolSector i p
  if s.asleep i ∨ (s.chan (32 * i + p / 2 ^ 26 % 32)).st = .retraining then .next s
  else .next ((s.updMcu i (fun m => { m with patrolPos := (m.patrolPos + 1) % 2 ^ 31 })).foundAll 0
    (k.toList.filter (fun x => !s.chanDead (32 * x))) (lower ++ upper))

/-! ## Stack temperatures -/

/-- The level of a thermal state, and back. -/
def ThermSt.level : ThermSt → Nat
  | .normal => 0
  | .warm => 1
  | .gapped => 2
  | .stopped => 3
def ThermSt.ofLevel : Nat → ThermSt
  | 0 => .normal
  | 1 => .warm
  | 2 => .gapped
  | _ => .stopped

/-- Table 5 of 12: entry and exit temperatures in units of 0.125 °C. -/
def thermEnter : List Int := [-32768, 680, 760, 840]
def thermLeave : List Int := [-32768, 656, 736, 800]

/-- R343: the state after a sample: the highest state entered, or the highest one up to the present that is not left. -/
def ThermSt.next (cur : ThermSt) (t : Int) : ThermSt :=
  let up := ((List.range 4).filter (fun k => decide (thermEnter.getD k 0 ≤ t))).foldl max 0
  let stay := ((List.range (cur.level + 1)).filter (fun k => decide (thermLeave.getD k 0 ≤ t))).foldl max 0
  ThermSt.ofLevel (max up stay)

/-- A THERMAL record: 1 enters, 2 leaves Stopped. -/
def thermRecord (i cause : Nat) : LogRec := (LogRec.mk0 0xE sevInfo cause 6).withIndex i

/-- R343: a sample of a stack's dies, in units of 0.125 °C. Leaving Stopped lets waiting retrains start. -/
def State.sampleStack (s : State) (i : Nat) (dies : List Int) : State :=
  let m := s.stack i
  let t := dies.foldl max (-32768)
  let st := m.therm.next t
  let s1 := s.updMcu i (fun x => { x with
    therm := st
    stoppedAt := if st = .stopped ∧ m.therm ≠ .stopped then s.now else x.stoppedAt
    hotC := BitVec.ofInt 8 ((t + 4) / 8)
    gap := if st = .gapped then max 1 (t / 8 - 94).toNat else 0
    dieTemp := (List.range 12).map (fun k => BitVec.ofInt 16 (dies.getD k 0)) })
  if m.therm ≠ .stopped ∧ st = .stopped then s1.post (thermRecord i 1)
  else if m.therm = .stopped ∧ st ≠ .stopped then (s1.post (thermRecord i 2)).nextRetrain i
  else s1

/-! ## MCU commands -/

/-- Whether some channel is failed: declared so and not excluded (R351, Table 12 of 12). -/
def State.anyFailed (s : State) : Bool :=
  s.mcu.any (fun m => m.ch.any (fun c =>
    decide (c.st = .failedReadable) || decide (c.st = .failedUnreadable) || decide (c.st = .copying)
      || (c.failed && decide (c.st = .retraining))))

/-- R351, Table 9 of 12: whether a channel is failed and no block of a retiring group is assigned. -/
def State.evacDone (s : State) : Bool :=
  s.anyFailed && s.assigned.all (fun b => decide (b.2 = 0) || decide (b.1 + b.2 ≤ 32640 * 256))

/-- PLE.STATUS.IDLE: no cell runs and no move is in progress. -/
def Ple.idle (p : Ple) : Bool :=
  p.grids.all (fun g => g.running.isEmpty && g.combining.isEmpty) && p.moves.all (fun m => !m.started)

/-- R357, Table 13 of 12: a write of MCU.CMD. While another channel's exclusion copy runs, EXCLUDE reports EXCLUSION_USED:
R352 and R355 let a device exclude one channel, and do not name this case (DESIGN CHOICE, notes/assumptions/110.md). -/
def State.mcuCmd (s : State) (i v : Nat) : State :=
  let op := bits v 0 4
  let c := bits v 8 5
  let ch := 32 * i + c
  let st := (s.chan ch).st
  let m := s.stack i
  let failed := decide (st = .failedReadable) || decide (st = .failedUnreadable)
  if m.cmd.busy then s.updMcu i (fun x => { x with cmd := x.cmd.drop })
  else if op = 0 ∨ 3 < op then s
  else
    let bad := match op with
      | 1 => decide (st ≠ .ready)
      | 2 => !(decide (st = .ready) || decide (st = .retraining) || failed)
      | _ => !failed
    let hot := match op with
      | 1 => s.stopped i
      | 3 => (List.range 8).any s.stopped
      | _ => false
    let ex := decide (op = 3)
    let code := firstCode [(1, s.dev.frost), (2, bad), (3, hot), (4, ex && (s.excl.inForce.isSome || s.excl.copying.isSome)), (5, ex && !s.evacDone),
      (6, ex && (!s.ple.cellClose || !s.ple.moveClose || !s.ple.idle))]
    if code ≠ 0 then s.mcuDone i op code
    else
      match op with
      | 1 => (s.updMcu i (fun x => { x with cmd := x.cmd.begin_ 1, cmdChan := c })).trigger ch
      | 2 => (s.declareFailed ch).mcuDone i 2 0
      | _ =>
        let s1 := (s.updChan ch (fun x => { x with st := .copying })).updMcu i (fun x => { x with cmd := x.cmd.begin_ 3, cmdChan := c })
        { s1 with excl := { s1.excl with copying := some ch, row := 0, dead := decide (st = .failedUnreadable) } }

/-- The sectors of a row of a channel, by device physical address / 32. -/
def State.rowSectors (s : State) (f row : Nat) : List Nat :=
  (List.range 2048).filterMap (fun k => (s.addrAt ⟨f, row, 32 * k⟩).map (· / 32))

/-- R353: sectors that the failed channel cannot return are poisoned at the substitute; a cache's good copy stays good. -/
def State.loseSectors (s : State) (ks : List Nat) : State :=
  let s1 := s.mark ((ks.filter (fun k => !s.copied (32 * k))).map (32 * ·))
  { s1 with dram := { s1.dram with lost := (ks.filter (fun k => s.copied (32 * k))).foldl nsIns s1.dram.lost } }

/-- R353: whether the copy of the next slice waits: the stack that receives it, or the one that still returns it, is
Stopped, or the substitute channel retrains. -/
def State.copyWaits (s : State) (f : Nat) : Bool :=
  let sub := (exclMap f ⟨f, s.excl.row, 0⟩).ch
  s.stopped (sub / 32) || (!s.excl.dead && s.stopped (f / 32)) || decide ((s.chan sub).st = .retraining)

/-- R338: what a read of sector k finds, of an outcome's number, a syndrome and bytes. -/
def copyFind (f : Nat × Nat × List Byte) (k : Nat) : DramErr :=
  match f.1 with
  | 0 => .clean
  | 1 => .corrected k f.2.1
  | 2 => .uncorrectable k f.2.1
  | 3 => .miscorrected k f.2.1 f.2.2
  | _ => .undetected k f.2.2

/-- R353, R354: one slice of the failed channel is copied and switched; what cannot be read is written poisoned, and the
last slice puts the exclusion in force. What the reads of a readable channel find (R338) is free
(notes/assumptions/127.md). -/
def execExclusionSliceCopy (s : State) : Host.Outcome State Fault Refusal :=
  match s.excl.copying with
  | none => .next s
  | some f =>
    if s.copyWaits f then .next s else
    let ks := s.rowSectors f s.excl.row
    let s1 := if s.excl.dead then s.loseSectors ks else (s.foundAll 0 ks (ks.map (fun k => copyFind (Config.copyRead s.free k) k))).drawn
    let s2 : State := { s1 with excl := { s1.excl with row := s1.excl.row + 1 } }
    if s2.excl.row < 32640 then .next s2
    else
      let s3 : State := { s2 with excl := { s2.excl with copying := none, inForce := some f, row := 0, dead := false } }
      let t := ((s3.updChan f (fun x => { x with st := .excluded })).mcuDone (f / 32) 3 0).post (chanRecord f 3)
      .next (if s.dev.faultNew then t.raise 0 else t)

/-- Writes of an MCU instance (Table 7 of 12). -/
def State.mcuWrite (s : State) (i off v m : Nat) : State :=
  match off with
  | 0x00 => s.mcuCmd i (v &&& m)
  | 0x08 => s.updMcu i (fun x => { x with cmd := x.cmd.clear (v &&& m) })
  | _ => s

/-! ## SRAM -/

/-- An SRAM_UE record: CAUSE gives the array, UNIT and INDEX its owner. -/
def sramRecord (cause unit index : Nat) : LogRec := (LogRec.mk0 3 sevRecoverable cause unit).withIndex index

/-- Whether a sector's bytes lie in the scratchpad of a core. -/
def spadSector (core sector : Nat) : Bool :=
  decide (spadBase core / 32 ≤ sector) && decide (sector < spadBase core / 32 + 0x20000)

/-- R446: an SRAM entry is uncorrectable: it is poisoned, and an SRAM_UE record is written. An entry with parity alone is
read again; a log record is discarded and counted. -/
def execSramUncorrectable (x : SramItem) (s : State) : Host.Outcome State Fault Refusal :=
  match x with
  | .slice k =>
    .next (if s.inSlice (32 * k) then (s.mark [32 * k]).post ((sramRecord 1 7 (s.homeOf (k / 8))).withAddr (32 * k) false) else s)
  | .localStore n k =>
    .next (if spadSector n k || decide (32 * k < dramTop) then
      (s.mark [32 * k]).post ((sramRecord 2 1 n).withAddr (32 * k) false) else s)
  | .l1d n k => .next (if 32 * k < dramTop then (s.mark [32 * k]).post ((sramRecord 3 1 n).withAddr (32 * k) false) else s)
  | .accumulator n w =>
    .next ((s.updCore n (fun c => { c with mx := { c.mx with zPoison := nsIns c.mx.zPoison w } })).post (sramRecord 4 3 n))
  | .program n e w =>
    .next ((s.updCore n (fun c => { c with sce := modAt c.sce e (fun y => { y with pmPoison := nsIns y.pmPoison w }) })).post
      (sramRecord 5 (4 + e) n))
  | .staging k =>
    .next (({ s with sim := { s.sim with stagingPoison := nsIns s.sim.stagingPoison k } }).post (sramRecord 6 0xF 0xFF))
  | .queueState q => .next ((s.mark ((s.storeSectors q).map (32 * ·))).post (sramRecord 7 0xB 0xFF))
  | .scalarG n r => .next ((s.updCore n (fun c => { c with regPoison := .g r :: c.regPoison })).post (sramRecord 8 1 n))
  | .scalarD n r => .next ((s.updCore n (fun c => { c with regPoison := .d r :: c.regPoison })).post (sramRecord 8 1 n))
  | .storeBuffer n i => .next (if i < (s.core n).sb.length then
      (s.updCore n (fun c => { c with sb := modAt c.sb i (fun e => { e with poison := true }) })).post (sramRecord 8 1 n) else s)
  | .vector n r => .next ((s.updCore n (fun c => { c with regPoison := .v r :: c.regPoison })).post (sramRecord 8 2 n))
  | .predicate n r => .next ((s.updCore n (fun c => { c with regPoison := .p r :: c.regPoison })).post (sramRecord 8 2 n))
  | .icache _ => .next s
  | .rtb b k => .next { s with xlt := { s.xlt with rtb := modAt s.xlt.rtb b (fun l => l.filter (· ≠ k)) } }
  | .window e => .next { s with xlt := { s.xlt with winPoison := nsIns s.xlt.winPoison e } }
  | .logRecord k => .next { s with flt := { s.flt with log := Tab.put LogRec.none s.flt.log k LogRec.none, lost := s.flt.lost + 1 } }

end Sys2Proof.Machine
end

