-- ==== Sys2Proof/Machine/HostOps.lean ====
section
/-!
DEFINITION. Host accesses to device memory: which the device performs (R385), holds behind a back-invalidation (R386) or a
wake (R482), and refuses.
-/
namespace Sys2Proof.Machine

/-- R385: whether a range with HOSTMAP holds the address's block and grants the access. -/
def State.hostGrants (s : State) (dpa : Nat) (write : Bool) : Bool :=
  s.present dpa && s.ctxs.any (fun c => c.2.ranges.any (fun e =>
    e.2.valid && e.2.perm.getLsbD 3 && e.2.perm.getLsbD (if write then 1 else 0) && e.2.blocks.contains (dpa / 65536)))

/-- The islands a host access needs: the fabric island of its home slice's half and that slice's memory island (R482). -/
def State.hostIslands (s : State) (dpa : Nat) : List Nat :=
  let h := s.homeOf (dpa / 256)
  [8 + h / 4, 10 + h / 2]

/-- The lines other than its own whose host copies a host access must wait for: the one that makes room for it. -/
def State.hostWaits (s : State) (dpa : Nat) : List Nat := s.heldLines (s.waitsFor (dpa / 256) false true)

/-- Whether a host access may be performed now: no BISnp of its line is outstanding, its islands run, and its line has
room. -/
def State.hostReady (s : State) (dpa : Nat) : Bool :=
  !s.host.bisnp.contains (dpa / 256 * 256) && !s.dev.frost && !s.pcm.frostEntry
    && (s.hostIslands dpa).all (fun i => decide ((s.island i).st = .running)) && (s.hostWaits dpa).isEmpty

/-- A HOST record of a refused access. -/
def hostRecord (cause dpa : Nat) : LogRec := (LogRec.mk0 9 sevRecoverable cause 0xE).withAddr dpa false

/-- The answer that the host receives. -/
def State.reply (s : State) (bs : List Byte) (poison : Bool) (code : Nat) : State :=
  { s with host := { s.host with answer := bs, answerPoison := poison, answerCode := code } }

/-- R385, R340: performs or refuses a host access to a line of 64 bytes. A write first finds room in the slice, so that a
channel that cannot be written loses nothing of it. -/
def State.hostPerform (s : State) (r : HostReq) : State :=
  let a := r.addr / 64 * 64
  let pas := addrs a 64
  let m : BitVec 8 := BitVec.ofNat 8 (3 * 2 ^ (a / 32 % 8))
  if !s.hostGrants a r.write then
    (if r.write then s else s.reply (zeros 64) false 0).post (hostRecord 1 a)
  else if r.write then
    let s1 := (s.hostServe true (a / 256) m).store (pas.zip ((r.data ++ zeros 64).take 64))
    if r.poison then s1.mark pas else s1
  else
    let s1 := s.hostServe false (a / 256) m
    s1.reply (s1.rdAt pas) (pas.any s1.bad) 0

/-- R386, R482: a host access arrives: performed, or held behind others of its line, its BISnp or a wake. -/
def State.hostAccess (s : State) (r : HostReq) : State :=
  let s0 := s.wakeDevice
  if s0.hostReady r.addr && s0.host.heldReqs.all (fun x => decide (x.addr / 256 ≠ r.addr / 256)) then s0.hostPerform r
  else
    (s0.hostWaits r.addr).foldl State.recallHost ((s0.hostIslands r.addr).foldl State.wakeIsland
      { s0 with host := { s0.host with heldReqs := s0.host.heldReqs ++ [r] } })

/-- R386, R482: performs the held accesses that may be performed, in their order. -/
def State.serveHost (s : State) : State :=
  s.host.heldReqs.foldl (fun t r =>
    if t.hostReady r.addr
        && ((t.host.heldReqs.filter (fun x => decide (x.addr / 256 = r.addr / 256))).head? = some r) then
      ({ t with host := { t.host with heldReqs := t.host.heldReqs.erase r } }).hostPerform r
    else t) s

end Sys2Proof.Machine
end

