-- ==== Sys2Proof/Machine/MxRun.lean ====
section
/-!
DEFINITION. How a matrix unit runs a descriptor: the product under way (R241, R242, R252), its operands (R243, R244), the
accumulation of a row (R229 to R231), the output of a row (R253), poison and cancelling (R255, R256), and completion
(R237, R254).
-/
namespace Sys2Proof.Machine

/-! ## The product under way -/

/-- The product that a job computes now: the whole descriptor's, or the first or second of a pair. `ar` is the row of C
that A's row 0 belongs to; `zoff` the byte offset of tile 0; `ng` the N tiles of a pass and `nt` of the share; rows `o0` up to
`oN` are output. -/
structure MxView where
  a : MxOperand
  aSpad : Bool
  ar : Nat
  acols : Nat
  b : MxOperand
  bcols : Nat
  k : Nat
  acc : NumFmt
  dot : Nat
  kt : Nat
  m0 : Nat
  mN : Nat
  n0 : Nat
  nN : Nat
  k0 : Nat
  kN : Nat
  zoff : Nat
  ng : Nat
  nt : Nat
  o0 : Nat
  oN : Nat
  deriving DecidableEq, Repr

/-- The row of Table 1 of 09 of a combination; one that does not exist never reaches the unit. -/
def comboOf (a b : Option NumFmt) (inf : Bool) : MxCombo := (mxCombo a b inf).getD ⟨.fp32, 1, 32, 1⟩

/-- R241, R242: N tiles of a pass: all of the share when its tiles fit. -/
def passLen (acc : NumFmt) (zcount mt nt : Nat) (c : MxOperand) : Nat :=
  if mt * nt ≤ tileCap acc zcount then nt else passTiles acc zcount mt c

/-- R253: the rows of C that a block of rows of a pair outputs: those of the blocks of a BX C that end with it. -/
def MxD.outRows (d : MxD) (lo hi mN : Nat) : Nat × Nat :=
  let b := if d.c.isBx then d.c.blk.1 else 1
  (lo / b * b, if mN ≤ hi then hi else hi / b * b)

/-- The product of a job now; a pair's N tiles are shared out as any product's (R237). -/
def MxJob.view (j : MxJob) : MxView :=
  let d := MxD.parse j.raw
  let e := MxExt.parse j.ext
  let c1 := comboOf d.a.fmt d.b.fmt d.inf
  if d.op = 2 then
    let lo := j.m0 + j.blk * (32 * e.rowsT)
    let hi := lo + pairRows e j
    let t1 := memberTiles (ceilDiv d.n 32) j.gang j.member
    if j.second then
      let c2 := comboOf e.mid.fmt e.b2.fmt false
      let t2 := memberTiles (ceilDiv e.n2 32) j.gang j.member
      let o := d.outRows lo hi j.mN
      ⟨e.mid, true, lo, d.n, e.b2, e.n2, d.n, c2.acc, c2.dot, c2.kt, lo, hi, 0, e.n2, 0, ceilDiv d.n c2.kt,
        d.zbase * 4096 + e.firstBytes c1.acc c2.acc t1, t2, t2, o.1, o.2⟩
    else
      ⟨d.a, false, 0, d.k, d.b, d.n, d.k, c1.acc, c1.dot, c1.kt, lo, hi, 0, d.n, 0, ceilDiv d.k c1.kt,
        d.zbase * 4096, t1, t1, lo, hi⟩
  else
    let nt := memberTiles (ceilDiv (j.nN - j.n0) 32) j.gang j.member
    ⟨d.a, false, 0, d.k, d.b, d.n, d.k, c1.acc, c1.dot, c1.kt, j.m0, j.mN, j.n0, j.nN, j.k0, j.kN,
      d.zbase * 4096, passLen c1.acc d.zcount (ceilDiv (j.mN - j.m0) 32) nt d.c, nt, j.m0, j.mN⟩

/-- R141, R237, R253: the N tiles that a block of a BX C spans with tile nt of its window. -/
def MxD.blockTiles (d : MxD) (nt : Nat) : List Nat :=
  let b := d.c.blk.2 / 32
  if d.c.isBx && decide (1 < b) then addrs (nt / b * b) b else [nt]

/-- M tiles, and N tiles of pass p. -/
def MxView.mt (v : MxView) : Nat := ceilDiv (v.mN - v.m0) 32
def MxView.tiles (v : MxView) (p : Nat) : Nat := min v.ng (v.nt - p * v.ng)

/-- Passes of a job (R242). -/
def MxView.passes (v : MxView) : Nat := if v.ng = 0 then 1 else passCount v.nt v.ng

/-- The N tile of the whole window that local tile t of the current pass is (R237). -/
def MxJob.tileNo (j : MxJob) (v : MxView) (t : Nat) : Nat := (j.pass * v.ng + t) * j.gang + j.member

/-- The pass of a job in which the tile of a window lies, and its place there. -/
def MxView.place (v : MxView) (gang nt : Nat) : Nat × Nat := (nt / gang / v.ng, nt / gang % v.ng)

/-- R233, R241: the byte of the accumulator element at row i of the window (padding included) and column c of tile t. -/
def MxView.accAddr (v : MxView) (t i c : Nat) : Nat := v.zoff + tileAddr v.acc 0 (t * v.mt + i / 32) (i % 32) c

/-! ## Operands -/

/-- Physical addresses of bytes that a unit of core n uses: offsets in the lead's scratchpad (R251), or virtual addresses
checked before. -/
def State.mxPas (s : State) (n : Nat) (spad : Bool) (need : Need) (vas : List Nat) : List Nat :=
  if spad then vas.map (spadBase (s.leadOf n) + ·) else s.heldPas n need vas

/-- One element of an operand of `cols` columns and the physical addresses it is read from (R139, R231, R243). -/
def State.mxEl (s : State) (n : Nat) (spad : Bool) (o : MxOperand) (cols r c : Nat) : FpVal × List Nat :=
  let pas := s.mxPas n spad .read (vAddrs (o.addr r c) o.esz)
  let raw := o.pick r c (leNat (s.rdAt pas))
  if o.isBx then
    let sp := s.mxPas n spad .read [o.scaleAddr cols r c % 2 ^ 64]
    (o.value raw (leNat (s.rdAt sp)), pas ++ sp)
  else (o.value raw 127, pas)

/-- The first poisoned sector among addresses. -/
def State.badOf (s : State) (pas : List Nat) : Option Nat := (pas.find? s.bad).map (· / 32)

/-- R244: the stationary tile of span kc and tile t: element (k, c) at 32 k + c, +0 outside B. -/
def State.mxTile (s : State) (n : Nat) (j : MxJob) (v : MxView) : List (FpVal × List Nat) :=
  let c0 := v.n0 + 32 * j.tileNo v j.nt
  (List.range v.kt).flatMap (fun k => (List.range 32).map (fun c =>
    let kk := j.kc * v.kt + k
    if kk < v.k ∧ c0 + c < v.nN then s.mxEl n false v.b v.bcols kk (c0 + c) else (FpVal.zero, [])))

/-- R244: a row of A over span kc, +0 outside A. -/
def State.mxRow (s : State) (n : Nat) (j : MxJob) (v : MxView) : List (FpVal × List Nat) :=
  let m := v.m0 + j.row
  (List.range v.kt).map (fun k =>
    let kk := j.kc * v.kt + k
    if m < v.mN ∧ kk < v.k then s.mxEl n v.aSpad v.a v.acols (m - v.ar) kk else (FpVal.zero, []))

/-! ## Accumulation -/

/-- R230: the dot blocks of one row and one column, in ascending K order, from an accumulator value. -/
def dotBlocks (F : FpFmt) (dot : Nat) : Nat → List (FpVal × FpVal) → Nat × Cond → Nat × Cond
  | 0, _, r => r
  | k + 1, ps, r =>
    let t := F.sum .rne true (F.decode r.1 :: (ps.take dot).map (fun p => p.1.mul p.2))
    dotBlocks F dot k (ps.drop dot) (t.1, r.2 ||| t.2)

/-- The accumulator word of a byte of the accumulator memory: 4 bytes for its poison mark. -/
def zWord (addr : Nat) : Nat := addr / 4

/-- Whether the accumulator elements at byte addresses hold poison. -/
def Mx.zBad (m : Mx) (as : List Nat) : Bool := as.any (fun a => m.zPoison.contains (zWord a))

/-- R229, R230: the row enters: its products are added to the accumulators of the tile's 32 columns. Answers the
accumulator memory and the conditions of in-range elements (R232). -/
def mxAccumulate (z : Mem) (j : MxJob) (v : MxView) (row tile : List FpVal) : Mem × Cond :=
  let c0 := v.n0 + 32 * j.tileNo v j.nt
  let live := decide (v.m0 + j.row < v.mN)
  (List.range 32).foldl (fun (r : Mem × Cond) c =>
    let a := v.accAddr j.nt j.row c
    let bs := (List.range v.kt).map (fun k => tile.getD (32 * k + c) FpVal.zero)
    let t := dotBlocks v.acc.fp v.dot (v.kt / v.dot) (row.zip bs) (r.1.readLe a v.acc.bytes, 0)
    (r.1.writeLe a v.acc.bytes t.1, if live && decide (c0 + c < v.nN) then r.2 ||| t.2 else r.2)) (z, 0)

/-- R241: the tiles of a pass before its first stationary load: +0, C, or as they are. Answers the accumulator memory and
the addresses read. A partial starts at +0 (R305), and so do the products of a pair (R251). -/
def State.mxInit (s : State) (n : Nat) (j : MxJob) (v : MxView) : Mem × List Nat :=
  let d := MxD.parse j.raw
  let z := (s.core n).mx.z
  let cells := (List.range (v.tiles j.pass)).flatMap (fun t => (List.range (32 * v.mt)).flatMap (fun i =>
    (List.range 32).map (fun c => (t, i, c))))
  if d.init = 2 then (z, [])
  else if d.init = 1 ∧ j.partialBase = none then
    cells.foldl (fun (r : Mem × List Nat) x =>
      let m := v.m0 + x.2.1
      let nn := v.n0 + 32 * j.tileNo v x.1 + x.2.2
      let a := v.accAddr x.1 x.2.1 x.2.2
      if m < v.mN ∧ nn < v.nN then
        let pas := s.heldPas n .read (vAddrs (d.c.addr m nn) v.acc.bytes)
        (r.1.writeLe a v.acc.bytes (leNat (s.rdAt pas)), r.2 ++ pas)
      else (r.1.writeLe a v.acc.bytes 0, r.2)) (z, [])
  else (cells.foldl (fun (r : Mem) x => r.writeLe (v.accAddr x.1 x.2.1 x.2.2) v.acc.bytes 0) z, [])

/-- The accumulator memory once a pass is initialised: tiles that INIT writes lose their poison. -/
def Mx.opened (m : Mx) (j : MxJob) (v : MxView) (z : Mem) : Mx :=
  { m with
    z := z
    zPoison := if (MxD.parse j.raw).init = 2 then m.zPoison
      else nsDelRange m.zPoison (zWord v.zoff) (v.tiles j.pass * v.mt * tileBytes v.acc / 4) }

/-! ## Output -/

/-- Where a product's results go. -/
inductive MxSink where
  | c
  | mid
  | part (base : Nat)
  | keep
  deriving DecidableEq, Repr

def MxJob.sink (j : MxJob) : MxSink :=
  let d := MxD.parse j.raw
  match j.partialBase with
  | some b => .part b
  | none => if d.op = 2 ∧ j.second = false then .mid else if d.keep then .keep else .c

/-- R253: the rounding of element (m, n) of C. -/
def State.mxRm (s : State) (d : MxD) (m n : Nat) : Rm :=
  let seed := if d.seedDef then (match s.sim.image with | some i => i.srSeed | none => 0) else d.seed
  (Rm.ofCode d.rm (srBits seed d.stream ((d.idxBase + m * d.idxPitch + n) % 2 ^ 48))).getD .rne

/-- The member whose unit holds a tile of the window, and its job (R237). -/
def State.mxOwner (s : State) (core : Nat) (j : MxJob) (nt : Nat) : Nat × Option MxJob :=
  if j.gang ≤ 1 then (core, some j)
  else
    let k := (s.machineOf core).getD (nt % j.gang) core
    (k, (s.core k).mx.jobs.find? (fun x => decide (x.id = j.id)))

/-- A job as it stands, or stood, in the product that another member's job runs. -/
def MxJob.beside (x j : MxJob) : MxJob := { x with blk := j.blk, second := j.second }

/-- The bits of the accumulator of element (m, n) of the window, which member (tile mod g) of the gang holds (R237), or
which the job carries from an earlier block of rows (R253). -/
def State.mxAcc (s : State) (core : Nat) (j : MxJob) (v : MxView) (m n : Nat) : Nat :=
  let nt := (n - v.n0) / 32
  let k := s.mxOwner core j nt
  match k.2 with
  | none => 0
  | some x =>
    if m < v.m0 then x.carry.readLe ((m * v.bcols + n) * v.acc.bytes) v.acc.bytes
    else
      let w := (x.beside j).view
      (s.core k.1).mx.z.readLe (w.accAddr (w.place j.gang nt).2 (m - v.m0) ((n - v.n0) % 32)) v.acc.bytes

/-- R253: what a job carries on from a block of rows of a pair: the accumulators of the rows not yet output. -/
def MxJob.carried (j : MxJob) (v : MxView) (z : Mem) : Mem :=
  (List.range v.nt).foldl (fun (c : Mem) t => (addrs (max v.oN v.m0) (v.mN - max v.oN v.m0)).foldl (fun (c : Mem) m =>
    (List.range 32).foldl (fun (c : Mem) k =>
      let n := v.n0 + 32 * (t * j.gang + j.member) + k
      if n < v.nN then c.writeLe ((m * v.bcols + n) * v.acc.bytes) v.acc.bytes (z.readLe (v.accAddr t (m - v.m0) k) v.acc.bytes)
      else c) c) c) (if v.oN ≤ v.o0 then j.carry else [])

/-- A block of a BX C: its first row and column, its columns, and what quantising it gives (R141, R253). -/
structure MxBlock where
  r0 : Nat
  c0 : Nat
  rows : Nat
  cols : Nat
  src : List (FpVal × Rm)
  deriving DecidableEq, Repr

/-- R141, R253: the block of a BX C that holds element (m, n), with its elements' values row by row. `at_` gives the
accumulator bits of an element. -/
def State.mxBlock (s : State) (d : MxD) (v : MxView) (at_ : Nat → Nat → Nat) (m n : Nat) : MxBlock :=
  let b := d.c.blk
  let r0 := max v.o0 (m / b.1 * b.1)
  let c0 := n / b.2 * b.2
  let rows := min (m / b.1 * b.1 + b.1) v.oN - r0
  let cols := min (c0 + b.2) v.nN - c0
  ⟨r0, c0, rows, cols, (List.range rows).flatMap (fun i => (List.range cols).map (fun k =>
    (v.acc.fp.decode (at_ (r0 + i) (c0 + k)), s.mxRm d (r0 + i) (c0 + k))))⟩

/-- Packs pairs of 4-bit elements, the first in the low nibble. -/
def packNibbles : List Nat → List Byte
  | [] => []
  | [a] => [BitVec.ofNat 8 (a % 16)]
  | a :: b :: r => BitVec.ofNat 8 (a % 16 + 16 * (b % 16)) :: packNibbles r

/-- What the output of one row of one tile writes: cells, conditions, underflows. -/
structure MxOut where
  cells : List (Nat × Byte)
  flags : Cond
  under : Nat
  deriving DecidableEq, Repr

/-- R253: consecutive elements of row m as C: each converted or quantised, with the scale bytes of the blocks that begin
among them. -/
def State.mxOutC (s : State) (core : Nat) (d : MxD) (v : MxView) (acc : Nat → Nat → Nat) (m : Nat) (ns : List Nat) : MxOut :=
  let at_ := fun (a len : Nat) => s.heldPas core .write (vAddrs a len)
  match d.c.fmt with
  | none => ⟨[], 0, 0⟩
  | some f =>
    if f.isBx then
      let F := (d.c.fmt.getD .bx4).fp
      let els := ns.map (fun n =>
        let b := s.mxBlock d v acc m n
        let q := quantBlock F b.src
        let i := (m - b.r0) * b.cols + (n - b.c0)
        let el := q.els.getD i 0
        (el, decide (q.scale ≠ 255) && bxUnder F (b.src.getD i (FpVal.zero, .rne)).1 el,
          if m = b.r0 ∧ n = b.c0 then (at_ (d.c.scaleAddr v.bcols m n) 1).zip (leBytes 1 q.scale) else [], q.cond))
      let bytes := if f = .bx4 then packNibbles (els.map (·.1)) else els.map (fun x => BitVec.ofNat 8 x.1)
      ⟨(at_ (d.c.addr m (ns.headD 0)) bytes.length).zip bytes ++ els.flatMap (·.2.2.1),
        els.foldl (fun c x => c ||| x.2.2.2) 0, (els.filter (·.2.1)).length⟩
    else
      let els := ns.map (fun n => v.acc.convert f (s.mxRm d m n) d.sat (acc m n))
      let bytes := els.flatMap (fun x => leBytes f.bytes x.1)
      ⟨(at_ (d.c.addr m (ns.headD 0)) bytes.length).zip bytes, els.foldl (fun c x => c ||| x.2) 0, 0⟩

/-- The output of one in-range row m of N tile nt of the window. -/
def State.mxOut (s : State) (core : Nat) (j : MxJob) (v : MxView) (m nt : Nat) : MxOut :=
  let d := MxD.parse j.raw
  let e := MxExt.parse j.ext
  let c0 := v.n0 + 32 * nt
  let ns := addrs c0 (min 32 (v.nN - c0))
  let raw := ns.flatMap (fun n => leBytes v.acc.bytes (s.mxAcc core j v m n))
  match j.sink with
  | .keep => ⟨[], 0, 0⟩
  | .mid => ⟨(addrs (spadBase (s.leadOf core) + e.midIn + (m - v.m0) * e.midInPitch + c0 * v.acc.bytes) raw.length).zip raw, 0, 0⟩
  | .part base => ⟨(s.heldPas core .write (vAddrs (base + v.acc.bytes * (m * d.n + c0)) raw.length)).zip raw, 0, 0⟩
  | .c => s.mxOutC core d v (s.mxAcc core j v) m ns

/-! ## Poison, cancelling, completion -/

/-- Zeroes the slots a descriptor names (R256). -/
def Mx.zeroSlots (m : Mx) (j : MxJob) : Mx :=
  let d := MxD.parse j.raw
  { m with
    z := m.z.zero (d.zbase * 4096) (d.zcount * 4096)
    zPoison := nsDelRange m.zPoison (zWord (d.zbase * 4096)) (d.zcount * 1024) }

/-- R256: cancels jobs of core n: their slots are zeroed, a chain that the unit started is aborted, and a share that
waits only for them ends. -/
def State.mxDrop (s : State) (n : Nat) (which : MxJob → Bool) : State :=
  let gone := (s.core n).mx.jobs.filter which
  let s1 := gone.foldl (fun t j =>
    let e := (MxExt.parse j.ext).engine
    let t1 := if j.phase = .chain ∧ j.row = 1 then t.abortEngine n e else t
    t1.updMx n (fun m => m.zeroSlots j)) s
  let s2 := s1.updMx n (fun m => { m with jobs := m.jobs.filter (fun j => !which j) })
  s2.tryEnd (s2.leadOf n)

/-- R255: poison reaches the array or the output stage: every accepted descriptor of the unit stops at once, and the
core takes XCAUSE 6 at its next boundary. In a gang that is every member's (R237). -/
def State.mxPoison (s : State) (n : Nat) (sector : Option Nat) : State :=
  (s.machineOf n).foldl (fun t k => t.mxDrop k (fun _ => true)) (s.deliverExc (s.leadOf n) ⟨6, 0, 0, 3, sector⟩)

/-- Adds conditions and underflows to the job and to the lead's registers (R232, R237). -/
def State.mxCount (s : State) (n : Nat) (flags : Cond) (under : Nat) : State :=
  (s.mxHead n (fun j => { j with flags := j.flags ||| flags, under := j.under + under })).updMx (s.leadOf n)
    (fun m => { m with flags := m.flags ||| flags, underflow := m.underflow + BitVec.ofNat 64 under })

/-- R237, R254: the descriptor completes once every member's share has: counts on the lead, the status record of an MXGO,
and the end of a product cell. -/
def State.mxFinish (s : State) (n id : Nat) : State :=
  let js := s.mxPeers n id
  let lead := s.leadOf n
  let d := match js with | j :: _ => MxD.parse j.raw | [] => MxD.parse []
  let spill := (js.map (fun j => j.view.passes - 1)).foldl (· + ·) 0
  let s1 := (s.machineOf n).foldl (fun t k =>
    t.updMx k (fun m => { m with jobs := m.jobs.filter (fun j => decide (j.id ≠ id)) })) s
  let s2 := s1.updMx lead (fun m => { m with desc := m.desc + 1, spills := m.spills + BitVec.ofNat 32 spill })
  let under := (js.map (·.under)).foldl (· + ·) 0
  match (s.core lead).work with
  | .product id _ =>
    -- What a counter reset has taken from the lead's registers still counts in the grid's record.
    let m := (s2.core lead).mx
    (s2.updGrid id (fun g => { g with
      spill := g.spill + (spill - m.spills.toNat)
      under := g.under + (under - m.underflow.toNat) })).endShare lead
  | _ =>
    let pas := if d.status = 0 then [] else s2.heldPas lead .write (vAddrs d.status 16)
    ((s2.coreWrite lead false pas).store
      (pas.zip (mxStatusRec (js.foldl (fun c j => c ||| j.flags) 0) spill under))).tryEnd lead

/-! ## Poison and gangs at the output stage -/

/-- The tiles of a window that exist among some. -/
def MxView.inWindow (v : MxView) (ts : List Nat) : List Nat := ts.filter (fun t => decide (v.n0 + 32 * t < v.nN))

/-- Whether a job's slots hold the finished accumulators of a tile of the product that job j runs. -/
def MxJob.holds (x j : MxJob) (nt : Nat) : Bool :=
  let p := ((x.beside j).view.place j.gang nt).1
  decide (x.phase = .done) || decide (j.blk < x.blk)
    || (decide (x.blk = j.blk) && decide (x.second = j.second)
      && ((decide (x.pass = p) && decide (x.phase = .output))
        || (decide (x.pass = p + 1) && decide (x.phase = .load) && decide (x.kc = x.k0) && decide (x.nt = 0))))

/-- Whether a job has output a tile of the product that job j runs. -/
def MxJob.wrote (x j : MxJob) (nt : Nat) : Bool :=
  let v := (x.beside j).view
  let p := v.place j.gang nt
  decide (x.phase = .done) || decide (j.blk < x.blk) || decide (p.1 < x.pass)
    || (decide (p.1 = x.pass) && decide (x.phase = .output) && decide ((p.2 + 1) * (v.oN - v.o0) ≤ x.row))

/-- R141, R237: whether the members that hold tiles of one block with tile nt have all finished them. -/
def State.mxTileReady (s : State) (n : Nat) (j : MxJob) (v : MxView) (nt : Nat) : Bool :=
  decide (j.sink ≠ .c) || (v.inWindow ((MxD.parse j.raw).blockTiles nt)).all (fun t =>
    match (s.mxOwner n j t).2 with | some x => x.holds j t | none => false)

/-- R141, R237, R242: whether every other member has output the tiles that share a block with one of the pass before, whose
slots the next pass sets. -/
def State.mxPassReady (s : State) (n : Nat) (j : MxJob) (v : MxView) : Bool :=
  decide (j.pass = 0) || decide (j.gang ≤ 1) || decide (j.sink ≠ .c) || (List.range v.ng).all (fun t =>
    (v.inWindow ((MxD.parse j.raw).blockTiles (({ j with pass := j.pass - 1 } : MxJob).tileNo v t))).all (fun x =>
      decide (x % j.gang = j.member) || (match (s.mxOwner n j x).2 with | some y => y.wrote j x | none => true)))

/-- R255: whether the output of row m over columns `ns` meets poison: a BX C needs the whole of their blocks. -/
def State.mxZBad (s : State) (n : Nat) (j : MxJob) (v : MxView) (m : Nat) (ns : List Nat) : Bool :=
  if (s.machineOf n).all (fun k => (s.core k).mx.zPoison.isEmpty) then false
  else
    let d := MxD.parse j.raw
    let bx := d.c.isBx && decide (j.sink = .c)
    let b := if bx then d.c.blk else (1, 1)
    let r0 := m / b.1 * b.1
    (addrs (max v.m0 r0) (min (r0 + b.1) v.oN - max v.m0 r0)).any (fun r =>
      (ns.map (fun c => c / b.2 * b.2)).eraseDups.any (fun c0 => (addrs c0 (min b.2 (v.nN - c0))).any (fun c =>
        let nt := (c - v.n0) / 32
        let k := s.mxOwner n j nt
        match k.2 with
        | none => false
        | some x =>
          let w := (x.beside j).view
          (s.core k.1).mx.zBad [w.accAddr (w.place j.gang nt).2 (r - v.m0) ((c - v.n0) % 32)])))

/-! ## From phase to phase -/

/-- The end of a product: done, or the next step of a pair (R252). -/
def MxJob.ended (j : MxJob) : MxJob :=
  let d := MxD.parse j.raw
  let e := MxExt.parse j.ext
  let fresh := { j with pass := 0, kc := j.k0, nt := 0, row := 0, tile := [] }
  if d.op ≠ 2 then { fresh with pass := j.pass, phase := .done }
  else if !j.second && decide (j.phase ≠ .chain) then { fresh with phase := .chain }
  else if !j.second && decide (e.n2 ≠ 0) then { fresh with phase := .load, second := true }
  else if j.m0 + (j.blk + 1) * (32 * e.rowsT) < j.mN then { fresh with phase := .load, second := false, blk := j.blk + 1 }
  else { fresh with phase := .done }

/-- Whether the head job of core n can go on without an event, and to what (R241, R242, R252): a product with no K goes to
its output, a finished output to the next pass or product or, when it is cancelled, to its end, a chain to its start, and a
job whose peers are done to its end: complete when no peer was cancelled (R256). -/
def State.mxStep1 (s : State) (n : Nat) : Option State :=
  match (s.core n).mx.jobs with
  | [] => none
  | j :: _ =>
    let v := j.view
    match j.phase with
    | .load =>
      if v.nt = 0 then some (s.mxHead n MxJob.ended)
      else if v.k0 = v.kN then
        let z := s.mxInit n j v
        match s.badOf z.2 with
        | some k => some (s.mxPoison n (some k))
        | none => some ((s.updMx n (fun m => m.opened j v z.1)).mxHead n (fun j => { j with phase := .output, row := 0 }))
      else none
    | .stream => none
    | .output =>
      let alone := j.stop && decide ((s.mxPeers n j.id).length < j.gang) && decide (j.sink = .c)
        && decide (1 < ((MxD.parse j.raw).blockTiles 0).length)
      if alone then some (s.mxDrop n (fun x => decide (x.id = j.id)))
      else if j.sink = .keep ∨ v.tiles j.pass * (v.oN - v.o0) ≤ j.row then
        if j.stop then some (s.mxDrop n (fun x => decide (x.id = j.id)))
        else if j.pass + 1 < v.passes then
          some (s.mxHead n (fun j => { j with pass := j.pass + 1, kc := j.k0, nt := 0, row := 0, phase := .load }))
        else some (s.mxHead n (fun j => { j with carry := j.carried v (s.core n).mx.z }.ended))
      else none
    | .chain =>
      let t := s.pairKick n
      if (t.core n).mx.jobs = (s.core n).mx.jobs then none else some t
    | .done =>
      let ps := s.mxPeers n j.id
      let d := MxD.parse j.raw
      let lead := s.leadOf n
      let held := if d.status = 0 ∨ j.partialBase.isSome then []
        else s.heldLines (s.coreWaits (s.heldPas lead .write (vAddrs d.status 16)))
      if !ps.all (fun x => decide (x.phase = .done)) then none
      else if ps.length ≠ j.gang then some (s.mxDrop n (fun x => decide (x.id = j.id)))
      else if held = [] then some (s.mxFinish n j.id)
      else if held.all (fun l => nsHas s.host.bisnp (256 * l)) then none
      else some (held.foldl State.recallHost s)

/-- Lets every unit of a machine go on until each waits for an event. -/
def State.mxSettle : Nat → State → Nat → State
  | 0, s, _ => s
  | k + 1, s, n =>
    match (s.machineOf n).findSome? (fun m => s.mxStep1 m) with
    | some t => State.mxSettle k t n
    | none => s

/-- After any event of a matrix unit or a pair's engine. -/
def State.mxGo (s : State) (n : Nat) : State := State.mxSettle 64 s n

/-- R263: a pair's program has reached HALT: every member goes on with the pair. -/
def State.pairHalt (s : State) (n : Nat) : State :=
  match (s.core n).mx.jobs with
  | [] => s
  | j :: _ =>
    if j.phase = .chain ∧ j.row = 1 then
      ((s.machineOf n).foldl (fun t k => t.mxHead k (fun x => if x.id = j.id ∧ x.phase = .chain then x.ended else x)) s).mxGo n
    else s

/-- The job of one member for a descriptor and a window (R237, R301). -/
def mxJob (raw ext : List Byte) (id g member m0 mN n0 nN k0 kN : Nat) (base : Option Nat) : MxJob :=
  { id := id, raw := raw, ext := ext, member := member, gang := g, m0 := m0, mN := mN, n0 := n0, nN := nN, k0 := k0
    kN := kN, partialBase := base, pass := 0, kc := k0, nt := 0, row := 0, phase := .load, blk := 0, second := false
    stop := false, tile := [], carry := [], flags := 0, under := 0 }

/-- R237: gives the units of a machine a descriptor: each member its share. -/
def State.mxAccept (s : State) (lead : Nat) (raw ext : List Byte) (m0 mN n0 nN k0 kN : Nat) (base : Option Nat) : State :=
  let ms := s.machineOf lead
  let id := match (s.core lead).mx.jobs.getLast? with | some j => j.id + 1 | none => 0
  ((ms.zip (List.range ms.length)).foldl (fun t p =>
    t.updMx p.1 (fun m => { m with jobs := m.jobs ++ [mxJob raw ext id ms.length p.2 m0 mN n0 nN k0 kN base] })) s).mxGo lead

/-- The window of work item i of a product grid (R300, R304): rows, columns, K spans and the partial's place. -/
def Grid.window (g : Grid) (i : Nat) : (Nat × Nat) × (Nat × Nat) × (Nat × Nat) × Option Nat :=
  let d := MxD.parse g.mraw
  let cb := comboOf d.a.fmt d.b.fmt d.inf
  let u := gridUnits d.c
  let ks := max 1 g.ks
  let cell := i / ks
  let rb := bandOf (ceilDiv d.m u.1) g.gm (cell / g.gn)
  let cb2 := bandOf (ceilDiv d.n u.2) g.gn (cell % g.gn)
  let kc := ceilDiv d.k cb.kt
  let sp := splitSpans kc ks (i % ks)
  ((rb.1 * u.1, min d.m ((rb.1 + rb.2) * u.1)), (cb2.1 * u.2, min d.n ((cb2.1 + cb2.2) * u.2)), sp,
    if 1 < ks then some (leAt g.block 0x20 8 + cb.acc.bytes * (i % ks * d.m * d.n)) else none)

/-- R256: the matrix work of a product cell or work item is accepted once no member's CLOSE is 1. -/
def State.acceptProduct (s : State) (lead : Nat) : State :=
  match (s.core lead).work with
  | .product g i =>
    match s.grid? g with
    | none => s
    | some x =>
      if !(s.core lead).ending && decide ((s.core lead).deliver = none) && s.mxClear lead
          && (s.machineOf lead).all (fun k => !(s.core k).mx.close) then
        let w := x.window i
        s.mxAccept lead x.mraw [] w.1.1 w.1.2 w.2.1.1 w.2.1.2 w.2.2.1.1 w.2.2.1.2 w.2.2.2
      else s
  | _ => s

end Sys2Proof.Machine
end

