-- ==== Sys2Proof/Machine/Matrix.lean ====
section
/-!
DEFINITION. The matrix unit of 09_matrix_unit: MXGO and its checks (R235, R239, R240), stationary loads, rows entering,
output rows, drizzle, the cold array, cancelling, and the registers of MXCTL (R257).
-/
namespace Sys2Proof.Machine

/-! ## MXGO -/

/-- R240: the extents in order; the first that fails decides, with whether it is written. -/
def Ctx.extents (x : Ctx) (w : Reach) : List (Nat × Nat × Bool) → XRes Bool
  | [] => .ok false
  | (va, len, wr) :: r =>
    match x.extent w (if wr then .write else .read) va len with
    | .ok _ => x.extents w r
    | .fault c v i => .fault c v (if wr then i + 256 else i)
    | .wait => .wait

/-- R239, R240: a descriptor's checks, the extension's rules among them once it has been read, and then the work. -/
def State.mxChecked (s : State) (n : Nat) (d : MxD) (ext : Option MxExt) (k : State → State) : State :=
  if !d.ok (s.machineOf n).length ext (s.spadBytes n) then s.excAt n 1
  else
    match (s.coreCtx n).extents (s.reachOf n) (d.extents ext) with
    | .fault c va i => s.takeExc n c (BitVec.ofNat 64 va) (BitVec.ofNat 64 i) 1 none
    | .wait => s
    | .ok _ => k s

/-- R256, R365: gives a checked descriptor to the units, or waits while four are held or CLOSE is 1. -/
def State.mxIssue (s : State) (n : Nat) (raw ext : List Byte) : State :=
  let d := MxD.parse raw
  let e := if d.op = 2 then some (MxExt.parse ext) else none
  s.mxChecked n d e (fun s =>
    if (s.machineOf n).any (fun k => decide (4 ≤ (s.core k).mx.jobs.length) || (s.core k).mx.close) then s
    else s.withCoreRanges n ((d.extents e).map (·.1)) (fun s =>
      (s.commit n true).mxAccept n raw ext 0 d.m 0 d.n 0 (ceilDiv d.k (comboOf d.a.fmt d.b.fmt d.inf).kt) none))

/-- R235, R239, R240: MXGO reads its descriptor, checks it, and hands it to the unit. The extension of a PAIR is read for
the checks; where it cannot be, its failure comes ninth, after every check that does not need it
(notes/assumptions/62.md). -/
def execMxgo (n : Nat) (ra : BitVec 5) (s : State) : Host.Outcome State Fault Refusal :=
  .next (s.instr n 8 [.g ra.toNat] 1 (fun s =>
    let va := ((s.core n).rg ra).toNat
    s.aligned n va 64 .read (fun s =>
      match s.loadBytes n (vAddrs va 128) with
      | (t, none) => t
      | (t, some raw) =>
        let d := MxD.parse raw
        if d.op = 2 ∧ d.pair % 64 = 0 then
          match t.coreXlate n .read (vAddrs d.pair 64) with
          | .ok _ =>
            (match t.loadBytes n (vAddrs d.pair 64) with
            | (u, none) => u
            | (u, some ext) => u.mxIssue n raw ext)
          | _ => t.mxChecked n d none id
        else t.mxIssue n raw [])))

/-! ## Events of the unit -/

/-- R246, R248: whether the next accepted descriptor's first stationary load can begin once the head's last row of A has
entered: nothing that the head still writes meets what it reads, or it goes on in the same slots. -/
def State.mxNextLoads (s : State) (n : Nat) : Bool :=
  match (s.core n).mx.jobs with
  | j :: x :: _ =>
    let d := MxD.parse j.raw
    let d2 := MxD.parse x.raw
    let ext := fun (d : MxD) (j : MxJob) => if d.op = 2 then some (MxExt.parse j.ext) else none
    let v := x.view
    let last := { j with phase := .output, row := 0 }.ended
    decide (j.pass + 1 = j.view.passes) && decide (last.phase = .done) && !x.stop && decide (v.nt ≠ 0) && decide (v.k0 ≠ v.kN)
      && (decide (d2.init = 2) || !d.feeds (ext d j) d2 (ext d2 x))
  | _ => false

/-- R229, R241, R247: a stationary load: the pass is initialised before its first, the tile is latched, and 32 cycles,
with 64 more of ramp for a descriptor that starts on a cold array, count in MX_STALL. -/
def execMxStationaryLoad (n : Nat) (s : State) : Host.Outcome State Fault Refusal :=
  match (s.core n).mx.jobs with
  | [] => .next s
  | j :: _ =>
    let v := j.view
    let first := decide (j.kc = j.k0) && decide (j.nt = 0)
    if j.phase ≠ .load ∨ j.stop ∨ (first && !s.mxPassReady n j v) = true then .next s
    else
      let z := if first then s.mxInit n j v else ((s.core n).mx.z, [])
      let tile := s.mxTile n j v
      let pas := z.2 ++ tile.flatMap (·.2)
      .next (s.whenRecalled (s.readWaits .fill pas) (fun s =>
      match s.badOf pas with
      | some k => s.mxPoison n (some k)
      | none =>
        let start := first && decide (j.pass = 0) && decide (j.blk = 0) && !j.second
        let stall := if start && (s.core n).mx.cold then 96 else 32
        let s1 := (s.coreRead n false pas).drizzleCut n
        let s2 := s1.updMx n (fun m => { (if first then m.opened j v z.1 else m) with cold := false })
        let s3 := s2.mxHead n (fun j => { j with tile := tile.map (·.1), phase := .stream, row := 0 })
        s3.updMx (s.leadOf n) (fun m => { m with stall := m.stall + BitVec.ofNat 64 stall })))

/-- Where a job goes after its row has entered (R241). -/
def MxJob.rowDone (j : MxJob) (v : MxView) : MxJob :=
  if j.row + 1 < 32 * v.mt then { j with row := j.row + 1 }
  else if j.nt + 1 < v.tiles j.pass then { j with nt := j.nt + 1, row := 0, phase := .load }
  else if j.kc + 1 < v.kN then { j with kc := j.kc + 1, nt := 0, row := 0, phase := .load }
  else { j with row := 0, phase := .output }

/-- R229, R230, R244: a row of A enters the array, and its products reach the accumulators. After the last one the array
drizzles, unless the next descriptor's load can begin (R248). -/
def execMxRowEnter (n : Nat) (s : State) : Host.Outcome State Fault Refusal :=
  match (s.core n).mx.jobs with
  | [] => .next s
  | j :: _ =>
    let v := j.view
    if j.phase ≠ .stream then .next s
    else
      let row := s.mxRow n j v
      let c0 := v.n0 + 32 * j.tileNo v j.nt
      let live := if v.m0 + j.row < v.mN then (List.range (min 32 (v.nN - c0))).map (v.accAddr j.nt j.row) else []
      let pas := row.flatMap (·.2)
      .next (s.whenRecalled (s.readWaits .fill pas) (fun s =>
      match s.badOf pas with
      | some k => s.mxPoison n (some k)
      | none =>
        if (s.core n).mx.zBad live then s.mxPoison n none
        else
          let r := mxAccumulate (s.core n).mx.z j v (row.map (·.1)) j.tile
          let s1 := (((s.coreRead n false pas).updMx n (fun m => { m with z := r.1 })).mxCount n r.2 0).mxHead n
            (fun j => j.rowDone v)
          let idle := decide ((j.rowDone v).phase = .output) && !s.mxNextLoads n
          (if idle && decide (s.drizzleLimit ≠ 0) then s1.updMx n (fun m => { m with drizzling := true }) else s1).mxGo n))

/-- R241, R253: the output stage writes one in-range row of one tile, in order of N tile, then of row. -/
def execMxOutputRow (n : Nat) (s : State) : Host.Outcome State Fault Refusal :=
  match (s.core n).mx.jobs with
  | [] => .next s
  | j :: _ =>
    let v := j.view
    let rows := v.oN - v.o0
    let t := j.row / rows
    let m := v.o0 + j.row % rows
    let nt := j.tileNo v t
    if j.phase ≠ .output ∨ rows = 0 ∨ s.mxTileReady n j v nt = false then .next s
    else if s.mxZBad n j v m (addrs (v.n0 + 32 * nt) (min 32 (v.nN - (v.n0 + 32 * nt)))) then .next (s.mxPoison n none)
    else
      let o := s.mxOut n j v m nt
      let pas := o.cells.map (·.1)
      .next (s.whenRecalled (s.coreWaits pas) (fun s =>
        ((((s.coreWrite n false pas).store o.cells).mxCount n o.flags o.under).mxHead n (fun j => { j with row := j.row + 1 })).mxGo n))

/-- R248: the drizzle limit passes with no stationary load: the array goes idle. -/
def execDrizzleLimit (n : Nat) (s : State) : Host.Outcome State Fault Refusal := .next (s.drizzleEnd n s.drizzleLimit)

/-- R247: 16 cycles without a load, streaming or drizzle leave the array cold; a load that can begin does. -/
def execArrayCold (n : Nat) (s : State) : Host.Outcome State Fault Refusal :=
  let m := (s.core n).mx
  if m.drizzling || m.jobs.any (fun j => decide (j.phase = .stream))
      || (m.jobs.head?.any (fun j => decide (j.phase = .output)) && s.mxNextLoads n) then .next s
  else .next (s.updMx n (fun m => { m with cold := true }))

/-- R256: cancelled descriptors that stand at the start of a stationary load, or wait for a chain, are cancelled. Those in
the output stage are cancelled when it ends. -/
def execMxCancel (n : Nat) (s : State) : Host.Outcome State Fault Refusal :=
  .next ((s.mxDrop n (fun j => j.stop && (decide (j.phase = .load) || decide (j.phase = .chain)))).mxGo n)

/-! ## Registers -/

/-- R256: a write of 1 to MXCTL.ABORT: the unit's descriptors are cancelled, its drizzle ends, and the core's share gets
an abort. -/
def State.mxAbort (s : State) (n : Nat) : State := (s.stopMx n).deliver (s.leadOf n) 7

/-- R257: writes of the matrix registers of core n. -/
def State.mxWrite (s : State) (n off v m : Nat) : State :=
  if off ≠ 0x2000 then s
  else
    let w := v &&& m
    let s1 := if bit m 0 then (s.updMx n (fun x => { x with close := bit v 0 })).acceptProduct (s.leadOf n) else s
    let s2 := if bit w 1 then s1.mxAbort n else s1
    if bit w 2 then s2.updMx n (fun x => { x with desc := 0, stall := 0, drizzle := 0, underflow := 0, spills := 0 }) else s2

end Sys2Proof.Machine
end

