-- ==== Sys2Proof/Machine/Stream.lean ====
section
/-!
DEFINITION. The stream chain engines of 10_stream_chain_engine: SCLOAD and SCGO (R261, R262), the sequencer words (R264 to
R268), chains entering beat by beat and writing (R270 to R283), DMA (R284), and the registers of SCCTL (R293).
-/
namespace Sys2Proof.Machine

/-! ## SCLOAD and SCGO -/

/-- R260: a stream long form addresses the engine of member `member` of the machine of core n; it is illegal when MEMBER
is not below the gang size. -/
def State.member (s : State) (n member : Nat) (f : State → Nat → State) : State :=
  match (s.machineOf n)[member]? with
  | some k => f s k
  | none => s.excAt n 1

/-- R261: the words of a load block: their extent is checked, the instruction waits for the engine, and the words are
read and checked. `s0` is the state before any read. -/
def State.scLoad (s0 s : State) (n k e : Nat) (b : Nat × Nat × Nat) : State :=
  let len := 2 * b.2.2
  match (s.coreCtx n).extent (s.reachOf n) .read b.1 len with
  | .fault c va i => s.takeExc n c (BitVec.ofNat 64 va) (xinfoOf .read i) 1 none
  | .wait => s0
  | .ok _ =>
    if !(s.engine k e).quiet || (s.engine k e).close then s0
    else
      match s.loadBytes n (vAddrs b.1 len) with
      | (t, none) => t
      | (t, some bs) =>
        let ws := words16 bs
        if ws.any (fun w => decide (2 ^ 14 ≤ w)) then t.excAt n 1
        else (t.updEngine k e (fun x => x.load b.2.1 ws)).commit n true

/-- R261: SCLOAD reads its load block, checks it, and writes the words into the engine's program memory. -/
def execScload (n : Nat) (e : Bool) (member : BitVec 2) (ra : BitVec 5) (s : State) : Host.Outcome State Fault Refusal :=
  .next (s.instr n 8 [.g ra.toNat] 1 (fun s => s.member n member.toNat (fun s k =>
    let va := ((s.core n).rg ra).toNat
    s.aligned n va 16 .read (fun s =>
      match s.loadBytes n (vAddrs va 16) with
      | (t, none) => t
      | (t, some raw) =>
        match loadBlock raw with
        | none => t.excAt n 1
        | some b => State.scLoad s t n k (bnat e) b))))

/-- R262: SCGO reads its start block and starts the engine, or has it hold the start; it waits while the engine holds one
or a PAIR names it, and while CLOSE is 1 (R291). -/
def execScgo (n : Nat) (e : Bool) (member : BitVec 2) (ra : BitVec 5) (s : State) : Host.Outcome State Fault Refusal :=
  .next (s.instr n 8 [.g ra.toNat] 1 (fun s => s.member n member.toNat (fun s k =>
    let va := ((s.core n).rg ra).toNat
    s.aligned n va 64 .read (fun s =>
      match s.loadBytes n (vAddrs va 64) with
      | (t, none) => t
      | (t, some raw) =>
        match startBlock raw with
        | none => t.excAt n 1
        | some b =>
          let st : Start := ⟨b.1, b.2.1, b.2.2.1, b.2.2.2, false⟩
          let x := t.engine k (bnat e)
          if x.held.isSome || x.close || t.pairNames k (bnat e) then s
          else
            let u := t.updEngine k (bnat e) (fun x => if x.quiet then x.begin st else { x with held := some st })
            u.commit n true))))

/-- R262: a held start begins once the program before it has ended. -/
def execHeldStartBegin (n : Nat) (e : Bool) (s : State) : Host.Outcome State Fault Refusal :=
  let x := s.engine n (bnat e)
  match x.held with
  | some st =>
    if ({ x with held := none } : Sce).quiet then .next (s.updEngine n (bnat e) (fun x => x.begin st)) else .next s
  | none => .next s

/-! ## The sequencer -/

/-- R264, R289: the word at PC cannot run. -/
def State.illegalWord (s : State) (n e : Nat) : State :=
  s.engineFault n e 1 (min 4095 (s.engine n e).pc) 0 0 none

/-- R267: a landed load. -/
def Sce.land (x : Sce) (l : PendLoad) : Sce :=
  match l.dst with
  | .s i => { x with s := modAt x.s i (fun _ => l.value) }
  | .n i => { x with n := modAt x.n i (fun _ => l.value) }
  | .lc i => { x with lc := modAt x.lc i (fun _ => l.value) }
  | .slot i => { x with cf := modAt x.cf i (fun _ => l.slot) }

/-- R267: one more word has been executed: loads that have waited for three words land, in order. -/
def Sce.age (x : Sce) : Sce :=
  let ls := x.loads.map (fun (l : PendLoad) => { l with left := l.left - 1 })
  let y := (ls.filter (fun l => decide (l.left = 0))).foldl Sce.land x
  { y with loads := ls.filter (fun l => decide (l.left ≠ 0)) }

/-- R268: after the word at `addr`, the active levels from 3 down whose end it is. -/
def Sce.loopEnd (x : Sce) (addr : Nat) : Nat → Sce
  | 0 => x
  | k + 1 =>
    if x.act.getD k false && decide (x.le.getD k 0 = addr) then
      let c := (x.lc.getD k 0 + 65535) % 65536
      let y := { x with lc := modAt x.lc k (fun _ => c) }
      if c ≠ 0 then { y with pc := x.ls.getD k 0 }
      else Sce.loopEnd { y with act := modAt y.act k (fun _ => false) } addr k
    else x.loopEnd addr k

/-- A word completes: `last` is its address, or that of the last word of its group, and `next` the address after it. -/
def Sce.wordDone (x : Sce) (last next : Nat) (new : List PendLoad) : Sce :=
  let y := (Sce.loopEnd { x with pc := next } last 4).age
  { y with loads := y.loads ++ new }

/-- R264: the engine reaches the word at PC: a PC past 4,095, a poisoned word or a reserved word faults; the word that
the command names runs, and any other word leaves the engine as it is. -/
def State.word (s : State) (n e : Nat) (want : SeqWord → Bool) (f : State → Sce → SeqWord → State) : State :=
  let x := s.engine n e
  if x.run ≠ .running then s
  else if 4095 < x.pc then s.illegalWord n e
  else if nsHas x.pmPoison x.pc then s.engineFault n e 7 x.pc 0 0 none
  else
    match SeqWord.decode (Tab.get 0 x.pm x.pc) with
    | none => s.illegalWord n e
    | some w => if want w then f s x w else s

/-- A register word's or NOP's effect on the engine. -/
def State.simple (s : State) (n e : Nat) (want : SeqWord → Bool) (f : Sce → SeqWord → Sce) : State :=
  s.word n e want (fun s x w => s.updEngine n e (fun _ => (f x w).wordDone x.pc (x.pc + 1) []))

/-- R265: NOP. -/
def execNop (n : Nat) (e : Bool) (s : State) : Host.Outcome State Fault Refusal :=
  .next (s.simple n (bnat e) (fun w => decide (w = .nop)) (fun x _ => x))

/-- R266: ADDSS. -/
def execAddss (n : Nat) (e : Bool) (s : State) : Host.Outcome State Fault Refusal :=
  .next (s.simple n (bnat e) (fun w => match w with | .addss _ _ => true | _ => false) (fun x w =>
    match w with
    | .addss d a => { x with s := modAt x.s d (fun v => (v + x.s.getD a 0) % 2 ^ 24) }
    | _ => x))

/-- R266: ADDSN. -/
def execAddsn (n : Nat) (e : Bool) (s : State) : Host.Outcome State Fault Refusal :=
  .next (s.simple n (bnat e) (fun w => match w with | .addsn _ _ => true | _ => false) (fun x w =>
    match w with
    | .addsn d a => { x with s := modAt x.s d (fun v => (v + x.n.getD a 0) % 2 ^ 24) }
    | _ => x))

/-- R266: MOVS. -/
def execMovs (n : Nat) (e : Bool) (s : State) : Host.Outcome State Fault Refusal :=
  .next (s.simple n (bnat e) (fun w => match w with | .movs _ _ => true | _ => false) (fun x w =>
    match w with
    | .movs d a => { x with s := modAt x.s d (fun _ => x.s.getD a 0) }
    | _ => x))

/-- R266: SETLEN. -/
def execSetlen (n : Nat) (e : Bool) (s : State) : Host.Outcome State Fault Refusal :=
  .next (s.simple n (bnat e) (fun w => match w with | .setlen _ => true | _ => false) (fun x w =>
    match w with
    | .setlen a => { x with len := x.n.getD a 0 }
    | _ => x))

/-- R266: ADDNI. -/
def execAddni (n : Nat) (e : Bool) (s : State) : Host.Outcome State Fault Refusal :=
  .next (s.simple n (bnat e) (fun w => match w with | .addni _ _ => true | _ => false) (fun x w =>
    match w with
    | .addni d i => { x with n := modAt x.n d (fun v => (((v : Int) + i) % (2 ^ 24 : Nat)).toNat) }
    | _ => x))

/-- R268: LOOP. -/
def execLoop (n : Nat) (e : Bool) (s : State) : Host.Outcome State Fault Refusal :=
  .next (s.word n (bnat e) (fun w => match w with | .loop _ _ => true | _ => false) (fun s x w =>
    match w with
    | .loop k b =>
      if 4095 < x.pc + b then s.illegalWord n (bnat e)
      else if x.lc.getD k 0 = 0 then
        s.updEngine n (bnat e) (fun _ => ({ x with act := modAt x.act k (fun _ => false) } : Sce).wordDone x.pc (x.pc + b + 1) [])
      else
        let y := { x with
          ls := modAt x.ls k (fun _ => x.pc + 1)
          le := modAt x.le k (fun _ => x.pc + b)
          act := modAt x.act k (fun _ => true) }
        s.updEngine n (bnat e) (fun _ => y.wordDone x.pc (x.pc + 1) [])
    | _ => s))

/-! ## Scratchpad loads -/

/-- R264, R290: reads `len` bytes at a scratchpad offset that must be a multiple of `al`: cause 4, 3 or 7. -/
def State.seqRead (s : State) (n e off len al : Nat) (f : State → List Byte → State) : State :=
  let pc := (s.engine n e).pc
  if off % al ≠ 0 then s.engineFault n e 4 pc 0 0 none
  else if s.spadBytes n < off + len then s.engineFault n e 3 pc 0 0 none
  else
    match s.spadBad n off len with
    | some k => s.engineFault n e 7 pc 0 0 (some k)
    | none => f s (s.spadRead n off len)

/-- R267: a load completes as a word; its value lands three words later. -/
def Sce.loads3 (x : Sce) (dst : LoadDst) (v : Nat) (slot : Slot) : Sce := x.wordDone x.pc (x.pc + 1) [⟨3, dst, v, slot⟩]

/-- R265, R269: LDCF. -/
def execLdcf (n : Nat) (e : Bool) (s : State) : Host.Outcome State Fault Refusal :=
  .next (s.word n (bnat e) (fun w => match w with | .ldcf _ _ => true | _ => false) (fun s x w =>
    match w with
    | .ldcf slot a => s.seqRead n (bnat e) (x.s.getD a 0) 64 64 (fun s bs =>
        s.updEngine n (bnat e) (fun x => x.loads3 (.slot slot) 0 (Slot.parse bs)))
    | _ => s))

/-- R266: LDS. -/
def execLds (n : Nat) (e : Bool) (s : State) : Host.Outcome State Fault Refusal :=
  .next (s.word n (bnat e) (fun w => match w with | .lds _ _ _ => true | _ => false) (fun s x w =>
    match w with
    | .lds d a i => s.seqRead n (bnat e) ((x.s.getD a 0 + 4 * i) % 2 ^ 24) 4 4 (fun s bs =>
        s.updEngine n (bnat e) (fun x => x.loads3 (.s d) (leNat bs % 2 ^ 24) Slot.zero))
    | _ => s))

/-- R266: LDC: targets 0 to 3 are n0 to n3, 4 to 7 lc0 to lc3. -/
def execLdc (n : Nat) (e : Bool) (s : State) : Host.Outcome State Fault Refusal :=
  .next (s.word n (bnat e) (fun w => match w with | .ldc _ _ _ => true | _ => false) (fun s x w =>
    match w with
    | .ldc t a i => s.seqRead n (bnat e) ((x.s.getD a 0 + 4 * i) % 2 ^ 24) 4 4 (fun s bs =>
        s.updEngine n (bnat e) (fun x =>
          if t < 4 then x.loads3 (.n t) (leNat bs % 2 ^ 24) Slot.zero
          else x.loads3 (.lc (t - 4)) (leNat bs % 2 ^ 16) Slot.zero))
    | _ => s))

/-! ## Waits and the end of a program -/

/-- R265: WAITD. -/
def execWaitd (n : Nat) (e : Bool) (s : State) : Host.Outcome State Fault Refusal :=
  .next (s.word n (bnat e) (fun w => match w with | .waitd _ => true | _ => false) (fun s x w =>
    match w with
    | .waitd t => if (x.tags.getD t none).isSome then s else s.updEngine n (bnat e) (fun x => x.wordDone x.pc (x.pc + 1) [])
    | _ => s))

/-- R265: WAITC. -/
def execWaitc (n : Nat) (e : Bool) (s : State) : Host.Outcome State Fault Refusal :=
  .next (s.word n (bnat e) (fun w => decide (w = .waitc)) (fun s x _ =>
    if x.chains.isEmpty then s.updEngine n (bnat e) (fun x => x.wordDone x.pc (x.pc + 1) []) else s))

/-- The program ends: loads that have not landed land, and the engine is idle. -/
def Sce.halt (x : Sce) : Sce :=
  { x.loads.foldl Sce.land x with loads := [], run := .idle, pair := false, pc := x.pc + 1, act := List.replicate 4 false }

/-- Whether core n runs a cell of a CHAIN descriptor on engine e. -/
def State.chainCell (s : State) (n e : Nat) : Bool :=
  match (s.core n).work with
  | .cell g _ => match s.grid? g with | some x => decide (x.kind = .chain) && decide (x.engine = e) | none => false
  | _ => false

/-- R265, R263: HALT waits until every chain and DMA of the program has completed and ends the program. A pair goes on;
a CHAIN descriptor's cell ends. -/
def execHaltWord (n : Nat) (e : Bool) (s : State) : Host.Outcome State Fault Refusal :=
  .next (s.word n (bnat e) (fun w => decide (w = .halt)) (fun s x _ =>
    if !x.chains.isEmpty || !x.tags.all (·.isNone) then s
    else
      let s1 := s.updEngine n (bnat e) Sce.halt
      if x.pair then s1.pairHalt n
      else if s1.chainCell n (bnat e) then (if (s1.core n).deliver.isSome then s1 else s1.endShare n)
      else s1.mxGo n))

/-! ## Chains -/

/-- R270: the registers and the slot after a CHAIN with ADV. -/
def Sce.advance (x : Sce) (slot : Nat) : Sce :=
  let c := x.cf.getD slot Slot.zero
  let p := fun (j : Nat) (v : Nat) => (v + c.pitch.getD j 0) % 2 ^ 24
  { x with
    s := (List.range 8).map (fun j => if j < 5 then p j (x.s.getD j 0) else x.s.getD j 0)
    cf := modAt x.cf slot (fun c => { c with idxBase := (c.idxBase + c.idxPitch) % 2 ^ 48 }) }

/-- Beats of a chain (R271). -/
def ChainRun.beats (c : ChainRun) : Nat := ceilDiv c.len c.slot.beat

/-- R264, R268, R270: CHAIN issues its group: its words must be stage words and hold no loop end but on the last; it waits
while an earlier chain has not entered its first beat. -/
def execChain (n : Nat) (e : Bool) (s : State) : Host.Outcome State Fault Refusal :=
  let e := bnat e
  .next (s.word n e (fun w => match w with | .chain _ _ _ => true | _ => false) (fun s x w =>
    match w with
    | .chain nst slot adv =>
      let as := addrs (x.pc + 1) nst
      let ws := as.map (Tab.get 0 x.pm)
      let inner := addrs x.pc nst
      let endIn := (List.range 4).any (fun k => x.act.getD k false && inner.contains (x.le.getD k 0))
      if 4095 < x.pc + nst ∨ endIn then s.illegalWord n e
      else if as.any (nsHas x.pmPoison) then s.engineFault n e 7 x.pc 0 0 none
      else if ws.any (fun w => decide (bits w 12 2 ≠ 3)) then s.illegalWord n e
      else if x.chains.any (fun c => decide (c.entered = 0)) then s
      else
        let c := x.cf.getD slot Slot.zero
        let stages := ws.map (fun w => w % 4096)
        let bad := chainCheck c stages (x.s.take 5) x.len (s.spadBytes n)
        if bad ≠ 0 then s.engineFault n e bad x.pc 0 0 none
        else
          let run : ChainRun := ⟨x.nextChain, x.len, x.s.take 5, c, stages, 0, [0, 0, 0], [], [], [], x.pc⟩
          let y := if x.len = 0 then { x with nChains := x.nChains + 1 }
            else { x with chains := x.chains ++ [run], nextChain := x.nextChain + 1 }
          let z := if adv then y.advance slot else y
          s.updEngine n e (fun _ => z.wordDone (x.pc + nst) (x.pc + nst + 1) [])
    | _ => s))

/-- R271: the working-format value of an element of input j, from its bytes, and the condition of a NaN (R121). -/
def Slot.widen (c : Slot) (j raw : Nat) : Nat × Cond :=
  match NumFmt.ofCode (c.inFmt j) with
  | some f => f.convert c.wf .rne false raw
  | none => (0, 0)

/-- The scratchpad offset and size of element i of input j of a chain. -/
def ChainRun.inOff (r : ChainRun) (j i : Nat) : Nat × Nat :=
  let x := chainIn r.slot r.s r.len j
  let sz := fmtSize (r.slot.inFmt j)
  (x.1 + i * sz, sz)

/-- R290: the scratchpad bytes that a beat reads: in-range elements of the inputs, a broadcast input only with the first
beat. -/
def ChainRun.reads (r : ChainRun) (b : Nat) : List (Nat × Nat) :=
  let lo := b * r.slot.beat
  let live := min r.slot.beat (r.len - lo)
  (chainInputs r.stages).flatMap (fun j =>
    if r.slot.inBc j then (if b = 0 then [r.inOff j 0] else [])
    else (List.range live).map (fun i => r.inOff j (lo + i)))

/-- R278, R282: converts element i of a chain's output to O_FMT, with its own random word. -/
def State.chainOutEl (s : State) (c : Slot) (i v : Nat) : Nat × Cond :=
  let seed := if c.seedDef then (match s.sim.image with | some m => m.srSeed | none => 0) else c.seed
  let rm := (Rm.ofCode c.rm (srBits seed c.stream ((c.idxBase + i) % 2 ^ 48))).getD .rne
  match NumFmt.ofCode c.o with
  | some f => c.wf.convert f rm c.sat v
  | none => (0, 0)

/-- R279, R280: what a SUM, RMAX, RMIN or TOPK writes once its whole row has come: writes and conditions. -/
def State.chainRow (s : State) (r : ChainRun) (op b : Nat) (row : List Nat) : List ChainWrite × Cond :=
  let F := r.slot.wf.fp
  let sz := fmtSize r.slot.o
  if op = 0x1B then
    let top := topK F r.slot.topk row
    let els := (top.zip (List.range top.length)).map (fun p => s.chainOutEl r.slot p.2 p.1.1)
    ([⟨b, true, r.s.getD 2 0, els.flatMap (fun x => leBytes sz x.1)⟩,
      ⟨b, true, r.s.getD 3 0, top.flatMap (fun x => leBytes 4 x.2)⟩], els.foldl (fun c x => c ||| x.2) 0)
  else
    let t := rowRed op F row
    let x := s.chainOutEl r.slot 0 t.1
    ([⟨b, true, r.s.getD 2 0, leBytes sz x.1⟩], t.2 ||| x.2)

/-- R281: block j of a quantised row of `len` elements: its writes, the elements that underflowed and the conditions. -/
def State.chainBlock (s : State) (r : ChainRun) (b j : Nat) (row : List Nat) : List ChainWrite × Nat × Cond :=
  let c := r.slot
  let bs := (bxSize c.bsz).getD 8
  let seed := if c.seedDef then (match s.sim.image with | some m => m.srSeed | none => 0) else c.seed
  match NumFmt.ofCode c.o with
  | none => ([], 0, 0)
  | some f =>
    let xs := (sliceList row (j * bs) bs).zip (addrs (j * bs) bs)
    let q := quantBlock f.fp (xs.map (fun p =>
      (c.wf.decode p.1, (Rm.ofCode c.rm (srBits seed c.stream ((c.idxBase + p.2) % 2 ^ 48))).getD .rne)))
    let bytes := if f = .bx4 then packNibbles q.els else q.els.map (BitVec.ofNat 8)
    ([⟨b, true, r.s.getD 2 0 + fmtBytes c.o (j * bs), bytes⟩, ⟨b, true, r.s.getD 3 0 + j, leBytes 1 q.scale⟩], q.under, q.cond)
  where
    /-- n entries of a list from index o. -/
    sliceList (l : List Nat) (o n : Nat) : List Nat := (l.drop o).take n

/-- What a beat of a chain brings: the chain after it, conditions, and underflows. -/
structure BeatOut where
  run : ChainRun
  flags : Cond
  under : Nat
  deriving DecidableEq, Repr

/-- R274, R276 to R281: beat b of a chain passes its stages. `ins` holds the inputs' lanes. -/
def State.chainBeat (s : State) (r : ChainRun) (b : Nat) (ins : List (List Nat)) (bcast : List Nat) : BeatOut :=
  let c := r.slot
  let F := c.wf.fp
  let nl := c.beat
  let live := min nl (r.len - b * nl)
  let op := stOp (r.stages.getLastD 0)
  let term := stTerminal op
  let nst := if term then r.stages.length - 1 else r.stages.length
  let res := beatStages F c.k b nl live r.stages ins r.hist nst
  let base := { r with entered := b + 1, bcast := bcast, hist := (res.1 :: r.hist).take 8 }
  if term then
    let src := stageSrc (stSa (r.stages.getLastD 0)) nst b nl c.k r.stages ins res.1 r.hist
    let row := r.row ++ (src.take live).map (·.1)
    let fin := decide (r.beats ≤ b + 1)
    if op = 0x1C then
      let bs := (bxSize c.bsz).getD 8
      let had := r.row.length / bs
      let now_ := if fin then ceilDiv row.length bs else row.length / bs
      let bl := (addrs had (now_ - had)).map (fun j => s.chainBlock r b j row)
      ⟨{ base with row := row, pend := r.pend ++ bl.flatMap (·.1) }, bl.foldl (fun f x => f ||| x.2.2) res.2, (bl.map (·.2.1)).foldl (· + ·) 0⟩
    else if fin then
      let w := s.chainRow r op b row
      ⟨{ base with row := row, pend := r.pend ++ w.1 }, res.2 ||| w.2, 0⟩
    else ⟨{ base with row := row }, res.2, 0⟩
  else
    let q := (List.range nst).find? (fun i => stM (r.stages.getD i 0))
    let outs := ((res.1.getD (q.getD 0) []).take live).map (·.1)
    let els := (outs.zip (addrs (b * nl) live)).map (fun p => s.chainOutEl c p.2 p.1)
    let sz := fmtSize c.o
    ⟨{ base with pend := r.pend ++ [⟨b, false, r.s.getD 2 0 + b * nl * sz, els.flatMap (fun x => leBytes sz x.1)⟩] },
      els.foldl (fun c x => c ||| x.2) res.2, 0⟩

/-- The extent of a write. -/
def ChainWrite.ext (w : ChainWrite) : Nat × Nat × Nat := (w.off, w.bytes.length, 1)

/-- R274, R283, R290: the next beat enters: it belongs to the first chain that has beats to enter, whose first beat waits
until the outputs of earlier chains that overlap its inputs are written. -/
def execChainBeatEnter (n : Nat) (e : Bool) (s : State) : Host.Outcome State Fault Refusal :=
  let e := bnat e
  let x := s.engine n e
  match findIdx? (fun (c : ChainRun) => decide (c.entered < c.beats)) x.chains with
  | none => .next s
  | some i =>
    match x.chains[i]? with
    | none => .next s
    | some r =>
      let ins := (chainInputs r.stages).map (chainIn r.slot r.s r.len)
      let busy := (x.chains.take i).any (fun c => c.pend.any (fun w => ins.any (fun a => overlaps w.ext a)))
      if r.entered = 0 && busy then .next s
      else
        let b := r.entered
        match (r.reads b).findSome? (fun p => s.spadBad n p.1 p.2) with
        | some k => .next (s.engineFault n e 7 r.pc 0 0 (some k))
        | none =>
          let el := fun (j i : Nat) => let p := r.inOff j i; r.slot.widen j (leNat (s.spadRead n p.1 p.2))
          let bc := if b = 0 then (List.range 3).map (fun j => if r.slot.inBc j then el j 0 else (0, 0))
            else r.bcast.map (fun v => ((v, 0) : Nat × Cond))
          let lo := b * r.slot.beat
          let lanes := (List.range 3).map (fun j => (List.range r.slot.beat).map (fun k =>
            if r.len ≤ lo + k ∨ (chainInputs r.stages).contains j = false then ((0, 0) : Nat × Cond)
            else if r.slot.inBc j then bc.getD j (0, 0)
            else el j (lo + k)))
          let o := s.chainBeat r b (lanes.map (fun l => l.map (·.1))) (bc.map (·.1))
          let flags := lanes.foldl (fun f l => l.foldl (fun f v => f ||| v.2) f) o.flags
          .next (s.updEngine n e (fun x => { x with
            chains := modAt x.chains i (fun _ => o.run)
            flags := x.flags ||| flags
            nBeats := x.nBeats + 1
            nUnder := x.nUnder + BitVec.ofNat 64 o.under
            nStall := x.nStall + Config.freePmc s.free 17 })).drawn

/-- Chains whose beats have entered and whose outputs are written complete. -/
def Sce.chainsDone (x : Sce) : Sce :=
  let fin := fun (c : ChainRun) => decide (c.beats ≤ c.entered) && c.pend.isEmpty
  { x with
    chains := x.chains.filter (fun c => !fin c)
    nChains := x.nChains + BitVec.ofNat 64 (x.chains.filter fin).length }

/-- R273, R283: the oldest write of the kind asked for is performed, unless an earlier chain has yet to write one of its
bytes. A terminal's writes of one beat are performed together. -/
def State.chainWrite (s : State) (n e : Nat) (term : Bool) : State :=
  let x := s.engine n e
  match findIdx? (fun (c : ChainRun) => c.pend.any (fun w => w.terminal == term)) x.chains with
  | none => s
  | some i =>
    match x.chains[i]? with
    | none => s
    | some r =>
      match r.pend with
      | [] => s
      | w :: _ =>
        let ws := r.pend.takeWhile (fun (y : ChainWrite) => decide (y.beat = w.beat))
        let wait := (x.chains.take i).any (fun c => c.pend.any (fun y => ws.any (fun z => overlaps y.ext z.ext)))
        if wait then s
        else
          let s1 := ws.foldl (fun t z => t.spadWrite n z.off z.bytes) s
          s1.updEngine n e (fun x => Sce.chainsDone { x with
            chains := modAt x.chains i (fun c => { c with pend := c.pend.drop ws.length }) })

/-- R274: an M stage's write. -/
def execStageWrite (n : Nat) (e : Bool) (s : State) : Host.Outcome State Fault Refusal := .next (s.chainWrite n (bnat e) false)

/-- R273: a terminal's write. -/
def execTerminalWrite (n : Nat) (e : Bool) (s : State) : Host.Outcome State Fault Refusal := .next (s.chainWrite n (bnat e) true)

/-! ## DMA -/

/-- R284, R289, R365: the checks of a DMA descriptor, and its issue on a tag. -/
def State.dmaIssue (s : State) (n e tag : Nat) (raw : List Byte) : State :=
  let d := DmaD.parse raw
  let pc := (s.engine n e).pc
  let need := if d.toDram then Need.write else .read
  if s.spadBytes n < d.spoff + d.spLen then s.engineFault n e 3 pc 0 (xinfoOf need 0) none
  else if !d.ok then s.engineFault n e 2 pc 0 (xinfoOf need 0) none
  else
    match (s.coreCtx n).extent (s.reachOf n) need d.vaddr d.vLen with
    | .fault 4 va _ =>
      let c := s.core (s.leadOf n)
      (s.postXlate c.ctx va need (.engine n e) (s.queueOfCore (s.leadOf n))).updEngine n e (fun x => { x with run := .waiting })
    | .fault _ va i => s.engineFault n e 6 pc (BitVec.ofNat 64 va) (xinfoOf need i) none
    | .wait => s
    | .ok _ => s.withCoreRanges n [d.vaddr] (fun s => s.updEngine n e (fun x =>
        ({ x with tags := modAt x.tags tag (fun _ => some raw) } : Sce).wordDone x.pc (x.pc + 1) []))

/-- R265, R284: DMA waits while its tag is busy, reads its descriptor and issues it. -/
def execDma (n : Nat) (e : Bool) (s : State) : Host.Outcome State Fault Refusal :=
  .next (s.word n (bnat e) (fun w => match w with | .dma _ _ => true | _ => false) (fun s x w =>
    match w with
    | .dma a tag =>
      if (x.tags.getD tag none).isSome then s
      else s.seqRead n (bnat e) (x.s.getD a 0) 32 32 (fun s bs => s.dmaIssue n (bnat e) tag bs)
    | _ => s))

/-- R284: every byte of a transfer is written, marks with them, and its tag is idle. -/
def execDmaTransferDone (n : Nat) (e : Bool) (tag : BitVec 2) (s : State) : Host.Outcome State Fault Refusal :=
  match (s.engine n (bnat e)).tags.getD tag.toNat none with
  | none => .next s
  | some raw =>
    let d := DmaD.parse raw
    let len := d.rows * d.rowBytes
    .next (s.whenRecalled (s.moveWaits .stream (s.dmaPas n d len)) (fun s =>
      (s.dmaMove n d len).updEngine n (bnat e) (fun x => { x with tags := modAt x.tags tag.toNat (fun _ => none) })))

/-! ## Registers -/

/-- R292: a write of 1 to SCCTL.ABORT aborts the engine and delivers an abort to the core. -/
def State.scAbort (s : State) (n e : Nat) : State := (s.abortEngine n e).deliver (s.leadOf n) 7

/-- Whether a CHAIN cell's start on engine e of core n still waits (R291). -/
def State.chainWaits (s : State) (n e : Nat) : Bool :=
  let c := s.core n
  s.chainCell n e && decide (c.run = .running) && c.deliver.isNone && !c.ending && (s.engine n e).idle

/-- R293: writes of the stream registers of core n: CLOSE, ABORT, CNT_RESET. Starts of a pair or of a CHAIN cell that wait
for CLOSE go on. -/
def State.sceWrite (s : State) (n off v m : Nat) : State :=
  if off ≠ 0x3000 ∧ off ≠ 0x3100 then s
  else
    let e := (off - 0x3000) / 0x100
    let w := v &&& m
    let s1 := if bit m 0 then (s.updEngine n e (fun x => { x with close := bit v 0 })).mxGo n else s
    let s1 := if bit m 0 && s1.chainWaits n e then s1.chainBegin n else s1
    let s2 := if bit w 1 then s1.scAbort n e else s1
    if bit w 2 then s2.updEngine n e (fun x => { x with nChains := 0, nBeats := 0, nStall := 0, nUnder := 0 }) else s2

end Sys2Proof.Machine
end

