-- ==== Sys2Proof/Machine/Place.lean ====
section
/-!
DEFINITION. The placement engine of 11_tiling_and_placement: the checks of a KERNEL (R295), CHAIN (R397), the choice of a
machine (R309), the start of a cell (R297 to R299), the combine of a split window (R305), pinning (R308), phase plans and
moves (R312 to R316), and the PLE registers (R320).
-/
namespace Sys2Proof.Machine

/-! ## The checks of a grid (R295) -/

/-- What the checks of a grid block answer. -/
inductive GridRes where
  | ok (g : Grid)
  | stop (st : Nat)
  | xlate (va : Nat) (need : Need)
  | wait
  | poison (sector : Nat)
  deriving DecidableEq, Repr

/-- Checks an extent as R240 does, then goes on. -/
def Ctx.gridExt (x : Ctx) (need : Need) (va len : Nat) (k : Unit → GridRes) : GridRes :=
  match x.extent .other need va len with
  | .ok _ => k ()
  | .wait => .wait
  | .fault c v _ => if c = 4 then .xlate v need else .stop stPerm

/-- Reads bytes whose extent has passed; poison is consumed. -/
def State.gridRead (s : State) (c va len : Nat) (k : List Byte → GridRes) : GridRes :=
  match s.xlateSpan c .other .read va len with
  | .ok pas => match s.badSector pas with | some b => .poison b | none => k (s.rdAt pas)
  | .wait => .wait
  | .fault _ _ _ => .stop stPerm

/-- Checks extents in order. -/
def Ctx.gridExts (x : Ctx) (k : Unit → GridRes) : List (Nat × Nat × Bool) → GridRes
  | [] => k ()
  | (va, len, wr) :: r => x.gridExt (if wr then .write else .read) va len (fun _ => x.gridExts k r)

/-- R295 item 2: what a PRODUCT's matrix descriptor must be. -/
def productOk (d : MxD) (ks gm gn : Nat) : Bool :=
  let kc := ceilDiv d.k (comboOf d.a.fmt d.b.fmt d.inf).kt
  d.okCap false 1 none 0 && decide (d.op = 1) && !d.keep && decide (d.init ≠ 2)
    && decide ((gm = 0) = (gn = 0)) && (if d.k = 0 then decide (ks ≤ 1) else decide (ks ≤ 1) || decide (ks ≤ kc))

/-- R306: the workspace of a split product is large enough, lies in one read-write range and apart from the operands. -/
def Ctx.workOk (x : Ctx) (d : MxD) (ks work bytes : Nat) (k : Unit → GridRes) : GridRes :=
  let e := (comboOf d.a.fmt d.b.fmt d.inf).acc.bytes
  let need := ks * d.m * d.n * e
  if ks ≤ 1 then k ()
  else if bytes < need then .stop stPerm
  else x.gridExt .read work bytes (fun _ => x.gridExt .write work bytes (fun _ =>
    if (MxD.extents { d with status := 0 } Option.none).any (fun y => extMeet (work, bytes) (y.1, y.2.1))
    then .stop stPerm else k ()))

/-- The gang size that a program grid's cells need (R296). -/
def State.gridGang (s : State) (gang : Nat) : Nat :=
  if gang ≠ 0 then gang else match s.sim.image with | some i => i.gang.foldl max 1 | none => 1

/-- Length of the context's scratchpad-handle range, 0 when it has none, and its virtual base. -/
def Ctx.scratch (x : Ctx) : Nat × Nat :=
  match x.ranges.find? (fun e => e.2.valid && decide (e.2.kind = .scratch)) with
  | some e => (e.2.len, e.2.vbase)
  | Option.none => (0, 0)

/-- R296: whether a machine is eligible for the cells of a program grid; any job machine is for other grids (R397). -/
def State.eligible (s : State) (c : Nat) (kind : GridKind) (gang : Nat) (m : VecMachine) : Bool :=
  match kind with
  | .program => decide (m.members.length = s.gridGang gang)
      && decide ((s.ctx c).scratch.1 ≤ m.members.length * s.spadBytes (m.members.headD 0))
  | _ => true

/-- R318: every entry of a fixed table names the lead of an eligible machine. -/
def State.fixedOk (s : State) (c : Nat) (kind : GridKind) (gang : Nat) (t : List Byte) : Bool :=
  t.all (fun b => s.ple.vms.any (fun m => decide (m.members.headD 64 = b.toNat) && s.eligible c kind gang m))

/-- A grid that has passed its checks. -/
def mkGrid (id c : Nat) (kind : GridKind) (block mraw fixed : List Byte) (gm gn ks gang hint vmMax : Nat) : Grid :=
  { desc := id, ctx := c, kind := kind, block := block, mraw := mraw, fixed := fixed, gm := gm, gn := gn, ks := ks
    gang := gang, hint := hint, vmMax := vmMax, engine := 0, load := 0, startAt := 0, next := 0, running := []
    ended := [], ready := [], combining := [], combined := [], stopping := false, flags := 0, spill := 0, under := 0 }

/-- R318: the fixed table is read and checked when there is one. -/
def State.withFixed (s : State) (c at_ n : Nat) (k : List Byte → GridRes) : GridRes :=
  if at_ = 0 then k [] else s.gridRead c at_ n k

/-- R295: the checks of a grid at an address of a context, in their order, for descriptor `id`. A recheck runs its product
with other fields of the matrix descriptor (R460), which `fix` puts in place; a KERNEL leaves it as it is. -/
def State.gridOf (s : State) (id c addr : Nat) (fix : List Byte → List Byte) : GridRes :=
  let x := s.ctx c
  if addr % 64 ≠ 0 then .stop stPerm
  else x.gridExt .read addr 64 (fun _ => s.gridRead c addr 64 (fun b =>
    if !gridBlockOk b then .stop stPerm
    else
      let ks := leAt b 1 1
      let gm := leAt b 8 2
      let gn := leAt b 0xA 2
      let entry := leAt b 0x10 8
      let fixed := leAt b 0x30 8
      let hint := leAt b 3 1
      let vmMax := leAt b 4 2
      let allowed := match s.sim.image with | some i => i.fixedAllowed | none => false
      if leAt b 0 1 = 1 then
        if fixed ≠ 0 ∧ allowed = false then .stop stPerm
        else x.gridExt .fetch entry 4 (fun _ =>
          x.gridExt .read fixed (if fixed = 0 then 0 else gm * gn) (fun _ =>
            s.withFixed c fixed (gm * gn) (fun t =>
              if !s.fixedOk c .program (leAt b 2 1) t then .stop stPerm
              else if !s.ple.vms.any (s.eligible c .program (leAt b 2 1)) then .stop stLimit
              else .ok (mkGrid id c .program b [] t gm gn 1 (leAt b 2 1) hint vmMax))))
      else
        x.gridExt .read entry 128 (fun _ => s.gridRead c entry 128 (fun raw0 =>
          let raw := fix raw0
          let d := MxD.parse raw
          let u := gridUnits d.c
          let acc := (comboOf d.a.fmt d.b.fmt d.inf).acc
          if !productOk d ks gm gn then .stop stPerm
          else if ceilDiv d.m u.1 < gm ∨ ceilDiv d.n u.2 < gn then .stop stPerm
          else if fixed ≠ 0 ∧ (allowed = false ∨ gm = 0) then .stop stPerm
          else x.gridExts (fun _ => x.workOk d ks (leAt b 0x20 8) (leAt b 0x28 8) (fun _ =>
            x.gridExt .read fixed (if fixed = 0 then 0 else gm * gn * ks) (fun _ =>
              s.withFixed c fixed (gm * gn * ks) (fun t =>
                if !s.fixedOk c .product 0 t then .stop stPerm
                else
                  let v := if vmMax = 0 then s.ple.vms.length else min vmMax s.ple.vms.length
                  let shape := if gm = 0 then gridAuto d acc ks v else if gridCapOk d acc gm then some (gm, gn) else none
                  match shape with
                  | none => .stop stLimit
                  | some (a, e) => .ok (mkGrid id c .product b raw t a e ks 0 hint vmMax))))) (d.extents none)))))

/-! ## Pinning (R308) -/

/-- Lines of DRAM that an extent of a context touches. -/
def State.linesOf (s : State) (c va len : Nat) : List Nat :=
  let vas := ((List.range (len / 256 + 2)).map (fun i => if i = 0 then va else va / 256 * 256 + 256 * i)).filter
    (fun a => decide (a < va + len))
  let pas := vas.filterMap (fun a => match (s.ctx c).held.xlate .other .read a with | .ok (.pa p) => some p | _ => none)
  ((pas.filter (fun p => decide (p < dramTop))).map (· / 256)).eraseDups

/-- Lines of the part of an operand with logical rows r0 to r1 and columns c0 to c1, with their scale bytes. -/
def State.bandLines (s : State) (c : Nat) (o : MxOperand) (cols r0 r1 c0 c1 : Nat) : List Nat :=
  let p := o.stored (r1 - r0) (c1 - c0)
  let q := o.stored r0 c0
  let elems := (List.range p.1).flatMap (fun i =>
    let off := match o.fmt with | some .bx4 => q.2 / 2 | _ => q.2 * o.esz
    s.linesOf c (o.base + (q.1 + i) * o.pitch + off) (o.rowBytes p.2))
  let sc := if o.isBx then
      (addrs (r0 / o.blk.1) (ceilDiv r1 o.blk.1 - r0 / o.blk.1)).flatMap (fun i =>
        s.linesOf c (o.scale + i * ceilDiv cols o.blk.2 + c0 / o.blk.2) (ceilDiv c1 o.blk.2 - c0 / o.blk.2))
    else []
  (elems ++ sc).eraseDups

/-- Lines pinned for a context. -/
def State.pinnedOf (s : State) (c : Nat) : List Nat :=
  ((s.ple.pins.filter (fun p => decide (p.ctx = c))).flatMap (·.lines)).eraseDups

/-- R308: whether lines can be pinned for a context within NSC.PIN_WAYS_MAX of every set and NSC.CTX_PIN_MIB. -/
def State.pinFits (s : State) (c : Nat) (ls : List Nat) : Bool :=
  let mine := (s.pinnedOf c ++ ls).eraseDups
  let all := ((s.ple.pins.flatMap (·.lines)) ++ ls).eraseDups
  decide (mine.length ≤ s.img (·.ctxPinMib) * 4096)
    && ls.all (fun l => decide ((all.filter (fun k =>
        decide (setOf k = setOf l) && decide (s.homeOf k = s.homeOf l))).length ≤ s.img (·.pinWays)))

/-- Pins a line in its slice. -/
def State.pinLine (s : State) (l : Nat) : State :=
  let go := fun (t : State) => t.touchLine l (fun x => { x with pinned := true })
  match s.room l with
  | .free => go s
  | .evict v => go (s.evict v)
  | .none => s

/-- Pins lines in their slices. -/
def State.pinLines (s : State) (p : Pin) : State :=
  p.lines.foldl State.pinLine { s with ple := { s.ple with pins := s.ple.pins ++ [p] } }

/-- R308: pins bands in order until one does not fit. -/
def State.pinBands (s : State) (c id : Nat) : List (List Nat) → State
  | [] => s
  | ls :: r => if s.pinFits c ls then (s.pinLines ⟨c, some id, 0xFF, ls⟩).pinBands c id r else s

/-- R308: the bands of a product grid: row bands of A, then column bands of B. -/
def State.gridBands (s : State) (g : Grid) : List (List Nat) :=
  let d := MxD.parse g.mraw
  let u := gridUnits d.c
  let a := (List.range g.gm).map (fun i =>
    let b := bandOf (ceilDiv d.m u.1) g.gm i
    s.bandLines g.ctx d.a d.k (b.1 * u.1) (min d.m ((b.1 + b.2) * u.1)) 0 d.k)
  let b := (List.range g.gn).map (fun i =>
    let b := bandOf (ceilDiv d.n u.2) g.gn i
    s.bandLines g.ctx d.b d.n 0 d.k (b.1 * u.2) (min d.n ((b.1 + b.2) * u.2)))
  if d.k = 0 then [] else a ++ b

/-! ## KERNEL and CHAIN -/

/-- Adds a grid that has passed its checks; a product's shape is noted and its bands pinned. -/
def State.addGrid (s : State) (g : Grid) : State :=
  let s1 : State := { s with ple := { s.ple with grids := s.ple.grids ++ [g] } }
  if g.kind = .product then
    { s1 with ple := { s1.ple with lastKs := g.ks, lastGm := g.gm, lastGn := g.gn } }.pinBands g.ctx g.desc (s1.gridBands g)
  else s1

/-- The blocks that the checks of a grid at an address read: first byte and length. -/
def Grid.blocksRead (g : Grid) (addr : Nat) : List (Nat × Nat) :=
  [(addr, 64)] ++ (if g.kind = .product then [(leAt g.block 0x10 8, 128)] else [])
    ++ (if g.fixed = [] then [] else [(leAt g.block 0x30 8, g.fixed.length)])

/-- R329, R365: a unit's reads of blocks of a context. -/
def State.blockReads (s : State) (c : Nat) (bs : List (Nat × Nat)) : State :=
  let vas := bs.flatMap (fun b => vAddrs b.1 b.2)
  s.withRanges unitRtb c vas (fun s =>
    match (s.ctx c).held.span .other .read vas with | .ok pas => s.unitRead .block pas | _ => s)

/-- R295: KERNEL's checks pass and its grid runs, or it ends, or waits. -/
def State.kernelStart (s : State) (d : Desc) : State :=
  match s.gridOf d.id d.ctx (d.fld 0x10 8) (fun r => r) with
  | .ok g =>
    let t := s.blockReads d.ctx (g.blocksRead (d.fld 0x10 8))
    if (t.ctx d.ctx).killed && !(s.ctx d.ctx).killed then t
    else (t.updDesc d.id (fun x => { x with ready := true })).addGrid g
  | .stop st => s.endDesc d.id st
  | .xlate va n => (s.postXlate d.ctx va n (.desc d.id) d.queue).updDesc d.id (fun x => { x with waiting := true })
  | .wait => s
  | .poison k => s.consume d.ctx 0xD 0xFF 0 d.queue (some k)

/-- R295, R298: a KERNEL descriptor starts. -/
def execKernel (id : Nat) (s : State) : Host.Outcome State Fault Refusal := .next (s.starting id tyKernel State.kernelStart)

/-- R397: a CHAIN descriptor starts; its cells are as many as its start blocks. -/
def State.chainStart (s : State) (d : Desc) : State :=
  let g := mkGrid d.id d.ctx .chain [] [] [] (d.fld 0x20 2) 1 1 0 (d.fld 0x23 1) (d.fld 0x24 2)
  (s.updDesc d.id (fun x => { x with ready := true })).addGrid
    { g with engine := d.fld 0x22 1, load := d.fld 0x10 8, startAt := d.fld 0x18 8 }

/-- R397: a CHAIN descriptor starts. -/
def execChainDescriptor (id : Nat) (s : State) : Host.Outcome State Fault Refusal := .next (s.starting id tyChain State.chainStart)

/-! ## The choice of a machine (R309) -/

/-- Whether a machine is free: it runs nothing and every member is fit. -/
def State.vmFree (s : State) (m : VecMachine) : Bool :=
  !m.busy && m.members.all (fun n => s.fit n && decide ((s.core n).work = .none))

/-- R309 step 3: twice the bytes of a range that count toward the west and the east half: a home's half for classes 1 and 2,
else both alike. -/
def Range.halves (r : Range) (len : Nat) : Nat × Nat :=
  if r.kind ≠ .placed then (len, len)
  else if r.cls = 1 then (if r.home = 0 then (2 * len, 0) else (0, 2 * len))
  else if r.cls = 2 then (if r.home < 4 then (2 * len, 0) else (0, 2 * len))
  else (len, len)

/-- Twice the bytes of an extent by half. -/
def Ctx.halfBytes (x : Ctx) (va len : Nat) : Nat × Nat :=
  match x.at_ va with
  | Option.none => (0, 0)
  | some (_, r) => r.halves len

/-- R309 step 3: the half that holds the larger share of a work item's operand bytes; none when they are equal. -/
def State.nearHalf (s : State) (g : Grid) (item : Nat) : Option Nat :=
  let x := s.ctx g.ctx
  let parts := if g.kind = .product then
      let d := MxD.parse g.mraw
      let w := g.window item
      let rows := w.1.2 - w.1.1
      let cols := w.2.1.2 - w.2.1.1
      let of := fun (o : MxOperand) (r c : Nat) =>
        let p := o.stored r c
        [(o.base, p.1 * o.rowBytes p.2)] ++ (if o.isBx then [(o.scale, o.scaleBytes r c)] else [])
      of d.a rows d.k ++ of d.b d.k cols ++ of d.c rows cols
    else x.ranges.map (fun e => (e.2.vbase, e.2.len))
  let t := parts.foldl (fun (a : Nat × Nat) p => let h := x.halfBytes p.1 p.2; (a.1 + h.1, a.2 + h.2)) (0, 0)
  if t.2 < t.1 then some 0 else if t.1 < t.2 then some 1 else none

/-- Busy machines of a cluster. -/
def State.clusterBusy (s : State) (k : Nat) : Nat :=
  (s.ple.vms.filter (fun m => m.busy && decide (m.members.headD 0 / 8 = k))).length

/-- R309: the machine chosen among candidates, in machine order. -/
def State.chooseVm (s : State) (g : Grid) (item : Nat) (cands : List VecMachine) : Option VecMachine :=
  let half := fun (h : Nat) => (cands.find? (fun m => decide (m.members.headD 0 / 32 = h))).orElse (fun _ => cands.head?)
  let spread := cands.foldl (fun (b : Option VecMachine) m =>
    match b with
    | none => some m
    | some x => if s.clusterBusy (m.members.headD 0 / 8) < s.clusterBusy (x.members.headD 0 / 8) then some m else b) none
  if g.hint = 1 then half 0
  else if g.hint = 2 then half 1
  else if g.hint = 3 ∨ s.img (·.policy) = 1 then spread
  else match s.nearHalf g item with | some h => half h | none => cands.head?

/-- R460: where the cells of a recheck's run may go: not on the suspect core's machine, or only there. -/
def State.recheckOk (s : State) (g : Grid) (m : VecMachine) : Bool :=
  let r := s.flt.recheck
  decide (g.desc ≠ 0) || (if r.phase = 1 then !m.members.contains r.core else m.members.contains r.core)

/-- What the placement engine finds for the next work item: a machine, nothing yet, or a fixed machine that is not fit. A
machine with a member under patrol test is not free (R309), and the work item waits. -/
inductive VmPick where
  | run (m : VecMachine)
  | later
  | unfit
  deriving DecidableEq, Repr

/-- R309, R318: the machine for a work item. -/
def State.pickVm (s : State) (g : Grid) (item : Nat) : VmPick :=
  match g.fixed[item]? with
  | some b =>
    match s.ple.vms.find? (fun m => decide (m.members.headD 64 = b.toNat)) with
    | none => .unfit
    | some m =>
      if !m.members.all (fun n => s.fit n || (s.patrol n).running) then .unfit
      else if s.vmFree m && s.recheckOk g m then .run m else .later
  | none =>
    match s.chooseVm g item (s.ple.vms.filter (fun m => s.vmFree m && s.eligible g.ctx g.kind g.gang m && s.recheckOk g m)) with
    | some m => .run m
    | none => .later

/-! ## The start of a cell -/

/-- Table 2: the registers of a program cell. -/
def cellRegs (g : Grid) (cell scratch : Nat) : List Word :=
  let w := fun (v : Nat) => BitVec.ofNat 64 v
  [0, w (leAt g.block 0x18 8), w (cell / g.gn), w (cell % g.gn), w g.gm, w g.gn, w scratch] ++ List.replicate 25 0

/-- Marks the machine of a core busy for a grid. -/
def State.takeVm (s : State) (m : VecMachine) (g : Grid) : State :=
  { s with ple := { s.ple with vms := s.ple.vms.map (fun (x : VecMachine) =>
      if x.members = m.members then { x with busy := true, ctx := g.ctx, desc := g.desc } else x) } }

/-- R77, R297: the machine is zeroed and its cores serve the context with the work. RUN of a parked partner reads as its
lead's (notes/assumptions/125.md). -/
def State.assign (s : State) (m : VecMachine) (g : Grid) (w : Work) : State :=
  let lead := m.members.headD 0
  let s1 := (s.zeroCores m.members).takeVm m g
  let s2 := m.members.foldl (fun t n => t.updCore n (fun c => { c with ctxValid := true, ctx := g.ctx, run := .running, desc := g.desc })) s1
  (s2.updCore lead (fun c => { c with work := w })).patrolRan m.members g.ctx

/-- Whether every C island of a machine runs; the placement engine wakes those that do not (R482). -/
def State.islandsUp (s : State) (m : VecMachine) : Bool :=
  m.members.all (fun n => decide ((s.island (cIsland n)).st = .running))

/-- Starts a work item of a grid on a machine. -/
def State.startCell (s : State) (g : Grid) (m : VecMachine) : State :=
  let item := g.next
  let lead := m.members.headD 0
  let w := if g.kind = .product then Work.product g.desc item else Work.cell g.desc item
  let s1 := s.assign m g w
  let s2 : State := { s1 with ple := { s1.ple with cells := s1.ple.cells + 1 } }
  let s3 := s2.updGrid g.desc (fun x => { x with next := item + 1, running := x.running ++ [(item, lead)] })
  match g.kind with
  | .program => s3.updCore lead (fun c =>
      { c with g := cellRegs g item (s.ctx g.ctx).scratch.2, pc := BitVec.ofNat 64 (leAt g.block 0x10 8) })
  | .product => s3.withCoreRanges lead (((MxD.parse g.mraw).extents none).map (·.1)) (fun t => t.acceptProduct lead)
  | .chain => s3.chainBegin lead

/-- R299: whether the next cell of a grid may start now, machines apart. -/
def State.cellDue (s : State) (g : Grid) : Bool :=
  s.working && !s.ple.cellClose && !g.stopping && decide (g.next < g.total)
    && (decide (g.vmMax = 0) || decide (g.running.length < g.vmMax))
    && (decide (g.kind ≠ .chain) || !(s.ctx g.ctx).ranges.any (fun e => e.2.draining || e.2.switching))

/-- R299, R309: the next cell or work item of a grid starts, in ascending number, when an eligible machine is free. A
placement boundary comes first (R310). -/
def execCellStart (id : Nat) (s : State) : Host.Outcome State Fault Refusal :=
  let s := s.boundary
  match s.grid? id with
  | none => .next s
  | some g =>
    if !s.cellDue g then .next s
    else
      match s.pickVm g g.next with
      | .later => .next s
      | .unfit => .next ((s.gridStop id stLimit).gridDone id)
      | .run m =>
        if s.islandsUp m then .next (s.startCell g m)
        else .next (m.members.foldl (fun t n => t.wakeIsland (cIsland n)) s)

/-! ## The combine of a split window (R305) -/

/-- R305: the engine chooses a free machine to combine a window whose partials are all performed. -/
def execSplitKCombine (id : Nat) (s : State) : Host.Outcome State Fault Refusal :=
  match s.grid? id with
  | none => .next s
  | some g =>
    match g.ready with
    | [] => .next s
    | w :: r =>
      if !s.working || g.stopping then .next s
      else
        match s.chooseVm g (w * g.ks) (s.ple.vms.filter (fun m => s.vmFree m && s.recheckOk g m)) with
        | none => .next s
        | some m =>
          if s.islandsUp m then
            .next ((s.assign m g (.combine id w)).updGrid id (fun x =>
              { x with ready := r, combining := x.combining ++ [(w, m.members.headD 0)] }))
          else .next (m.members.foldl (fun t n => t.wakeIsland (cIsland n)) s)

/-- R305: one element of a combined window: its accumulator bits, conditions, and the addresses read. -/
def State.combineEl (s : State) (n : Nat) (g : Grid) (d : MxD) (acc : NumFmt) (m k : Nat) : Nat × Cond × List Nat :=
  let base := leAt g.block 0x20 8
  let rd := fun (va : Nat) => s.heldPas n .read (vAddrs va acc.bytes)
  let parts := (List.range g.ks).map (fun i => rd (base + partialOff d acc.bytes i m k))
  let F := acc.fp
  let add := fun (a b : Nat) => F.sum .rne true [F.decode a, F.decode b]
  let t := treeRed add g.ks (parts.map (fun p => (some (leNat (s.rdAt p)), 0)))
  let v := t.1.getD 0
  if d.init = 1 then
    let cp := rd (d.c.addr m k)
    let r := add (leNat (s.rdAt cp)) v
    (r.1, t.2 ||| r.2, parts.flatten ++ cp)
  else (v, t.2, parts.flatten)

/-- R305: the elements of a combined window, row by row: accumulator bits, conditions, and the addresses read. -/
def State.combineEls (s : State) (n : Nat) (g : Grid) (w : Nat) : List (List (Nat × Cond × List Nat)) :=
  let d := MxD.parse g.mraw
  let x := g.window (w * g.ks)
  let acc := (comboOf d.a.fmt d.b.fmt d.inf).acc
  (addrs x.1.1 (x.1.2 - x.1.1)).map (fun m =>
    (addrs x.2.1.1 (x.2.1.2 - x.2.1.1)).map (fun k => s.combineEl n g d acc m k))

/-- R305: what a combine writes, converted and written as R301 states. -/
def State.combineOuts (s : State) (n : Nat) (g : Grid) (w : Nat) : List MxOut :=
  let d := MxD.parse g.mraw
  let x := g.window (w * g.ks)
  let acc := (comboOf d.a.fmt d.b.fmt d.inf).acc
  let els := s.combineEls n g w
  let at_ := fun (m k : Nat) => ((els.getD (m - x.1.1) []).getD (k - x.2.1.1) (0, 0, [])).1
  let v : MxView := ⟨d.a, false, 0, d.k, d.b, d.n, d.k, acc, 1, 1, x.1.1, x.1.2, x.2.1.1, x.2.1.2, 0, 0, 0, 0, 0, x.1.1, x.1.2⟩
  (addrs x.1.1 (x.1.2 - x.1.1)).map (fun m => s.mxOutC n d v at_ m (addrs x.2.1.1 (x.2.1.2 - x.2.1.1)))

/-- R305: the combine of a window ends: every element is combined, converted and written; a poisoned partial is
consumed. -/
def State.combineDone (s : State) (n : Nat) (g : Grid) (w : Nat) : State :=
  let els := s.combineEls n g w
  let src := els.flatMap (fun r => r.flatMap (·.2.2))
  match s.badOf src with
  | some k => s.takeExc n 6 0 0 3 (some k)
  | none =>
    let outs := s.combineOuts n g w
    let fl := els.foldl (fun c r => r.foldl (fun c e => c ||| e.2.1) c) (0 : Cond)
    let fl2 := outs.foldl (fun c o => c ||| o.flags) fl
    let un := (outs.map (·.under)).sum
    s.whenRecalled (s.coreWaits (outs.flatMap (fun o => o.cells.map (·.1)))) (fun s =>
      let s1 := outs.foldl (fun t o => (t.coreWrite n false (o.cells.map (·.1))).store o.cells) (s.coreRead n false src)
      (s1.updMx n (fun m => { m with flags := m.flags ||| fl2, underflow := m.underflow + BitVec.ofNat 64 un })).endShare n)

/-- R305: the combine that a core's machine runs has ended. -/
def execCombineDone (n : Nat) (s : State) : Host.Outcome State Fault Refusal :=
  match (s.core n).work with
  | .combine id w =>
    match s.grid? id with
    | some g => if (s.core n).ending || (s.core n).deliver.isSome then .next s else .next (s.combineDone n g w)
    | none => .next s
  | _ => .next s

/-! ## Phases and moves -/

/-- An entry of a phase plan (Table 3): range, class, home, pin. -/
structure PlanEnt where
  range : Nat
  cls : Nat
  home : Nat
  pin : Nat
  deriving DecidableEq, Repr

/-- The entries of a plan of `n` entries. -/
def planEnts (r : List Byte) (n : Nat) : List PlanEnt :=
  (List.range n).map (fun e => ⟨leAt r (8 + 8 * e) 1, leAt r (9 + 8 * e) 1, leAt r (10 + 8 * e) 1, leAt r (11 + 8 * e) 1⟩)

/-- R312: whether a plan holds only values of Table 3. -/
def planOk (r : List Byte) (n : Nat) : Bool :=
  let es := planEnts r n
  decide (leAt r 1 7 = 0) && (List.range n).all (fun e => decide (leAt r (12 + 8 * e) 4 = 0))
    && decide (((es.map (·.range)).eraseDups).length = n)
    && es.all (fun e => decide (e.range < 64) && decide (e.cls < 4) && decide (e.pin < 3)
      && (if e.cls = 1 then decide (e.home < 2) || decide (e.home = 0xFF)
          else if e.cls = 2 then decide (e.home < 8) || decide (e.home = 0xFF) else decide (e.home = 0xFF)))

/-- R313: whether an entry needs a move of the range. -/
def PlanEnt.moves (e : PlanEnt) (r : Range) : Bool :=
  decide (e.cls ≠ r.cls) || ((decide (e.cls = 1) || decide (e.cls = 2)) && decide (e.home ≠ 0xFF) && decide (e.home ≠ r.home))

/-- R313, R316: pins or unpins a whole range. -/
def State.pinRange (s : State) (c i pin : Nat) : State :=
  if pin = 2 then s
  else
    let s1 := s.unpinBy (fun p => decide (p.ctx = c) && decide (p.desc = none) && decide (p.range = i))
    if pin = 0 then s1
    else
      let r := (s1.ctx c).range i
      let ls := r.blocks.flatMap (fun b => addrs (b * 256) 256)
      if s1.pinFits c ls then s1.pinLines ⟨c, none, i, ls⟩ else s1

/-- Finds new blocks for the entries that move, one after another; none when one cannot be met. -/
def State.planAlloc (s : State) (c : Nat) : List PlanEnt → Option State
  | [] => some s
  | e :: r =>
    let x := (s.ctx c).range e.range
    if !e.moves x then s.planAlloc c r
    else
      let home := s.homeFor e.cls e.home
      match s.alloc e.cls home (x.len / 65536) with
      | none => none
      | some (m, segs) =>
        let fill := s.fillFor m segs (x.len / 65536)
        let s1 : State := { s with
          dram := { s.dram with filling := s.dram.filling ++ fill }
          ple := { s.ple with moves := s.ple.moves ++ [⟨c, e.range, e.cls, home, e.pin, false, segs⟩] } }
        s1.planAlloc c r

/-- R314: what refuses a plan entry with PERM_FAULT: a range that is absent, has a device physical base or is mapped to the
host. The engine moves ranges with a placement handle alone. -/
def State.planEntBad (s : State) (c : Nat) (e : PlanEnt) : Bool :=
  let r := (s.ctx c).range e.range
  !r.valid || decide (r.kind ≠ .placed) || s.mapped r

/-- R313, R314: PHASE reads its plan, checks it whole, and completes; moves it asks for come later. -/
def State.phaseStart (s : State) (d : Desc) : State :=
  let va := d.fld 0x10 8
  if va % 8 ≠ 0 then s.endDesc d.id stPerm
  else
    match s.descAccess d .other .read va 8 with
    | .stop t => t
    | .ok p0 => s.withRanges unitRtb d.ctx (vAddrs va 8) (fun s =>
      let n := leNat ((s.rdAt p0).take 1)
      if p0.any s.bad then s.consume d.ctx 0xD 0xFF 0 d.queue (s.badSector p0)
      else if n = 0 ∨ 64 < n then s.endDesc d.id stPerm
      else
        match s.descAccess d .other .read va (8 + 8 * n) with
        | .stop t => t
        | .ok pas => (s.unitRead .block p0).withRanges unitRtb d.ctx (vAddrs va (8 + 8 * n)) (fun s =>
          let s := s.unitRead .block pas
          if pas.any s.bad then s.consume d.ctx 0xD 0xFF 0 d.queue (s.badSector pas)
          else
            let raw := s.rdAt pas
            let es := planEnts raw n
            if !planOk raw n || es.any (s.planEntBad d.ctx) then s.endDesc d.id stPerm
            else
              -- A move that a new plan supersedes before it starts is dropped.
              let s0 : State := { s with ple := { s.ple with moves := s.ple.moves.filter (fun m =>
                m.started || decide (m.ctx ≠ d.ctx) || !es.any (fun e => decide (e.range = m.range))) } }
              match s0.planAlloc d.ctx es with
              | none => s.endDesc d.id stLimit
              | some t =>
                let stay := es.filter (fun e => !e.moves ((s.ctx d.ctx).range e.range))
                let u := stay.foldl (fun t e => t.pinRange d.ctx e.range e.pin) t
                u.endDescWith d.id stOk (BitVec.ofNat 64 (n - stay.length))))

/-- R401: a PHASE descriptor starts. -/
def execPhase (id : Nat) (s : State) : Host.Outcome State Fault Refusal := .next (s.starting id tyPhase State.phaseStart)

/-- Whether a descriptor in flight names a range. A grid, a CHAIN and a collective are taken to name every range of their
context, but a started product names its extents' ranges (notes/assumptions/32.md). -/
def State.descNames (s : State) (d : Desc) (c i : Nat) : Bool :=
  let x := s.ctx c
  let hit := fun (va len : Nat) => x.touches [i] va len
  decide (d.ctx = c) && decide (d.st ≠ .ended)
    && (match s.grid? d.id with
      | some g =>
        if g.kind = .product then
          ((MxD.parse g.mraw).extents none).any (fun e => hit e.1 e.2.1)
            || hit (leAt g.block 0x20 8) (leAt g.block 0x28 8)
        else true
      | none =>
        if d.st = .reading then false
        else if d.type = tyCopy then hit (d.fld 0x10 8) (d.fld 0x20 8) || hit (d.fld 0x18 8) (d.fld 0x20 8)
        else if d.type = tyWait ∨ d.type = tySignal then hit (d.fld 0x10 8) 8
        else if d.type = tyPhase then hit (d.fld 0x10 8) 520
        else if d.type = tyCheckpoint then bit (d.fld 0x18 8) i
        else decide (d.type ≠ tyFence) && decide (d.type ≠ tyTimer))

/-- R351: whether a placement-handle range must leave a retiring group. -/
def State.mustEvacuate (s : State) (c i : Nat) : Bool :=
  let r := (s.ctx c).range i
  s.excl.retiring && r.valid && decide (r.kind = .placed)
    && r.segs.any (fun b => decide (32640 ≤ b / 2 ^ 24)) && !s.mapped r

/-- R313, R351: the move of a range that waits, or one out of a retiring group. -/
def State.moveOf (s : State) (c i : Nat) : Option Move :=
  match s.ple.moves.find? (fun m => decide (m.ctx = c) && decide (m.range = i)) with
  | some m => if m.started then none else some m
  | none =>
    let r := (s.ctx c).range i
    if s.mustEvacuate c i then some ⟨c, i, r.cls, r.home, 2, false, []⟩ else none

/-- A move that waits and its new blocks: those it has, or newly chosen ones, which are then filled first. -/
def State.moveFor (s : State) (c i : Nat) : Option (State × Move) :=
  match s.moveOf c i with
  | none => none
  | some m =>
    let n := ((s.ctx c).range i).len / 65536
    if m.newSegs ≠ [] then some (s, m)
    else
      match s.alloc m.cls m.home n with
      | none => none
      | some (d, segs) =>
        let x : Move := { m with newSegs := segs }
        some ({ s with
          dram := { s.dram with filling := s.dram.filling ++ s.fillFor d segs n }
          ple := { s.ple with moves := s.ple.moves.filter (fun y => decide (y ≠ m)) ++ [x] } }, x)

/-- R313: a move starts when no descriptor in flight names the range, no command drains it and its new blocks are filled:
the new blocks' sets take their class (R325), and the range is being switched from now on. At most eight moves run, and
none starts in stage 2 of R457. -/
def execMoveStart (c i : Nat) (s : State) : Host.Outcome State Fault Refusal :=
  if s.ple.moveClose ∨ 2 ≤ s.flt.svpStage ∨ 8 ≤ (s.ple.moves.filter (·.started)).length ∨ s.working = false
      ∨ ((s.ctx c).range i).draining then .next s
  else
    match s.moveFor c i with
    | none => .next s
    | some (t, m) =>
      if !t.dram.filling.isEmpty || t.qmg.descs.any (fun d => t.descNames d c i) then .next t
      else
        let u := t.updRange c i (fun r => { r with switching := true })
        .next { u with
          dram := u.dram.setClasses m.newSegs m.cls
          ple := { u.ple with moves := u.ple.moves.map (fun (x : Move) => if x = m then { x with started := true } else x) }
          xlt := u.xlt.rtbDrop c [i] }

/-- R316, R346: whether a channel that holds some of a set of addresses trains, or its stack is stopped. -/
def State.trainsAt (s : State) (pas : List Nat) : Bool :=
  pas.any (fun a => decide (a % 32 = 0) && !s.chanRuns (s.chanOf a).ch)

/-- R313, R315, R316: a move has copied every block, marks with them, once no use of the range is in flight and its channels
run: the range lies in its new blocks, the old ones are scrub-pending, and PIN applies. PIN 2 leaves a pinned range
pinned, in its new lines. -/
def execMoveCopyDone (c i : Nat) (s : State) : Host.Outcome State Fault Refusal :=
  match s.ple.moves.find? (fun m => decide (m.ctx = c) && decide (m.range = i) && m.started) with
  | none => .next s
  | some m =>
    let r := (s.ctx c).range i
    let new := { r with segs := m.newSegs, cls := m.cls, home := m.home, switching := false }
    let from_ := r.blocks.flatMap (fun b => addrs (b * 65536) 65536)
    let dest := new.blocks.flatMap (fun b => addrs (b * 65536) 65536)
    if s.inUse c [i] || s.trainsAt from_ || s.trainsAt dest then .next s
    else
      let pinned := s.ple.pins.any (fun p => decide (p.ctx = c) && decide (p.desc = none) && decide (p.range = i))
      let s1 := (s.unitMove .bulk (from_.zip dest)).dirtyBlocks r.blocks
      let s2 := s1.updRange c i (fun _ => new)
      let s3 : State := { s2 with
        xlt := s2.xlt.rtbDrop c [i]
        ple := { s2.ple with
          moves := s2.ple.moves.filter (fun x => decide (x ≠ m))
          moveBytes := s2.ple.moveBytes + BitVec.ofNat 64 r.len } }
      .next (s3.pinRange c i (if m.pin = 2 ∧ pinned = true then 1 else m.pin))

/-! ## Registers -/

/-- R320: writes of the PLE registers. -/
def State.pleWrite (s : State) (off v m : Nat) : State :=
  if off ≠ 0 then s
  else
    let p := s.ple
    let p1 := if bit m 0 then { p with cellClose := bit v 0 } else p
    let p2 := if bit m 1 then { p1 with moveClose := bit v 1 } else p1
    let p3 := if bit (v &&& m) 2 then { p2 with moveBytes := 0, cells := 0, swaps := 0 } else p2
    { s with ple := p3 }

end Sys2Proof.Machine
end

