-- ==== Sys2Proof/Machine/Depart.lean ====
section
/-!
DEFINITION. Leaving Frost and waking (R480 to R482), leaving SERVICE (R51), fatal errors (R448) and the zeroing of all
SRAM (R81).
-/
namespace Sys2Proof.Machine

/-! ## Waking -/

/-- R336: the slices write back every dirty sector and invalidate every line, and the directory keeps no core's copy. DRAM
holds one value for each byte, so only the lines go. What the host holds it goes on holding (R386). -/
def State.emptySlices (s : State) : State :=
  { s with dram := { s.dram with
    nsc := []
    dir := Tab.mapAll DirEntry.none s.dram.dir (fun _ d => { DirEntry.none with host := d.host }) } }

/-- The caches of the cores are written back and empty (Table 5 of 17). -/
def State.emptyCores (s : State) : State := (List.range 64).foldl (fun t n => t.emptyCore n true) s

/-- R480: Frost entry completes: the slices are empty, the C and F islands are off, and FROST reads 1. -/
def State.enterFrost (s : State) : State :=
  let s1 := s.emptyCores.emptySlices.setFrost true
  { s1 with pcm := { s1.pcm with
    frostEntry := false
    islands := (List.range 18).map (fun i =>
      let x := s1.island i
      if i < 10 then { x with st := .off, waking := false } else x) } }

/-- An island that runs at its operating point. -/
def Island.awake (now : Nat) (x : Island) : Island := { x with st := .running, waking := false, since := now }

/-- R481: cores after Frost: the state of R77 reads zero. -/
def State.zeroCluster (s : State) : State :=
  (List.range 64).foldl (fun t n => (t.zeroSpad n).updCore n (fun c =>
    { c.zeroed with ctxValid := c.ctxValid, ctx := c.ctx, work := c.work, desc := c.desc })) s

/-- R481, R482: Frost is over: the islands run, and the C islands hold zeroed state. -/
def State.thaw (s : State) : State :=
  let s1 := if s.dev.frost then s.zeroCluster else s
  { s1 with pcm := { s1.pcm with
    frostEntry := false
    frostWaking := false
    islands := s1.pcm.islands.map (Island.awake s1.now) } }

/-- R480, R481, R482: the device is awake from Frost, in SERVICE: held host accesses and the retrains that waited go on. An
entry in progress completes first. -/
def State.leaveFrost (s : State) : State :=
  if !s.dev.frost && !s.pcm.frostEntry then s
  else ((if s.pcm.frostEntry then s.enterFrost else s).thaw.setFrost false).retrainAll.serveHost

/-! ## Leaving SERVICE -/

/-- Step 1 of R51: every host-cached line of device memory is back-invalidated, and no HDM decoder is committed. -/
def State.dropHost (s : State) : State :=
  { s with
    dram := { s.dram with dir := Tab.mapAll DirEntry.none s.dram.dir (fun _ d => { d with host := false }) }
    host := { s.host with
      hdm := s.host.hdm.map (fun (h : Hdm) => { h with committed := false })
      bisnp := []
      heldReqs := [] } }

/-- R386: what waited for the host to give up a line goes on: matrix work, cells that end, grids and held host accesses. Any
other work that waits goes on at its next command. -/
def State.recalled (s : State) : State :=
  let leads := s.ple.vms.filterMap (fun m => m.members.head?)
  (leads.foldl State.tryEnd (leads.foldl State.mxGo s)).gridsDone.serveHost

/-- Ends an XLT, QMG or TWC command whose block no longer responds. -/
def CmdSt.stop (c : CmdSt) : CmdSt := { c with busy := false }

/-- A core that runs nothing and belongs to no machine. -/
def Core.parked (c : Core) : Core :=
  { c with
    run := .idle
    ctxValid := false
    gangRole := 0
    members := []
    spare := false
    steward := false
    sb := []
    deliver := none
    ending := false
    work := .none
    mx := { c.mx with jobs := [], drizzling := false, cold := true }
    sce := c.sce.map Sce.aborted }

/-- R471: a patrol test that runs ends abandoned; the core stays due. -/
def State.abandonPatrol (s : State) (n : Nat) : State :=
  if !(s.patrol n).running then s
  else
    let s1 := (s.setFit n (!s.pcm.failed.getLsbD n)).raiseGen n
    (s1.updPatrol n (fun p => { p with running := false, last := 3 })).post
      ((LogRec.mk0 0xB sevRecoverable 3 1).withIndex n)

/-- R471: a recheck and the patrol tests end. -/
def State.endFleet (s : State) : State :=
  (List.range 64).foldl State.abandonPatrol (s.endRecheck 4 stHeld)

/-- Step 3 of R51: every queue, context, range, window and countdown timer is destroyed, and with them what works for
them; the fault and stale rings are empty (R376). Blocks become scrub-pending (R81); those of a mirror reserve that may be
kept stay as they are (R55). -/
def State.destroyAll (s : State) : State :=
  let s1 := s.wipeWins
  { s1 with
    ctxs := []
    cores := s1.cores.map Core.parked
    ple := { s1.ple with vms := [], grids := [], moves := [], pins := [] }
    dram := { s1.dram with
      clean := s1.dram.clean.filter (fun b => decide (s1.twc.reserve ≤ b) && decide (b < s1.twc.reserve + s1.twc.reserveBlocks))
      filling := [] }
    xlt := { s1.xlt with
      cmd := s1.xlt.cmd.stop
      fq := []
      sq := []
      fqHead := 0
      fqTail := 0
      sqHead := 0
      sqTail := 0
      sqLost := false
      unresolved := []
      unrecorded := []
      rtb := List.replicate 9 []
      drain := none
      fillWait := []
      creating := none, tail := none }
    qmg := { s1.qmg with
      cmd := s1.qmg.cmd.stop
      queues := []
      cached := []
      reading := []
      lastServed := 0
      descs := []
      ended := []
      store := 0
      storeBlocks := 0 }
    pcm := { s1.pcm with timers := List.replicate 16 ⟨none, none, false⟩ } }

/-- R423, R57: what COMMIT and RELEASE clear in the collective engine, and what ends with the ports' traffic. -/
def Cle.cleared (c : Cle) : Cle :=
  { c with
    nodeValid := false
    node := 0
    lost := []
    groups := []
    route := []
    colls := []
    cancels := []
    pool := []
    seen := []
    linkWakes := []
    stage := 0 }

/-- R436, R471: the twin controller with no image in force: an IMPORT or SEND stops with code STOPPED. -/
def Twc.stopped (t : Twc) : Twc :=
  let op := match t.run with | some r => if r.send then 2 else 1 | none => 0
  { t with
    cmd := if t.run.isSome then t.cmd.finish op 0xA else t.cmd
    st := .unpaired
    peer := none
    ckpts := []
    run := none }

/-- Step 4 of R51: every port is brought down to training and sideband, and TWN_ALIVE is low. -/
def State.dropLinks (s : State) : State :=
  { s with
    ports := s.ports.map Port.leaveService
    cle := s.cle.cleared
    twc := s.twc.stopped
    dev := { s.dev with twnAliveOut := false, twnHbOut := false } }

/-- No image is in force: its limits, spares and power settings no longer apply (R60, R484), and no island is in Lull or
Calm, which are states within SERVICE. -/
def State.endImage (s : State) : State :=
  { s with
    sim := { s.sim with image := none }
    pcm := { s.pcm with
      capUnmet := false
      thermLimit := false
      belowSince := none
      islands := s.pcm.islands.map (Island.awake s.now) } }

/-- Steps 1, 3 and 4 of R51 and the end of the image. -/
def State.goDark (s : State) : State := s.endFleet.dropHost.destroyAll.dropLinks.endImage

/-- R51: the device leaves SERVICE. -/
def State.depart (s : State) : State := ((s.leaveFrost.dropHost.emptyCores.emptySlices).goDark).setLife .held

/-- R50: whether work is in flight: a descriptor fetched without its record written, or a placement move. -/
def State.busyWork (s : State) : Bool := !s.qmg.descs.isEmpty || s.ple.moves.any (·.started)

/-! ## Ending descriptors with DEVICE_HELD (R448, R488) -/

/-- Writes every record that has room, queue by queue; the function may not write host memory without Bus Master Enable
(R489). -/
def State.flushRecords (s : State) : State :=
  s.qmg.ended.foldl (fun t id =>
    match t.desc? id with
    | some d => if (t.queue d.queue).cqRoom && t.host.busMaster && !t.host.d3hot then t.writeRecord d else t
    | none => t) s

/-- R30: the stores of every core are performed; a line that the host holds is back-invalidated first, as step 1 of R51
does. -/
def State.flushStores (s : State) : State :=
  let s1 := (List.range 64).foldl State.drainAll s
  if s1.cores.all (fun c => c.sb.isEmpty) then s1 else (List.range 64).foldl State.drainAll s1.dropHost

/-- DETAIL of a descriptor that ends where it stands (Table 6 of 14): the cells that its grid has started, the bytes that a
COPY has performed, and what a collective, a CHECKPOINT or a WAIT has to report. -/
def State.standing (s : State) (d : Desc) : Word :=
  match s.grid? d.id with
  | some g => BitVec.ofNat 64 g.next
  | none =>
    match s.collOf d.id with
    | some c => BitVec.ofNat 64 c.detail
    | none =>
      if d.type = tyCopy then BitVec.ofNat 64 d.pos
      else if d.type = tyCheckpoint then BitVec.ofNat 64 (s.ckptBytes d.id)
      else d.detail

/-- R448, R488: one descriptor completes with DEVICE_HELD. One whose read is issued counts as fetched (R407); what the host
would have returned is not known, so its bytes are free. -/
def State.heldDesc (s : State) (d : Desc) : State :=
  let read := decide (d.st = .reading)
  let raw := if read then (List.range 8).flatMap (fun i => leBytes 8 (Config.freeWord (s.free + i)).toNat) else d.raw
  let s1 := { s.updDesc d.id (fun x => { x with raw := raw }) with free := if read then s.free + 8 else s.free }
  (s1.markDesc d.id stHeld).endDescWith d.id stHeld (if read then 0 else s.standing d)

/-- R448, R488: every descriptor in flight completes with DEVICE_HELD, after its stores (R30), and its record is written. -/
def State.heldAll (s : State) : State :=
  let s1 := s.flushStores
  (s1.qmg.descs.foldl State.heldDesc s1).flushRecords

/-- The state without an image: HELD, or UNCLAIMED without an owner key. -/
def State.restLife (s : State) : Life := if s.tkm.ownerKey.isSome then .held else .unclaimed

/-- The FATAL record. -/
def fatalRecord (cause index : Nat) : LogRec :=
  (LogRec.mk0 0x10 sevFatal cause (if cause = 1 then 7 else if cause = 4 then 0xF else 0x10)).withIndex index

/-- R448: a fatal error stops everything, completes every descriptor in flight with DEVICE_HELD, and ends the image. A
pack run and a full scrub stop with it; a pending record governs the next BOOT (R80). Frost, and an entry into it, end
with it, and the device does not pass through SERVICE (R15). -/
def State.fatal (s : State) (cause index : Nat) : State :=
  let s1 := (s.heldAll.goDark).thaw
  let s2 : State := { s1 with
    svm := { s1.svm with packRun := none, packBegun := false }
    dev := { s1.dev with testFactory := false }
    tkm := { s1.tkm with scrubActive := false, checking := none, cmd := s1.tkm.cmd.stop } }
  (s2.toLife s2.restLife).post (fatalRecord cause index)

/-- A fatal error of a kind of Table 1 of 16: 1 tags or directory, 2 fabric, 3 bridge, 4 SVP, with the stack, port or
island that INDEX names. In BOOT and in the boot ROM's RECOVERY there is no image to end and no firmware to go on with:
only the record is written. -/
def execFatalError (cause index : Nat) (s : State) : Host.Outcome State Fault Refusal :=
  .next (match s.dev.life with
    | .off => s
    | .boot => s.post (fatalRecord cause index)
    | .recovery => if s.dev.romRecovery then s.post (fatalRecord cause index) else s.fatal cause index
    | _ => s.fatal cause index)

end Sys2Proof.Machine
end

