-- ==== Sys2Proof/Machine/Boot.lean ====
section
/-!
DEFINITION. The resets of R487 and what they keep (R493), the boot chain (R88 to R99), the reset inputs (R503, R507) and
the resets of a function, of every context and of one machine (R489 to R492).
-/
namespace Sys2Proof.Machine

/-! ## Identity and measurements -/

/-- R96: extends a slot by an item. -/
def extend (slot : Digest) (item : List Byte) : Digest :=
  Config.sha3 (digestBytes slot ++ digestBytes (Config.sha3 item))

/-- GID.PARTID of a B0 part (Table 7 of 01). -/
def partId : Nat := 0x7A210100

/-- The fuses as slot 1 measures them, with GID.PARTID (Table 4 of 04); one byte for each of the small fuses
(notes/assumptions/33.md). -/
def Svm.fuseBytes (v : Svm) : List Byte :=
  (List.range 4).flatMap (fun k => digestBytes (Config.rootHash k)) ++ leBytes 1 v.rootRevoked.toNat ++ leBytes 1 v.fwFloor
    ++ leBytes 1 (bnat Config.debugDisable) ++ leBytes 8 partId

/-! ## Firmware bundles (R90, Table 2 of 04) -/

def bundleSvn (h : List Byte) : Nat := leAt h 0x14 2
def bundleVersion (h : List Byte) : Nat := leAt h 0x10 4
def bundleRoot (h : List Byte) : Nat := leAt h 0x0C 1
def bundleBody (h : List Byte) : Nat := leAt h 0x18 4

/-- The header's layout; BAD_HEADER otherwise. -/
def bundleHeaderOk (h : List Byte) : Bool :=
  let body := bundleBody h
  decide (leAt h 0 4 = 0x42574651) && decide (leAt h 4 2 = 1) && decide (leAt h 6 2 = 64) && decide (bundleRoot h < 4)
    && decide (leAt h 0x0D 1 < 2) && decide (leAt h 0x0E 1 < 16) && decide (leAt h 0x0F 1 = 0)
    && decide (1 ≤ bundleSvn h) && decide (bundleSvn h ≤ 127) && decide (leAt h 0x16 2 = 0)
    && decide (body % 64 = 0) && decide (body + 4691 ≤ 4194304) && decide (leAt h 0x1C 4 % 64 = 0)
    && decide (0xA80 ≤ leAt h 0x1C 4) && decide (leAt h 0x1C 4 + leAt h 0x20 4 ≤ body) && decide (leAt h 0x24 28 = 0)

/-- TARGET_PART and TARGET_STEP of this part (R34, R90, R467). -/
def partOk (part step : Nat) : Bool := decide (part = 0x7A21) && (decide (step = 0x0100) || decide (step = 0xFFFF))

/-- R89: whether a key is admitted under a root. -/
def Svm.admits (v : Svm) (root : Nat) (key : List Byte) : Bool :=
  !v.rootRevoked.getLsbD root && decide (Config.sha3 key = Config.rootHash root)

/-- A firmware bundle's key. -/
def bundleKey (m : Mem) : List Byte := m.readBytes 0x40 2592

/-- R109, Table 7 of 04: the first check that a bundle of `fill` bytes fails, 0 when it passes all. -/
def Svm.bundleCode (v : Svm) (m : Mem) (fill : Nat) : Nat :=
  let h := m.readBytes 0 64
  let body := bundleBody h
  let dg := m.readBytes body 64
  firstCode [
    (4, !bundleHeaderOk h || decide (fill < body + 4691)),
    (5, !partOk (leAt h 8 2) (leAt h 0xA 2)),
    (6, !v.admits (bundleRoot h) (bundleKey m)),
    (7, decide (digestBytes (Config.sha3 (m.readBytes 0 body)) ≠ dg)),
    (8, !Config.mldsaVerify (bundleKey m) dg (m.readBytes (body + 64) 4627)),
    (9, decide (bundleSvn h < v.fwFloor))]

def Svm.bankMem (v : Svm) (b : Nat) : Mem := (v.banks.getD b ⟨false, []⟩).bytes
def Svm.bankValid (v : Svm) (b : Nat) : Bool := (v.banks.getD b ⟨false, []⟩).valid
def Svm.setValid (v : Svm) (b : Nat) (x : Bool) : Svm :=
  { v with banks := modAt v.banks b (fun (k : Bank) => { k with valid := x }) }

/-- A bank's header. -/
def Svm.bankHeader (v : Svm) (b : Nat) : List Byte := (v.bankMem b).readBytes 0 64

/-- R91: the bank the boot ROM prefers among those held valid: higher SVN, then higher VERSION, then bank A. -/
def Svm.preferred (v : Svm) : Option Nat :=
  if v.bankValid 0 && v.bankValid 1 then
    let a := v.bankHeader 0
    let b := v.bankHeader 1
    if bundleSvn a < bundleSvn b ∨ (bundleSvn a = bundleSvn b ∧ bundleVersion a < bundleVersion b) then some 1 else some 0
  else if v.bankValid 0 then some 0
  else if v.bankValid 1 then some 1
  else none

/-- R91: the bank that passes verification, whether the ROM fell back to it, and the banks marked invalid on the way. -/
def Svm.selectBank (v : Svm) : Svm × Option (Nat × Bool) :=
  match v.preferred with
  | none => (v, none)
  | some b =>
    if v.bundleCode (v.bankMem b) 4194304 = 0 then (v, some (b, false))
    else
      let v1 := v.setValid b false
      let o := 1 - b
      if !v1.bankValid o then (v1, none)
      else if v1.bundleCode (v1.bankMem o) 4194304 = 0 then (v1, some (o, true))
      else (v1.setValid o false, none)

/-- Steps 3 to 5 and 7 of Table 3 of 04: slots, the bank, the alias key, the firmware and the core monitor. With no bank
that passes, the ROM alone runs (R92), and the slots of the bundle's items stay zero (notes/assumptions/124.md). -/
def Svm.boot (v : Svm) : Svm :=
  let r := v.selectBank
  let v1 := r.1
  let s0 := extend 0 Config.bootRom
  let s1 := extend 0 v1.fuseBytes
  match r.2 with
  | none => { v1 with booted := true, slots := [s0, s1] ++ List.replicate 30 0 }
  | some (b, fb) =>
    let m := v1.bankMem b
    let h := m.readBytes 0 64
    let mon := m.readBytes (leAt h 0x1C 4) (leAt h 0x20 4)
    let s2 := extend 0 (m.readBytes (bundleBody h) 64)
    let s3 := extend 0 mon
    let s4 := extend 0 [BitVec.ofNat 8 (b + 2 * bnat fb)]
    { v1 with
      booted := true
      issue := v1.issue + 1
      slots := [s0, s1, s2, s3, s4] ++ List.replicate 27 0
      fwVersion := bundleVersion h
      svn := bundleSvn h
      fallback := fb
      bank := b
      aliasSeed := some (bootKeySeed s2 s3)
      bootCert := certFor s2 s3 (bundleSvn h) (v1.issue + 1)
      monitor := mon }

/-- R95: at step 8 the firmware raises FW_FLOOR, blows revocation fuses, and marks invalid the banks they exclude. -/
def Svm.raiseFloor (v : Svm) : Svm :=
  let h := v.bankHeader v.bank
  let floor := if bit (leAt h 0x0D 1) 0 then max v.fwFloor v.svn else v.fwFloor
  let own : BitVec 4 := BitVec.ofNat 4 (2 ^ bundleRoot h)
  let rev := v.rootRevoked ||| (BitVec.ofNat 4 (leAt h 0x0E 1) &&& ~~~own)
  let v1 := { v with fwFloor := floor, rootRevoked := rev }
  [0, 1].foldl (fun (x : Svm) b =>
    let k := x.bankHeader b
    if x.bankValid b && (decide (bundleSvn k < floor) || rev.getLsbD (bundleRoot k)) then x.setValid b false else x) v1

/-! ## What a reset keeps (R493) -/

/-- The non-volatile store and the fuses (R88, R493). -/
def Sim.kept (x : Sim) : Sim :=
  { Sim.reset with
    ownerFloor := x.ownerFloor
    ownerDigest := x.ownerDigest
    vendorFloor := x.vendorFloor
    vendorDigest := x.vendorDigest }
def Tkm.kept (x : Tkm) : Tkm := { Tkm.reset with ownerKey := x.ownerKey, ownerCtr := x.ownerCtr, pending := x.pending, kemDraws := x.kemDraws }
def Svm.kept (x : Svm) : Svm := { Svm.reset with fwFloor := x.fwFloor, rootRevoked := x.rootRevoked, banks := x.banks, issue := x.issue }
def Excl.kept (x : Excl) : Excl := ⟨false, none, false, 0, x.inForce⟩

/-- The excluded channel of the repair map, as every reset leaves it. -/
def exclChannels (x : Excl) (l : List Mcu) : List Mcu :=
  match x.inForce with
  | none => l
  | some f => modAt l (f / 32) (fun m => { m with ch := modAt m.ch (f % 32) (fun c => { c with st := .excluded, failed := true }) })

/-- Counters of a stack that survive warm reset. -/
def Mcu.kept (m : Mcu) : Mcu :=
  { Mcu.reset with
    ceCount := m.ceCount
    ueCount := m.ueCount
    ch := m.ch.map (fun (c : Chan) => { Chan.reset with retrains := c.retrains }) }

/-- The fault log and its pointers (R454), with the record of what a session wrote. -/
def Flt.kept (f : Flt) : Flt :=
  { Flt.reset with log := f.log, tail := f.tail, head := f.head, lost := f.lost, nextRid := f.nextRid, sessionSlots := f.sessionSlots }

/-- R55, R493: the contents of the mirror reserve, until the next commit decides whether they stay. -/
def Twc.kept_ (t : Twc) : Twc :=
  { Twc.reset with cat := t.cat, reserve := t.reserve, reserveBlocks := t.reserveBlocks, reserveOf := t.reserveOf }

/-- R487, R493: power-on reset: everything but the fuses and the non-volatile store. Host memory is not the device's. -/
def State.powerOn (s : State) : State :=
  let x := s.excl.kept
  { State.reset with
    pending := s.pending
    now := s.now
    free := s.free
    dev := { Dev.reset with porN := s.dev.porN, wrstN := s.dev.wrstN, perstN := s.dev.perstN, twnAliveIn := s.dev.twnAliveIn
                            twnHbIn := s.dev.twnHbIn, pmbAlertN := s.dev.pmbAlertN }
    sim := s.sim.kept
    tkm := s.tkm.kept
    svm := s.svm.kept
    excl := x
    mcu := exclChannels x State.reset.mcu
    host := { HostIf.reset with mem := s.host.mem }
    spdm := { Spdm.reset with draws := s.spdm.draws }
    pcm := { Pcm.reset with repairMap := s.pcm.repairMap } }

/-- R487, R493: warm reset: power-on reset's scope, less the always-on island's ROS state, DRAM contents, window
generations, failed cores and the mirror reserve. Every block of DRAM is scrub-pending, but for the reserve's (R81). -/
def State.warm (s : State) : State :=
  let p := s.powerOn
  let keep := fun (b : Nat) => decide (s.twc.reserve ≤ b) && decide (b < s.twc.reserve + s.twc.reserveBlocks)
  { p with
    mcu := exclChannels p.excl (s.mcu.map Mcu.kept)
    flt := s.flt.kept
    xlt := { p.xlt with win := s.wipeWins.xlt.win }
    twc := s.twc.kept_
    tap := s.tap
    dram := { Dram.reset with
      bytes := s.dram.bytes.filter (fun e => decide (e.1 < dramTop))
      poison := s.dram.poison.filter (fun k => decide (32 * k < dramTop))
      clean := s.dram.clean.filter keep }
    pcm := { p.pcm with failed := s.pcm.failed } }

/-! ## Boot -/

/-- Whether every reset input is high, so that boot runs (R94). -/
def State.pinsHigh (s : State) : Bool := s.dev.porN && s.dev.wrstN && s.dev.perstN

/-- Boot from step 2 of Table 3 of 04, when no reset input is held. -/
def State.bootStart (s : State) : State := if s.pinsHigh then { s with svm := s.svm.boot } else s

/-- The cause of a full scrub (Table 14 of 03). -/
def PendRec.cause : PendRec → Nat
  | .claim _ => 1
  | .transfer _ => 1
  | .renounce => 1
  | .dbgOpen _ _ _ _ => 2
  | .session => 3

/-- Begins a full scrub for a pending record (R78, R80). -/
def State.beginScrub (s : State) (p : PendRec) : State :=
  { s with tkm := { s.tkm with scrubActive := true, scrubCause := p.cause, scrubDone := 0 } }

/-- Table 10 of 01: the cores fit for service as BOOT ends: not fused off, not failed in the repair map, not marked
failed. -/
def State.bootCores (s : State) : BitVec 64 := ~~~Config.fusedOff &&& ~~~s.pcm.repairMap &&& ~~~s.pcm.failed

/-- R92, R93, R95: boot ends: at step 8, or in the boot ROM's RECOVERY when no bank passed. -/
def State.bootEnd (s : State) : State :=
  let s0 := if s.svm.booted then s else s.bootStart
  if s0.svm.svn = 0 then { s0 with dev := { s0.dev with romRecovery := true } }.toLife .recovery
  else
    let s1 : State := { s0 with svm := s0.svm.raiseFloor, dev := { s0.dev with coreAvail := s0.bootCores, bootHeld := false } }
    match s1.tkm.pending with
    | some p => (s1.beginScrub p).toLife .recovery
    | none => s1.toLife s1.restLife

/-- Boot reaches step 8, unless PACK_BEGIN holds it or a reset input is low. -/
def execBootComplete (s : State) : Host.Outcome State Fault Refusal :=
  .next (if s.dev.life = .boot ∧ s.pinsHigh ∧ s.dev.bootHeld = false then s.bootEnd else s)

/-- R466: 10 s after the last pack command or run, a held BOOT goes on to step 8. -/
def execBootHoldTimeout (s : State) : Host.Outcome State Fault Refusal :=
  .next (if s.dev.life = .boot ∧ s.dev.bootHeld ∧ s.svm.packRun.isNone ∧ s.dev.bootHeldAt + 10000000 ≤ s.now then s.bootEnd else s)

/-! ## Reset inputs -/

/-- R503: POR_N falls: the device is OFF, its outputs low and its transmitters idle. -/
def execPorNAssert (s : State) : Host.Outcome State Fault Refusal :=
  let s1 := s.powerOn
  .next { s1 with
    dev := { s1.dev with porN := false, life := .off }
    ports := s1.ports.map (fun (p : Port) => { p with st := .off })
    pcm := { s1.pcm with islands := (List.range 18).map (fun i =>
      if i = 17 then s1.island i else { s1.island i with st := .off }) } }

/-- R487: POR_N is released: power-on reset, and boot unless another reset input is low. -/
def execPowerOnReset (s : State) : Host.Outcome State Fault Refusal :=
  .next (if s.dev.porN then s
    else
      let s1 := s.powerOn
      { s1 with dev := { s1.dev with porN := true } }.bootStart)

/-- R487, R507: a warm reset begins from an input: no record is written (R488). -/
def State.warmPin (s : State) (f : Dev → Dev) : State :=
  if s.dev.life = .off then { s with dev := f s.dev }
  else
    let s1 := s.warm
    { s1 with dev := f s1.dev }

/-- WRST_N falls. -/
def execWrstNAssert (s : State) : Host.Outcome State Fault Refusal :=
  .next (if s.dev.wrstN then s.warmPin (fun d => { d with wrstN := false }) else s)

/-- PERST_N falls: treated as a warm reset. -/
def execPerstNAssert (s : State) : Host.Outcome State Fault Refusal :=
  .next (if s.dev.perstN then s.warmPin (fun d => { d with perstN := false }) else s)

/-- R94: WRST_N and PERST_N are high again: boot restarts from step 2. -/
def execWarmResetRelease (s : State) : Host.Outcome State Fault Refusal :=
  .next (if s.dev.wrstN && s.dev.perstN then s
    else
      let s1 : State := { s with dev := { s.dev with wrstN := true, perstN := true } }
      if s1.dev.life = .boot then s1.bootStart else s1)

/-- A warm reset with no input held (R116, R487): the device boots. -/
def State.warmBoot (s : State) : State := s.warm.bootStart

/-! ## Function resets -/

/-- R489: what a CXL hot reset and a function-level reset return to default; host bits are cleared before. A soft reset in
progress stops (R492), and the response window is zeroed (R70). -/
def State.functionReset (s : State) : State :=
  let s1 := s.leaveFrost.dropHost.recalled
  { s1 with
    host := { HostIf.reset with mem := s1.host.mem }
    spdm := { Spdm.reset with draws := s1.spdm.draws }
    tkm := { s1.tkm with resp := [] }
    pcm := { s1.pcm with softBusy := false } }

/-- Whether the device is out of reset and not stopped. -/
def State.alive (s : State) : Bool := decide (s.dev.life ≠ .off) && s.pinsHigh

def execCxlHotReset (s : State) : Host.Outcome State Fault Refusal := .next (if s.alive then s.functionReset else s)

def execFunctionLevelReset (s : State) : Host.Outcome State Fault Refusal := .next (if s.alive then s.functionReset else s)

/-! ## Soft and core reset -/

/-- Steps 2 to 4 of R490. An IMPORT, whose context is gone, and a recheck end with it. -/
def State.softEnd (s : State) : State :=
  let s0 := (s.endRecheck 4 stCancelled).dropHost.wipeWins
  let gone := s0.ctxs.flatMap (fun c => c.2.ranges.flatMap (fun r => r.2.blocks))
    ++ s0.ple.moves.flatMap (fun m => (segBlocks m.newSegs (s0.moveLen m)).flatMap (fun b => addrs b.1 b.2))
  let s1 := (s0.dirtyBlocks gone).unpinBy (fun _ => true)
  let s2 := match s1.twc.run with | some r => if r.send then s1 else s1.twcDone 1 0xA 0 | none => s1
  { s2 with
    ctxs := []
    cores := s2.cores.map (fun (c : Core) => { c.parked with
      gangRole := c.gangRole
      members := c.members
      spare := c.spare
      work := if c.work = .patrol then .patrol else .none
      pmc := List.replicate 16 0 })
    ple := { s2.ple with
      vms := s2.ple.vms.map (fun (m : VecMachine) => { m with busy := false, ctx := 0, desc := 0 })
      grids := []
      moves := []
      pins := [] }
    xlt := { s2.xlt with
      cmd := s2.xlt.cmd.stop
      unresolved := []
      unrecorded := []
      rtb := List.replicate 9 []
      drain := none
      fillWait := []
      creating := none, tail := none }
    qmg := { s2.qmg with queues := [], cached := [], reading := [], descs := [], ended := [] }
    pcm := { s2.pcm with
      softBusy := false
      timers := s2.pcm.timers.map (fun (t : CTimer) => if t.held.isSome then ⟨none, none, t.expired⟩ else t) } }

/-- R490: a soft reset goes on once every queue's descriptors have completed and their records are written. -/
def State.softStep (s : State) : State := if s.pcm.softBusy && s.qmg.descs.isEmpty then s.softEnd else s

/-- Step 1 of R490. -/
def State.softReset (s : State) : State :=
  let s1 := s.leaveFrost
  let s2 := s1.qmg.queues.foldl (fun (t : State) e => t.abortQueue e.1) s1
  ({ s2 with pcm := { s2.pcm with softBusy := true }, tkm := { s2.tkm with resp := [] } }).softStep

/-- R491: one core of a machine that is reset: its store buffer, units and state go, and its role generation rises. -/
def State.resetCore (s : State) (n : Nat) : State :=
  let s1 := s.updCore n (fun c => { c with sb := [], mx := { c.mx with jobs := [], drizzling := false } })
  let s2 := (s1.abortEngine n 0).abortEngine n 1
  (((s2.loseCore n).addTotals n).zeroSpad n).updCore n (fun c => { c.zeroed with work := c.work, ending := c.ending, desc := c.desc }) |>.raiseGen n

/-- R491: core reset of the machine that holds a core. -/
def State.coreReset (s : State) (n : Nat) : State :=
  let s0 := s.leaveFrost
  let s1 : State := { s0 with tkm := { s0.tkm with resp := [] } }
  let lead := s1.leadOf n
  let ms := s1.machineOf n
  let c := s1.core lead
  let serves := c.ctxValid && decide (c.work ≠ .none) && decide (c.work ≠ .patrol)
  let s2 := if serves then s1.killCtx c.ctx stCancelled else s1
  let s3 := ms.foldl State.resetCore s2
  if serves && decide ((s3.core lead).work ≠ .none) then (s3.updCore lead (fun x => { x with ending := true, deliver := none })).endShare lead
  else s3

/-- R496: a reset request that is refused. -/
def State.resetRefuse (s : State) : State := { s with pcm := { s.pcm with resetRefused := true } }

/-- R487, R488, R492, R496: a write of PCM.RESET. -/
def State.pcmReset (s : State) (v : Nat) : State :=
  let kind := bits v 0 3
  let n := bits v 8 6
  let l := s.dev.life
  match kind with
  | 0 => s.resetRefuse
  | 1 => if l ≠ .service ∨ s.pcm.softBusy then s.resetRefuse else s.softReset
  | 2 => if l = .unclaimed ∨ l = .held ∨ l = .service ∨ l = .test then s.heldAll.warmBoot else s.resetRefuse
  | 3 => if l ≠ .service ∨ s.pcm.softBusy ∨ Config.fusedOff.getLsbD n then s.resetRefuse else s.coreReset n
  | _ => s.resetRefuse

/-- R394: the record of the queue's descriptor that ended first is written; a soft reset may go on. -/
def execCompletionRecordWrite (q : Nat) (s : State) : Host.Outcome State Fault Refusal := .next (s.recordWrite q).softStep

end Sys2Proof.Machine
end

