-- ==== Sys2Proof/Machine/Sim.lean ====
section
/-!
DEFINITION. The structure image manager: staging (R41 to R44), the checks of Table 6 of 02 in their order (R34 to R40,
R45, R46), COMMIT, VERIFY and RELEASE (R48 to R55), and what a commit puts in force (R36 to R40, R311, R390, R422, R428,
R436).
-/
namespace Sys2Proof.Machine

/-! ## The staged image -/

def State.staged (s : State) (o n : Nat) : List Byte := s.sim.staging.readBytes o n
def State.stagedNat (s : State) (o n : Nat) : Nat := leNat (s.staged o n)

/-- Whether the granules of bytes [0, n) are present. -/
def Sim.covers (x : Sim) (n : Nat) : Bool := (List.range (ceilDiv n 64)).all (fun g => nsHas x.present g)

/-- Table 3: the length of a section type and whether it is required. -/
def sectionSpec (ty : Nat) : Option (Nat × Bool) :=
  match ty with
  | 1 => some (8, true)
  | 2 => some (64, true)
  | 3 => some (8, false)
  | 4 => some (8, false)
  | 5 => some (8, false)
  | 6 => some (16, true)
  | 7 => some (40, true)
  | 8 => some (72, true)
  | 9 => some (8, true)
  | 0xA => some (8, false)
  | 0xB => some (8, false)
  | 0xC => some (16, false)
  | _ => none

/-- An entry of the section table (Table 2). -/
structure SecEnt where
  type : Nat
  version : Nat
  offset : Nat
  length : Nat
  reserved : Nat
  deriving DecidableEq, Repr

def secEnt (img : List Byte) (i : Nat) : SecEnt :=
  let o := 0x40 + 16 * i
  ⟨leAt img o 2, leAt img (o + 2) 2, leAt img (o + 4) 4, leAt img (o + 8) 4, leAt img (o + 0xC) 4⟩

/-- The tests of R36 on one entry, with the types of the entries before it. -/
def SecEnt.ok (e : SecEnt) (count body : Nat) (before : List Nat) : Bool :=
  match sectionSpec e.type with
  | none => false
  | some (len, _) =>
    decide (e.version = 1) && decide (e.length = len) && decide (e.offset % 8 = 0) && decide (e.reserved = 0)
      && decide (0x40 + 16 * count ≤ e.offset) && decide (e.offset + e.length ≤ body) && !before.contains e.type

/-- The first entry that fails, in table order: its TYPE. -/
def secFirstBad (count body : Nat) : List SecEnt → List Nat → Option Nat
  | [], _ => none
  | e :: r, before => if e.ok count body before then secFirstBad count body r (e.type :: before) else some e.type

/-- Whether two sections of a list overlap. -/
def secOverlap : List SecEnt → Bool
  | [] => false
  | e :: r => r.any (fun x => decide (e.offset < x.offset + x.length) && decide (x.offset < e.offset + e.length)) || secOverlap r

/-- BAD_SECTION_TABLE: the SECTION reported, when a test of R36 fails. -/
def tableBad (count body : Nat) (es : List SecEnt) : Option Nat :=
  match secFirstBad count body es [] with
  | some t => some t
  | none =>
    if secOverlap es then some 0
    else [1, 2, 6, 7, 8, 9].find? (fun t => !es.any (fun e => decide (e.type = t)))

/-! ## Section fields (Table 4) -/

/-- R37: the bytes of an absent section: its defaults. -/
def sectionDefault (ty : Nat) : List Byte :=
  match ty with
  | 3 => leBytes 8 0x0200000000000000
  | 4 => leBytes 1 8 ++ zeros 1 ++ leBytes 2 64 ++ zeros 4
  | 5 => zeros 8
  | 0xA => leBytes 1 1 ++ zeros 7
  | 0xB => leBytes 2 24 ++ leBytes 2 24 ++ zeros 4
  | 0xC => zeros 16
  | _ => []

/-- A section's bytes, or its defaults. -/
def secBytes (img : List Byte) (es : List SecEnt) (ty : Nat) : List Byte :=
  match es.find? (fun e => decide (e.type = ty)) with
  | some e => sliceAt img e.offset e.length
  | none => sectionDefault ty

/-- A field's offset and whether its value is out of range. -/
abbrev FieldTest := Nat × Bool

/-- Tests of n one-byte fields. -/
def byteTests (b : List Byte) (o n : Nat) (ok : Nat → Bool) : List FieldTest :=
  (List.range n).map (fun i => (o + i, !ok (leAt b (o + i) 1)))

/-- R38, Table 4: the fields of a section in ascending offset, each with whether it is out of range. FMIN_MHZ above FMAX_MHZ
is counted as FMIN_MHZ's range (notes/assumptions/122.md). -/
def fieldTests (ty : Nat) (b : List Byte) : List FieldTest :=
  let f := fun (o n : Nat) => leAt b o n
  let z := fun (o n : Nat) => ((o, decide (leAt b o n ≠ 0)) : FieldTest)
  match ty with
  | 1 => byteTests b 0 8 (fun v => decide (v = 1) || decide (v = 2) || decide (v = 4))
  | 2 => byteTests b 0 64 (fun v => decide (1 ≤ v) && decide (v ≤ 6))
  | 3 => (List.range 8).map (fun c =>
      (c, decide (4 < f c 1) || decide (4 < ((List.range (c + 1)).map (fun i => f i 1)).sum)))
  | 4 => [(0, decide (12 < f 0 1)), z 1 1, (2, decide (256 < f 2 2)), z 4 4]
  | 5 => [(0, decide (1 < f 0 1)), (1, decide (1 < f 1 1)), (2, decide (3 < f 2 1)), z 3 5]
  | 6 => byteTests b 0 16 (fun v => decide (v < 3))
  | 7 => [(0, decide (f 0 1 ≠ 1) && decide (f 0 1 ≠ 2)), z 1 1, (2, decide (128 < f 2 2)), z 4 4]
  | 8 => [(0, decide (f 0 2 < 900) || decide (1500 < f 0 2)), (2, decide (256 < f 2 2)), z 4 4]
      ++ (List.range 8).flatMap (fun c =>
        let lo := f (8 + 8 * c) 2
        let hi := f (10 + 8 * c) 2
        let mv := f (12 + 8 * c) 2
        [(8 + 8 * c, decide (lo < 400) || decide (hi < lo) || decide (lo % 25 ≠ 0)),
         (10 + 8 * c, decide (hi < 1000) || decide (2100 < hi) || decide (hi % 25 ≠ 0)),
         (12 + 8 * c, decide (mv < 700) || decide (900 < mv) || decide (mv % 5 ≠ 0)), z (14 + 8 * c) 2])
  | 9 => [(0, decide (f 0 2 = 0) || decide (4096 < f 0 2)), (2, decide (f 2 1 = 0) || decide (64 < f 2 1)),
      (3, decide (f 3 1 = 0) || decide (64 < f 3 1)), (4, decide (f 4 4 = 0) || decide (262144 < f 4 4))]
  | 0xA => [(0, decide (1 < f 0 1)), (1, decide (1 < f 1 1)), z 2 6]
  | 0xB => [(0, decide (f 0 2 = 0) || decide (720 < f 0 2)), (2, decide (720 < f 2 2)), z 4 4]
  | 0xC => [(0, decide (1 < f 0 1)), z 1 7]
  | _ => []

/-- FIELD_RANGE: the first offending field, sections in ascending type code: section and offset. -/
def fieldBad (img : List Byte) (es : List SecEnt) : Option (Nat × Nat) :=
  ((List.range 12).flatMap (fun k =>
    ((fieldTests (k + 1) (secBytes img es (k + 1))).filter (·.2)).map (fun t => (k + 1, t.1)))).head?

/-- The image that the staged sections describe (R37). -/
def imageOf (img : List Byte) (es : List SecEnt) (body total : Nat) : Image :=
  let b := fun (ty o n : Nat) => leAt (secBytes img es ty) o n
  let per := fun (ty o k n : Nat) => (List.range n).map (fun i => b ty (o + k * i) (if ty = 8 then 2 else 1))
  { seq := leAt img 0x18 8
    digest := BitVec.ofNat 512 (leAt img body 64)
    vendor := decide (leAt img 0x0C 1 = 1)
    gang := per 1 0 1 8
    spad := per 2 0 1 64
    spares := per 3 0 1 8
    pinWays := b 4 0 1
    ctxPinMib := b 4 2 2
    policy := b 5 0 1
    fixedAllowed := decide (b 5 1 1 = 1)
    defaultClass := b 5 2 1
    role := per 6 0 1 16
    paired := decide (b 7 0 1 = 1)
    mirrorGib := b 7 2 2
    waiver := b 7 8 32
    capW := b 8 0 2
    drizzle := b 8 2 2
    fmin := per 8 8 8 8
    fmax := per 8 10 8 8
    vmax := per 8 12 8 8
    maxCtx := b 9 0 2
    queuesPerCtx := b 9 2 1
    rangesPerCtx := b 9 3 1
    totalQueues := b 9 4 4
    t1Host := decide (b 0xA 0 1 = 1)
    faultData := decide (b 0xA 1 1 = 1)
    interval := b 0xB 0 2
    deadline := b 0xB 2 2
    allowUnordered := decide (b 0xC 0 1 = 1)
    srSeed := BitVec.ofNat 64 (b 0xC 8 8)
    bytes := img.take total }

/-! ## Consistency (R39) -/

/-- Fit cores of a cluster. -/
def State.fitIn (s : State) (c : Nat) : List Nat := (addrs (8 * c) 8).filter s.fit

/-- R39: the first item that fails: section and field offset. -/
def State.inconsistent (s : State) (i : Image) : Option (Nat × Nat) :=
  let cl := List.range 8
  let at_ := fun (l : List Nat) (k : Nat) => l.getD k 0
  let item := fun (sec : Nat) (off : Nat → Nat) (bad : Nat → Bool) => (cl.find? bad).map (fun c => (sec, off c))
  let one := fun (sec off : Nat) (bad : Bool) => if bad then some (sec, off) else none
  let twins := (List.range 16).filter (fun p => decide (at_ i.role p = 2))
  let dev : Nat := leNat identity
  (item 3 id (fun c => decide ((8 - at_ i.spares c) % at_ i.gang c ≠ 0))).orElse (fun _ =>
  (item 3 id (fun c => decide ((s.fitIn c).length < 8 - at_ i.spares c))).orElse (fun _ =>
  (item 2 (8 * ·) (fun c => (decide (1 < at_ i.gang c) || decide (0 < at_ i.spares c))
    && (addrs (8 * c) 8).any (fun n => decide (at_ i.spad n ≠ at_ i.spad (8 * c))))).orElse (fun _ =>
  (one 6 14 (if i.paired then decide (twins ≠ [14, 15]) else !twins.isEmpty)).orElse (fun _ =>
  (one 7 2 (if i.paired then decide (i.mirrorGib = 0) || decide (128 < i.mirrorGib) else decide (i.mirrorGib ≠ 0))).orElse (fun _ =>
  one 7 8 (if i.vendor then i.paired || decide (i.waiver ≠ 0)
    else if i.paired then decide (i.waiver ≠ 0) else decide (i.waiver ≠ dev)))))))

/-! ## The checks of Table 6 -/

/-- The outcome of the checks: a code, with the section and offset reported, or the image. -/
inductive SimRes where
  | bad (code section_ offset : Nat)
  | ok (i : Image)
  deriving DecidableEq, Repr

/-- R45: the public key held for a signer role: the running bundle's, or the owner's. -/
def State.roleKey (s : State) (vendor : Bool) : Option (List Byte) :=
  if vendor then (if s.svm.svn = 0 then none else some (bundleKey (s.svm.bankMem s.svm.bank))) else s.tkm.ownerKey

/-- The first 16 bytes of the hash of a public key. -/
def keyId (key : List Byte) : List Byte := (digestBytes (Config.sha3 key)).take 16

/-- R46: the sequence rule. -/
def State.seqOk (s : State) (vendor : Bool) (seq : Nat) (dg : Digest) : Bool :=
  let floor := if vendor then s.sim.vendorFloor else s.sim.ownerFloor
  let fd := if vendor then s.sim.vendorDigest else s.sim.ownerDigest
  decide (floor < seq) || (decide (seq = floor) && decide (floor ≠ 0) && decide (dg = fd))

/-- R45: the checks in the order of their codes. -/
def State.simCheck (s : State) : SimRes :=
  let h := s.staged 0 64
  let f := fun (o n : Nat) => leAt h o n
  let body := f 0x14 4
  let total := f 0x20 4
  let count := f 0x0D 1
  let vendor := decide (f 0x0C 1 = 1)
  let early := firstCode [
    (1, !nsHas s.sim.present 0),
    (2, decide (f 0 4 ≠ 0x41525051)),
    (3, decide (f 4 2 ≠ 1) || decide (f 6 2 ≠ 64) || decide (f 0x0E 2 ≠ 0) || decide (f 0x24 4 ≠ 0) || decide (f 0x38 8 ≠ 0)),
    (4, decide (body % 8 ≠ 0) || decide (body < 0x40 + 16 * count) || decide (count < 6) || decide (12 < count)
      || decide (total ≠ body + 4691) || decide (65536 < total)),
    (5, !s.sim.covers total),
    (6, !partOk (f 8 2) (f 0xA 2)),
    (7, decide (s.svm.fwVersion < f 0x10 4)),
    (8, !(if f 0x0C 1 = 1 then decide (s.dev.life = .unclaimed) else decide (f 0x0C 1 = 2) && decide (s.dev.life ≠ .unclaimed)))]
  if early ≠ 0 then .bad early 0 0
  else
    let img := s.staged 0 total
    let dg := sliceAt img body 64
    let es := (List.range count).map (secEnt img)
    let keyBad := match s.roleKey vendor with
      | none => true
      | some k => decide (keyId k ≠ sliceAt img 0x28 16) || !Config.mldsaVerify k dg (sliceAt img (body + 64) 4627)
    let late := firstCode [
      (9, decide (digestBytes (Config.sha3 (img.take body)) ≠ dg)),
      (0xA, keyBad),
      (0xB, !s.seqOk vendor (leAt img 0x18 8) (BitVec.ofNat 512 (leNat dg)))]
    if late ≠ 0 then .bad late 0 0
    else
      match tableBad count body es with
      | some t => .bad 0xC t 0
      | none =>
        match fieldBad img es with
        | some (sec, o) => .bad 0xD sec o
        | none =>
          let i := imageOf img es body total
          match s.inconsistent i with
          | some (sec, o) => .bad 0xE sec o
          | none => .ok i

/-! ## Putting an image in force -/

/-- R40: the machines of a cluster: the lowest-numbered fit cores do job work, in gangs of adjacent places in that list;
the other fit cores are spares (notes/assumptions/21.md). -/
def State.formCluster (s : State) (i : Image) (c : Nat) : State :=
  let fit := s.fitIn c
  let g := max 1 (i.gang.getD c 1)
  let work := fit.take (8 - i.spares.getD c 0)
  let s1 := (List.range (work.length / g)).foldl (fun (t : State) k =>
    let ms := (work.drop (g * k)).take g
    let t1 : State := { t with ple := { t.ple with vms := t.ple.vms ++ [⟨ms, false, 0, 0⟩] } }
    t1.placeVm ms) s
  (fit.drop work.length).foldl (fun t n => t.updCore n (fun x => { x with spare := true, gangRole := 0, members := [] })) s1

/-- Forms every machine. -/
def State.formMachines (s : State) (i : Image) : State :=
  (List.range 8).foldl (fun t c => t.formCluster i c) { s with ple := { s.ple with vms := [] } }

/-- n blocks of class 0 sets outside set 0 in one run of whole blocks, lowest first, with the configuration they need. The
manual lets the engine choose (notes/assumptions/21.md). -/
def runOf (as : List Blocks) (n b : Nat) : Nat → Option Nat
  | 0 => none
  | k + 1 => if freeRun as (b, n) then some b else runOf as n (b + 256) k

/-- Reserves n blocks for the device: the blocks begin a set, and the sets take class 0. The blocks are zero-filled. -/
def State.reserveRun (s : State) (n : Nat) : State × Nat :=
  if n = 0 then (s, 0)
  else
    match runOf s.assigned n 256 (s.setsOpen - 1) with
    | none => (s, 0)
    | some b =>
      let m := (addrs (b / 256) (ceilDiv n 256)).foldl (fun (d : Dram) x => d.setClass x 0) s.dram
      (({ s with dram := m }).fill ((addrs b n).filter (fun k => !nsHas s.dram.clean k)), b)

/-- R436, R55: the mirror reserve of a new image: the old one's contents stay when it is PAIRED with the same MIRROR_GIB. -/
def State.takeReserve (s : State) (i : Image) : State :=
  let n := i.mirrorGib * 16384
  if i.paired && decide (0 < s.twc.reserveBlocks) && decide (s.twc.reserveBlocks = n) then { s with twc := { s.twc with kept := true } }
  else
    let s1 : State := { (s.dirtyBlocks (addrs s.twc.reserve s.twc.reserveBlocks)) with
      twc := { s.twc with cat := [], reserve := 0, reserveBlocks := 0, reserveOf := none, kept := false } }
    let r := s1.reserveRun n
    { r.1 with twc := { r.1.twc with reserve := r.2, reserveBlocks := if r.2 = 0 then 0 else n } }

/-- A port under the image's role: off ports stop, others that have trained begin admission (R412). -/
def State.applyRole (s : State) (p : Nat) : State :=
  if s.role p = 0 then s.updPort p (fun x => { x with st := .off })
  else if (s.port p).st = .trained then s.startAdmission p
  else s

/-- R483: a core island's ceiling: the highest frequency of its bounds whose voltage does not exceed VMAX_MV, FMIN_MHZ when
none fits. -/
def State.ceiling (s : State) (i : Nat) : Nat :=
  match s.sim.image with
  | none => 0
  | some x =>
    let lo := x.fmin.getD i 0
    let hi := x.fmax.getD i 0
    let ok := ((List.range ((hi - lo) / 25 + 1)).map (fun k => hi - 25 * k)).filter
      (fun f => decide (Config.voltMv i f ≤ x.vmax.getD i 0))
    ok.headD lo

/-- R483: at commit the core islands run at FMIN_MHZ of their clusters (notes/assumptions/6.md). -/
def State.islandsAt (s : State) (i : Image) : State :=
  { s with pcm := { s.pcm with islands := (List.range 18).map (fun k =>
      let x := s.island k
      if k < 8 then { x with mhz := i.fmin.getD k 400, mv := Config.voltMv k (i.fmin.getD k 400), raise := none, since := s.now }
      else { x with since := s.now }) } }

/-- R48, R53: every section in force; SERVICE for an owner image, TEST for a vendor factory image, where only packs run and the
sections of memory and links have nothing to act on (notes/assumptions/6.md). -/
def State.inForce (s : State) (i : Image) : State :=
  let s1 : State := { s with sim := { s.sim with
    image := some i
    present := []
    ownerFloor := if i.vendor then s.sim.ownerFloor else i.seq
    ownerDigest := if i.vendor then s.sim.ownerDigest else i.digest
    vendorFloor := if i.vendor then i.seq else s.sim.vendorFloor
    vendorDigest := if i.vendor then i.digest else s.sim.vendorDigest } }
  if i.vendor then (({ s1 with dev := { s1.dev with testFactory := true } }.formMachines i).islandsAt i).toLife .test
  else
    let s2 := s1.formMachines i
    let s3 := s2.takeReserve i
    let q := s3.reserveRun (ceilDiv (i.totalQueues * 64) 65536)
    let s4 : State := { q.1 with qmg := { q.1.qmg with store := q.2, storeBlocks := ceilDiv (i.totalQueues * 64) 65536 } }
    let c := s4.reserveRun 4096
    let s5 : State := { c.1 with
      cle := { c.1.cle with stage := c.2, coreGen := c.1.cle.coreGen.map (· + 1) }
      twc := { c.1.twc with st := if i.paired then .pairing else .unpaired, ckptDone := false }
      flt := { c.1.flt with patrol := c.1.flt.patrol.map (fun (p : Patrol) => { Patrol.reset with since := c.1.now, last := p.last }) } }
    let s6 := (s5.islandsAt i).toLife .service
    let s7 := (List.range 16).foldl State.applyRole s6
    { s7 with dev := { s7.dev with twnAliveOut := i.paired } }

/-! ## Commands -/

/-- Ends the SIM command with a code, section and field offset. -/
def State.simDone (s : State) (op code sec off : Nat) : State :=
  { s with sim := { s.sim with cmd := s.sim.cmd.finish op code, section_ := sec, fieldOffset := off, run := none } }

/-- R43, Table 5: whether a command is accepted in the lifecycle state, and while a change record exists, only CLEAR (R84). -/
def State.simPermits (s : State) (op : Nat) : Bool :=
  let change := match s.tkm.pending with | some .session => false | some _ => true | none => false
  let any := match s.dev.life with | .unclaimed => true | .held => true | .service => true | _ => false
  if op = 1 then any || decide (s.dev.life = .test) || decide (s.dev.life = .recovery)
  else if change then false
  else if op = 5 then decide (s.dev.life = .service) || (decide (s.dev.life = .test) && s.dev.testFactory)
  else any

/-- R44: CLEAR. -/
def State.simClear (s : State) : State := { s with sim := { s.sim with present := [] } }

/-- R41: DEPOSIT. -/
def State.deposit (s : State) : State :=
  let n := s.sim.chunkLen
  let o := s.sim.chunkOff
  if n < 64 ∨ 4096 < n ∨ n % 64 ≠ 0 ∨ o % 64 ≠ 0 ∨ 65536 < o + n then s.simDone 2 0x12 0 0
  else
    { s with sim := { s.sim with
      staging := s.sim.staging.writeBytes o (s.sim.chunk.readBytes 0 n)
      stagingPoison := nsDelRange s.sim.stagingPoison (o / 32) (n / 32)
      present := nsInsRange s.sim.present (o / 64) (n / 64) } }.simDone 2 0 0 0

/-- Marks a SIM command as running. -/
def State.simBegin (s : State) (op : Nat) (r : SimRun) : State :=
  { s with sim := { s.sim with cmd := s.sim.cmd.begin_ op, section_ := 0, fieldOffset := 0, run := some r } }

/-- R43, R50 to R53, R56: a write of SIM.CMD. -/
def State.simCmd (s : State) (v : Nat) : State :=
  let op := bits v 0 4
  if s.sim.cmd.busy then { s with sim := { s.sim with cmd := s.sim.cmd.drop } }
  else if op = 0 ∨ 5 < op then s
  else if !s.simPermits op then s.simDone op 0x10 0 0
  else
    match op with
    | 1 => s.simClear.simDone 1 0 0 0
    | 2 => s.deposit
    | 3 => s.simBegin 3 .verify
    | 4 =>
      if s.dev.life = .service then
        if s.busyWork then s.simDone 4 0x11 0 0 else (s.depart).simBegin 4 .commit
      else s.simBegin 4 .commit
    | _ =>
      if s.dev.life = .service then
        if s.busyWork then s.simDone 5 0x11 0 0 else (s.depart).simBegin 5 .release
      else s.simBegin 5 .release

/-- The SIM finishes a VERIFY, COMMIT or RELEASE (R49, R53, R54, R55). A RELEASE in TEST waits for a pack run's end; LIFE then
reads UNCLAIMED, or HELD with an owner key installed. -/
def State.simFinish (s : State) : State :=
  match s.sim.run with
  | none => s
  | some .verify =>
    (match s.simCheck with
    | .bad c sec o => s.simDone 3 c sec o
    | .ok _ => s.simDone 3 0 0 0)
  | some .commit =>
    (match s.simCheck with
    | .bad c sec o => s.simDone 4 c sec o
    | .ok i => (s.inForce i).simDone 4 0 0 0)
  | some .release =>
    if s.svm.packRun.isSome then s
    else if s.dev.life = .test then
      ({ s with
        sim := { s.sim with image := none }
        svm := { s.svm with packBegun := false }
        ple := { s.ple with vms := [] }
        cores := s.cores.map Core.parked
        dev := { s.dev with testFactory := false } }.toLife s.restLife).simDone 5 0 0 0
    else s.simDone 5 0 0 0

def execImageChecksComplete (s : State) : Host.Outcome State Fault Refusal := .next s.simFinish

/-- Writes of SIM registers (Table 9); `m` masks the bits written. -/
def State.simWrite (s : State) (off v m : Nat) : State :=
  let x := s.sim
  match off with
  | 0x00 => s.simCmd (v &&& m)
  | 0x08 =>
    let old := x.chunkOff + fld x.chunkLen 32
    let n := merge old v m
    { s with sim := { x with chunkLen := bits n 32 13, chunkOff := bits n 0 16 } }
  | 0x10 => { s with sim := { x with cmd := x.cmd.clear (v &&& m) } }
  | _ => s

/-- R56: a write of SIM.CHUNK of `n` bytes at an offset of the buffer. -/
def State.simChunk (s : State) (o n v : Nat) : State := { s with sim := { s.sim with chunk := s.sim.chunk.writeLe o n v } }

end Sys2Proof.Machine
end

