-- ==== Sys2Proof/Machine/Tkm.lean ====
section
/-!
DEFINITION. The trust and key manager: owner requests (R64 to R68), responses (R69, R70, Table 6 of 03), the telemetry
record (R494), ownership changes (R82) and full scrubs (R78 to R80), and debug sessions (R112 to R116).
-/
namespace Sys2Proof.Machine

/-! ## Monitors as they are reported (R74) -/

/-- A mean to nearest, ties upward (Table 7 of 03); 0 of nothing. -/
def meanUp (l : List Nat) : Nat := if l.isEmpty then 0 else (2 * l.sum + l.length) / (2 * l.length)

/-- The 1 ms average of the measured power of a consumer, islands 0 to 17 first, in 0.1 W (R484). -/
def Pcm.avg (p : Pcm) (i : Nat) : Nat :=
  meanUp (p.samples.map (fun l => l.getD i 0))

/-- The 1 ms average of device power in 0.1 W. -/
def Pcm.avgAll (p : Pcm) : Nat := meanUp (p.samples.map List.sum)

/-- A clock in MHz as PCM.ISLAND shows it: 0 while gated. -/
def Island.clock (x : Island) : Nat := if x.st = .running then x.mhz else 0

/-- The clock of island i in MHz. In HELD the cores, and so the C islands, are clock-gated (Table 8 of 02). -/
def State.clockMhz (s : State) (i : Nat) : Nat := if s.dev.life = .held ∧ i < 8 then 0 else (s.island i).clock

def ThermSt.code : ThermSt → Nat
  | .normal => 0
  | .warm => 1
  | .gapped => 2
  | .stopped => 3

/-- A signed reading in 16 bits. -/
def int16 (x : Int) : List Byte := leBytes 2 (x % 65536).toNat

/-- Bit c of stack s for a channel that is failed or excluded (Table 6 of 17). -/
def Mcu.repairWord (m : Mcu) : Nat :=
  ((List.range 32).map (fun c => if (m.ch.getD c Chan.reset).failed then 2 ^ c else 0)).sum

/-- R494: the T1 and T2 telemetry record. -/
def State.telemetry (s : State) : List Byte :=
  let reps := Config.sramRepairs.take 4096
  let p := s.pcm
  let util := (List.range 64).flatMap (fun n => leBytes 2 (Config.reading s.free n % 1001))
  leBytes 4 0x4C455451 ++ leBytes 2 1 ++ zeros 2 ++ leBytes 4 (1280 + 8 * reps.length) ++ leBytes 4 reps.length
    ++ (List.range 96).flatMap (fun i => int16 (p.dieTemp.getD i 0))
    ++ (List.range 96).flatMap (fun i => leBytes 2 (((s.mcu.getD (i / 12) Mcu.reset).dieTemp.getD (i % 12) 0).toNat))
    ++ (List.range 144).flatMap (fun i => leBytes 2 (p.worstDroop.getD i 0))
    ++ (List.range 18).flatMap (fun i => leBytes 4 (p.avg i))
    ++ (List.range 18).flatMap (fun i => leBytes 2 (s.clockMhz i))
    ++ (List.range 8).flatMap (fun i => leBytes 1 (s.mcu.getD i Mcu.reset).therm.code)
    ++ util ++ zeros 4 ++ leBytes 8 s.dev.coreAvail.toNat
    ++ (List.range 64).flatMap (fun i => leBytes 4 (Config.reading s.free (64 + i)))
    ++ (List.range 18).flatMap (fun i => leBytes 2 (Config.reading s.free (128 + i)))
    ++ zeros 4 ++ leBytes 8 p.repairMap.toNat
    ++ (List.range 8).flatMap (fun i => leBytes 4 (s.mcu.getD i Mcu.reset).repairWord)
    ++ reps.flatMap (fun w => leBytes 8 w.toNat)

/-- After a record, the worst droops start afresh. -/
def State.telemetryRead (s : State) : State :=
  ({ s with pcm := { s.pcm with worstDroop := s.pcm.droopMv } }).drawn

/-! ## Checks (Table 4) -/

/-- LENGTH of a request type (Table 3; R112). -/
def reqLength (ty : Nat) : Nat :=
  match ty with
  | 1 => 2656
  | 2 => 2656
  | 3 => 64
  | 4 => 1632
  | 5 => 1632
  | 6 => 144
  | _ => 0

/-- R65, R84, R112: whether the state accepts a request type. -/
def State.reqPermits (s : State) (ty : Nat) : Bool :=
  let l := s.dev.life
  let pend := match s.tkm.pending with
    | none => true
    | some .session => decide (ty = 4) || decide (ty = 5)
    | some _ => decide (ty = 5)
  pend && (match ty with
    | 1 => decide (l = .unclaimed)
    | 2 => decide (l = .held)
    | 3 => decide (l = .held)
    | 4 => decide (l = .service)
    | 5 => decide (l = .held) || decide (l = .service)
    | 6 => decide (l = .held) && !Config.debugDisable
    | _ => false)

/-- A reserved field that is not zero, or a token's field outside its range (R66, R112). -/
def reqFieldsBad (r : List Byte) : Bool :=
  let ty := leAt r 4 2
  let dur := leAt r 0x40 4
  let scope := leAt r 0x44 4
  decide (ty = 0) || decide (6 < ty) || decide (leAt r 6 2 ≠ 0) || decide (leAt r 0x0C 4 ≠ 0) || decide (leAt r 0x18 8 ≠ 0)
    || (decide (ty = 6) && (decide (dur < 60) || decide (86400 < dur) || decide (scope = 0) || decide (3 < scope)
      || decide (leAt r 0x88 8 ≠ 0)))

/-- Checks 0x01 to 0x06, which need no signature. -/
def State.reqEarly (s : State) (r : List Byte) : Nat :=
  let ty := leAt r 4 2
  let len := leAt r 8 4
  firstCode [
    (1, decide (leAt r 0 4 ≠ 0x4E574F51)),
    (2, reqFieldsBad r),
    (3, decide (len ≠ reqLength ty) || decide (8192 < len + 4627)),
    (4, !s.reqPermits ty),
    (5, decide (sliceAt r 0x20 32 ≠ identity)),
    (6, if ty = 1 ∨ ty = 2 then !Config.mldsaKeyOk (sliceAt r 0x40 2592)
      else if ty = 4 ∨ ty = 5 then !Config.kemKeyOk (sliceAt r 0x40 1568) else false)]

/-- R66: the first check that fails, 0 when none does. -/
def State.reqCode (s : State) (r : List Byte) : Nat :=
  let ty := leAt r 4 2
  let len := leAt r 8 4
  let e := s.reqEarly r
  let key := if ty = 1 then some (sliceAt r 0x40 2592) else s.tkm.ownerKey
  let signed := match key with
    | some k => Config.mldsaVerify k (digestBytes (Config.sha3 (r.take len))) (sliceAt r len 4627)
    | none => false
  if e ≠ 0 then e
  else firstCode [
    (7, !signed),
    (8, decide (leAt r 0x10 8 ≤ (if ty = 1 then 0 else s.tkm.ownerCtr))),
    (9, (decide (ty = 4) || decide (ty = 5)) && !s.tkm.resp.isEmpty)]

/-! ## Outcomes -/

/-- Ends a request with a code. -/
def State.tkmDone (s : State) (code : Nat) : State :=
  { s with tkm := { s.tkm with cmd := s.tkm.cmd.finish 1 code, checking := none } }

/-- R68, Table 6: the response to a READ request. -/
def State.respond (s : State) (r payload : List Byte) : State :=
  let e := Config.kemEncap (sliceAt r 0x40 1568) s.tkm.kemDraws
  let h := leBytes 4 0x50535251 ++ leBytes 2 (leAt r 4 2) ++ zeros 2 ++ leBytes 4 (1648 + payload.length)
    ++ leBytes 4 payload.length ++ sliceAt r 0x10 8 ++ zeros 8 ++ identity
  let key := seed32 (Config.sha3 (e.2 ++ h))
  let aad := h ++ e.1
  { s with tkm := { s.tkm with
    resp := aad ++ Config.gcmSeal key (zeros 12) aad payload
    kemDraws := s.tkm.kemDraws + 1
    ownerCtr := leAt r 0x10 8 } }.tkmDone 0

/-- R82, R113: a change that passes its checks: the pending record is written and the scrub begins. An ownership change
goes on in RECOVERY. -/
def State.beginChange (s : State) (p : PendRec) : State :=
  let s1 := ({ s with tkm := { s.tkm with pending := some p } }).beginScrub p
  match p with
  | .dbgOpen _ _ _ _ => s1
  | _ => s1.simClear.toLife .recovery

/-- R66, R67: the TKM has finished a request's checks. -/
def State.reqFinish (s : State) : State :=
  if s.tkm.scrubActive && decide (s.tkm.pending ≠ some .session) then s
  else
    match s.tkm.checking with
    | none => s
    | some r =>
      let code := s.reqCode r
      if code ≠ 0 then s.tkmDone code
      else
        match leAt r 4 2 with
        | 1 => s.beginChange (.claim (sliceAt r 0x40 2592))
        | 2 => s.beginChange (.transfer (sliceAt r 0x40 2592))
        | 3 => s.beginChange .renounce
        | 4 => s.respond r (match s.sim.image with | some i => i.bytes | none => [])
        | 5 => (s.respond r s.telemetry).telemetryRead
        | _ => s.beginChange (.dbgOpen (leAt r 0x40 4) (leAt r 0x44 4) (BitVec.ofNat 512 (leAt r 0x48 64)) (leAt r 0x10 8))

def execRequestChecksComplete (s : State) : Host.Outcome State Fault Refusal := .next s.reqFinish

/-- R66, R83: SUBMIT takes the 8 KiB of TKM.REQ. A check that needs no signature refuses it at once. -/
def State.submit (s : State) : State :=
  let r := s.tkm.req.readBytes 0 8192
  let s1 : State := { s with tkm := { s.tkm with reqType := leAt r 4 2, cmd := s.tkm.cmd.begin_ 1, checking := some r } }
  if s.reqEarly r ≠ 0 then s1.tkmDone (s.reqEarly r) else s1

/-- R70, R83: a write of TKM.CMD. -/
def State.tkmCmd (s : State) (v : Nat) : State :=
  let op := bits v 0 4
  if s.tkm.cmd.busy then { s with tkm := { s.tkm with cmd := s.tkm.cmd.drop } }
  else if op = 0 ∨ 2 < op then s
  else if op = 1 then s.submit
  else { s with tkm := { s.tkm with resp := [], cmd := s.tkm.cmd.finish 2 0 } }

/-- Writes of TKM registers (Table 10 of 03). -/
def State.tkmWrite (s : State) (off v m : Nat) : State :=
  match off with
  | 0x00 => s.tkmCmd (v &&& m)
  | 0x08 => { s with tkm := { s.tkm with cmd := s.tkm.cmd.clear (v &&& m) } }
  | _ => s

/-- R83: a write of TKM.REQ of `n` bytes at an offset of the buffer. -/
def State.tkmReq (s : State) (o n v : Nat) : State := { s with tkm := { s.tkm with req := s.tkm.req.writeLe o n v } }

/-! ## Full scrub (R78, R79) -/

/-- R78: every DRAM byte and check bit is zero, the mirror reserve with them, and all SRAM but the window generations. The
staging SRAM's granules are absent then (notes/assumptions/123.md). -/
def State.scrubbed (s : State) : State :=
  { s with
    dram := { Dram.reset with
      bytes := []
      poison := []
      stackGroups := s.dram.stackGroups
      halfPairs := s.dram.halfPairs
      class3 := s.dram.class3 }
    cores := s.cores.map Core.zeroed
    qmg := { s.qmg with cached := [] }
    sim := { s.sim with staging := [], stagingPoison := [], present := [], chunk := [] }
    svm := { s.svm with pack := [], fill := if s.svm.packBegun then 0 else s.svm.fill, packBegun := false, chunk := [] }
    xlt := { s.wipeWins.xlt with winPoison := [], rtb := List.replicate 9 [] }
    twc := { s.twc with cat := [], reserve := 0, reserveBlocks := 0, reserveOf := none, kept := false } }

/-- R79, R454: an ownership change empties the fault log, and RID starts again. -/
def Flt.emptied (f : Flt) : Flt :=
  { f with log := [], tail := 0, head := 0, lost := 0, nextRid := 1, periodSlots := [], sessionSlots := [] }

/-- R79: the data bytes of every record. -/
def Flt.noData (f : Flt) : Flt :=
  { f with log := Tab.mapAll LogRec.none f.log (fun _ r => { r with data := [], flags := r.flags &&& 0xFE }) }

/-- R454: the slots that a debug session wrote are zeroed. -/
def Flt.forget (f : Flt) : Flt :=
  { f with log := f.sessionSlots.foldl (fun t k => Tab.put LogRec.none t k LogRec.none) f.log, sessionSlots := [] }

/-- Steps 5 to 7 of Table 9 of 03: the owner key changes. RENOUNCE zeroes the owner floor and digest too, and CAUSE and PROGRESS
stay as the scrub left them (notes/assumptions/123.md). -/
def State.ownerChange (s : State) (key : Option (List Byte)) : State :=
  let s1 : State := { s with
    tkm := { s.tkm with ownerKey := key, ownerCtr := 0, pending := none, scrubActive := false, scrubDone := 1000 }
    sim := { s.sim with ownerFloor := 0, ownerDigest := 0 }
    flt := s.flt.emptied }
  let s2 := s1.toLife s1.restLife
  if s2.tkm.cmd.busy then s2.tkmDone 0 else s2

/-- R67, R113: the opening scrub has ended and the session opens; the request that asked for it ends. -/
def State.openSession (s : State) (dur scope : Nat) (hash : Digest) (ctr : Nat) : State :=
  let s1 : State := { s with
    spdm := { s.spdm with sessions := [] }
    svm := { s.svm with aliasSeed := none, dbg := some ⟨s.now + dur * 1000000, scope, hash, 0, 0⟩ }
    tkm := { s.tkm with pending := some .session, ownerCtr := ctr, scrubActive := false, scrubDone := 1000 }
    dev := { s.dev with dbgOpen := true }
    flt := s.flt.noData }
  let s2 := if s1.dev.life = .recovery then s1.toLife s1.restLife else s1
  if s2.tkm.cmd.busy then s2.tkmDone 0 else s2

/-- R116: the closing scrub has ended: the record is gone and the device comes up by a warm reset, or, when a reset ended
the session, leaves RECOVERY. -/
def State.closedSession (s : State) : State :=
  let s1 : State := { s with
    tkm := { s.tkm with pending := none, scrubActive := false, scrubDone := 1000 }
    flt := s.flt.forget }
  if s1.dev.life = .recovery then s1.toLife s1.restLife else s1.warmBoot

/-- R78, R80: a full scrub ends and the change that it guards is completed. -/
def State.scrubEnd (s : State) : State :=
  if !s.tkm.scrubActive then s
  else
    let s1 := s.scrubbed
    match s.tkm.pending with
    | some (.claim k) => s1.ownerChange (some k)
    | some (.transfer k) => s1.ownerChange (some k)
    | some .renounce => s1.ownerChange none
    | some (.dbgOpen d sc h ctr) => s1.openSession d sc h ctr
    | some .session => s1.closedSession
    | none => { s1 with tkm := { s1.tkm with scrubActive := false, scrubDone := 1000 } }

def execFullScrubComplete (s : State) : Host.Outcome State Fault Refusal := .next s.scrubEnd

/-- R116: the session ends, by close, countdown or the eighth wrong secret: Frost is left, all work stops without further
records, and the closing scrub begins. -/
def State.endSession (s : State) : State :=
  if s.svm.dbg.isNone then s
  else
    let s1 := s.leaveFrost.goDark
    ({ s1 with
      svm := { s1.svm with dbg := none, packRun := none }
      dev := { s1.dev with dbgOpen := false }
      sim := { s1.sim with run := none, cmd := s1.sim.cmd.stop } }).beginScrub .session

/-- R116: the session's countdown reaches zero, once its seconds have passed. -/
def execDebugCountdownExpiry (s : State) : Host.Outcome State Fault Refusal :=
  .next (match s.svm.dbg with
    | some d => if d.endsAt ≤ s.now then s.endSession else s
    | none => s)

end Sys2Proof.Machine
end

