-- ==== Sys2Proof/Machine/Svm.lean ====
section
/-!
DEFINITION. The service mailbox: firmware update (R107 to R109), test packs (R466 to R470) and the close of a debug
session (R116), with its register writes (R117).
-/
namespace Sys2Proof.Machine

/-- Ends the SVM command with a code of Table 7 of 04. -/
def State.svmDone (s : State) (op code : Nat) : State :=
  { s with svm := { s.svm with cmd := s.svm.cmd.finish op code, run := none } }

/-- R92: the boot ROM alone runs, and accepts only the firmware update commands. -/
def State.romOnly (s : State) : Bool := decide (s.dev.life = .recovery) && s.dev.romRecovery

/-- R107, R466: whether a command is accepted in the state the device is in. -/
def State.svmPermits (s : State) (op : Nat) : Bool :=
  let l := s.dev.life
  let held := decide (l = .test) || (decide (l = .boot) && s.dev.bootHeld)
    || (decide (l = .recovery) && !s.dev.romRecovery)
  let ok := match op with
    | 1 => decide (l = .unclaimed) || decide (l = .held)
    | 2 => decide (l = .recovery)
    | 3 => decide (l = .recovery) && s.svm.fwBegun
    | 4 => decide (l = .recovery) && s.svm.fwBegun
    | 5 => decide (l = .recovery)
    | 6 => s.svm.dbg.isSome
    | 8 => (decide (l = .boot) && !(s.svm.booted && decide (s.svm.svn = 0))) || (decide (l = .held) && s.tkm.ownerKey.isSome)
        || decide (l = .test) || (decide (l = .recovery) && !s.dev.romRecovery)
    | 9 => held && s.svm.packBegun
    | 0xA => held && s.svm.packBegun && decide (0 < s.svm.fill)
    | _ => (decide (l = .test) && !s.dev.testFactory) || (decide (l = .boot) && s.dev.bootHeld)
  match s.tkm.pending with
  | none => ok
  | some .session => decide (op = 6) && ok
  | some _ => false

/-! ## Test packs -/

/-- Table 9 of 16: the header's layout, MIN_FW with it; BAD_HEADER otherwise. A pack must be staged whole. -/
def packHeaderOk (h : List Byte) (fw fill : Nat) : Bool :=
  let f := fun (o n : Nat) => leAt h o n
  let vendor := decide (f 0xC 1 = 1)
  let body := f 0x14 4
  decide (f 0 4 = 0x4B505451) && decide (f 4 2 = 1) && decide (f 6 2 = 128) && (vendor || decide (f 0xC 1 = 2))
    && (if vendor then decide (f 0xD 1 < 4) && decide (1 ≤ f 0xE 2) && decide (f 0xE 2 ≤ 127) && decide (f 0x28 16 = 0)
        else decide (f 0xD 1 = 0) && decide (f 0xE 2 = 0))
    && decide (f 0x10 4 ≤ fw) && decide (body % 64 = 0) && decide (body + 4691 ≤ 65536)
    && decide ((if vendor then 0xAC0 else 0x80) ≤ body) && decide (body + 4691 ≤ fill) && decide (f 0x20 4 % 4 = 0)
    && decide (1 ≤ f 0x24 4) && decide (f 0x24 4 ≤ 60000) && decide (f 0x38 8 = 0)

/-- R468: the first check of a pack that fails. -/
def State.packCode (s : State) : Nat :=
  let m := s.svm.pack
  let h := m.readBytes 0 128
  let vendor := decide (leAt h 0xC 1 = 1)
  let body := leAt h 0x14 4
  let dg := m.readBytes body 64
  let key := if vendor then some (m.readBytes 0x80 2592) else s.tkm.ownerKey
  let signed := match key with
    | some k => (vendor || decide (keyId k = sliceAt h 0x28 16)) && Config.mldsaVerify k dg (m.readBytes (body + 64) 4627)
    | none => false
  firstCode [
    (4, !packHeaderOk h s.svm.fwVersion s.svm.fill),
    (5, !partOk (leAt h 8 2) (leAt h 0xA 2)),
    (6, vendor && !s.svm.admits (leAt h 0xD 1) (m.readBytes 0x80 2592)),
    (7, decide (digestBytes (Config.sha3 (m.readBytes 0 body)) ≠ dg)),
    (8, !signed),
    (9, vendor && decide (leAt h 0xE 2 < s.svm.fwFloor))]

/-- The blocks of the test area: sets 1 to 64 (R469). -/
def testArea : List Nat := addrs 256 16384

/-- Cores fit to run a pack: in BOOT, as GID.CORE_AVAIL will read. -/
def State.packFit (s : State) (n : Nat) : Bool := if s.dev.life = .boot then s.bootCores.getLsbD n else s.fit n

/-- R77, R470: every core's state is zeroed, and no machine stands. -/
def State.zeroAll (s : State) : State :=
  (List.range 64).foldl (fun t n => ((t.emptyCore n false).zeroSpad n).updCore n (fun c =>
      { c.zeroed with gangRole := 0, members := [], spare := false }))
    { s with ple := { s.ple with vms := [] } }

/-- R48: a factory image's machines stand while no pack runs. -/
def State.reform (s : State) : State :=
  match s.sim.image with
  | some i => if s.dev.life = .test then s.formMachines i else s
  | none => s

/-- R469: a pack that passed its checks runs on each fit core that it names. -/
def State.packStart (s : State) : State :=
  let m := s.svm.pack
  let h := m.readBytes 0 128
  let cores := (List.range 64).filter (fun n => bit (leAt h 0x18 8) n && s.packFit n)
  let s1 := (s.zeroAll).fill testArea
  let s2 := s1.store ((addrs 0x1000000 s.svm.fill).zip (m.readBytes 0 s.svm.fill))
  let s3 := cores.foldl (fun (t : State) n => t.updCore n (fun c => { c with
    run := .running
    work := .pack
    g := modAt c.g 1 (fun _ => BitVec.ofNat 64 n)
    pc := BitVec.ofNat 64 (0x100000000 + leAt h 0x20 4) })) s2
  { s3 with
    svm := { s3.svm with
      cmd := s3.svm.cmd.begin_ 0xA
      packRun := some ⟨cores, s.now + leAt h 0x24 4 * 1000, decide (leAt h 0xC 1 = 1), BitVec.ofNat 512 (leAt h 0x40 64)⟩ }
    flt := { s3.flt with testPass := 0, testFail := 0 } }

/-- R470: after a run, and at TEST_EXIT, cores are zeroed and the test area is scrub-pending. -/
def State.packClean (s : State) : State := (s.zeroAll.dirtyBlocks testArea).reform

/-- R33, R469: a core that the repair map now holds as failed is no longer fit. -/
def State.repairOut (s : State) (n : Nat) : State :=
  if s.pcm.repairMap.getLsbD n && s.fit n then (s.setFit n false).post (coreRecord n sevRecoverable) else s

/-- R469: a run ends: cores that have not halted by RUN_MS have failed. -/
def State.packFinish (s : State) : State :=
  match s.svm.packRun with
  | none => s
  | some p =>
    let s1 := p.cores.foldl (fun t n => t.packEnd n false) s
    let s2 := (List.range 64).foldl State.repairOut s1.packClean
    ({ s2 with
      svm := { s2.svm with packRun := none }
      dev := { s2.dev with bootHeldAt := s2.now } }).svmDone 0xA 0

/-- R469: a run ends when each of its cores has ended or RUN_MS has passed. -/
def execPackRunEnd (s : State) : Host.Outcome State Fault Refusal :=
  match s.svm.packRun with
  | none => .next s
  | some p => .next (if p.cores = [] ∨ p.endsAt ≤ s.now then s.packFinish else s)

/-! ## Commands -/

/-- R108: a chunk of a length may be appended up to a limit; the code otherwise. -/
def State.chunkCode (s : State) (len limit : Nat) : Nat :=
  firstCode [(2, decide (len < 64) || decide (4096 < len) || decide (len % 64 ≠ 0)), (3, decide (limit < s.svm.fill + len))]

/-- The bank not booted; with the boot ROM alone, bank B (notes/assumptions/34.md). -/
def Svm.other (v : Svm) : Nat := 1 - v.bank

/-- R107: one command that is accepted. -/
def State.svmDo (s : State) (op len : Nat) : State :=
  let v := s.svm
  let ch := v.chunk.readBytes 0 len
  match op with
  | 1 => (s.simClear.toLife .recovery).svmDone 1 0
  | 2 => ({ s with svm := { (v.setValid v.other false) with fill := 0, fwBegun := true, packBegun := false } }).svmDone 2 0
  | 3 =>
    let c := s.chunkCode len 4194304
    if c ≠ 0 then s.svmDone 3 c
    else
      ({ s with svm := { v with
        banks := modAt v.banks v.other (fun (b : Bank) => { b with bytes := b.bytes.writeBytes v.fill ch })
        fill := v.fill + len } }).svmDone 3 0
  | 4 => { s with svm := { v with cmd := v.cmd.begin_ 4, run := some .fwEnd } }
  | 5 => s.heldAll.warmBoot
  | 6 => ({ s with svm := { v with cmd := v.cmd.begin_ 6 } }).endSession
  | 8 =>
    let s1 : State := { s with
      svm := { v with fill := 0, pack := [], packBegun := true, fwBegun := false }
      dev := { s.dev with bootHeld := s.dev.bootHeld || decide (s.dev.life = .boot), bootHeldAt := s.now } }
    (if s.dev.life = .held then s1.simClear.toLife .test else s1).svmDone 8 0
  | 9 =>
    let c := s.chunkCode len 65536
    let s0 : State := { s with dev := { s.dev with bootHeldAt := s.now } }
    if c ≠ 0 then s0.svmDone 9 c
    else ({ s0 with svm := { v with pack := v.pack.writeBytes v.fill ch, fill := v.fill + len } }).svmDone 9 0
  | 0xA =>
    let c := s.packCode
    let s0 : State := { s with dev := { s.dev with bootHeldAt := s.now } }
    if c ≠ 0 then s0.svmDone 0xA c else s0.packStart
  | _ =>
    let s1 := (s.packClean).svmDone 0xB 0
    let s2 : State := { s1 with svm := { s1.svm with packBegun := false } }
    if s2.dev.life = .boot then s2.bootEnd else s2.toLife s2.restLife

/-- R107, R117: a write of SVM.CMD. -/
def State.svmCmd (s : State) (v : Nat) : State :=
  let op := bits v 0 4
  if s.svm.cmd.busy then { s with svm := { s.svm with cmd := s.svm.cmd.drop } }
  else if op = 0 ∨ op = 7 ∨ 0xB < op then s
  else if !s.svmPermits op then s.svmDone op 1
  else s.svmDo op (bits v 32 13)

/-- R109: FW_END has verified the bundle: the bank is valid at one instant, or the command ends with the failing code. -/
def State.bundleFinish (s : State) : State :=
  match s.svm.run with
  | none => s
  | some .fwEnd =>
    let c := s.svm.bundleCode (s.svm.bankMem s.svm.other) s.svm.fill
    if c ≠ 0 then s.svmDone 4 c
    else ({ s with svm := s.svm.setValid s.svm.other true }).svmDone 4 0

def execBundleChecksComplete (s : State) : Host.Outcome State Fault Refusal := .next s.bundleFinish

/-- Writes of SVM registers (Table 9 of 04). -/
def State.svmWrite (s : State) (off v m : Nat) : State :=
  match off with
  | 0x00 => s.svmCmd (v &&& m)
  | 0x08 => { s with svm := { s.svm with cmd := s.svm.cmd.clear (v &&& m) } }
  | _ => s

/-- R117: a write of SVM.CHUNK of `n` bytes at an offset of the buffer. -/
def State.svmChunk (s : State) (o n v : Nat) : State := { s with svm := { s.svm with chunk := s.svm.chunk.writeLe o n v } }

end Sys2Proof.Machine
end

