-- ==== Sys2Proof/Machine/Fault.lean ====
section
/-!
DEFINITION. The fault log block and fleet service of 16: RECHECK (R459, R460), CLEAR_LOG (R454), patrol tests (R462 to
R465), squall mode's end (R458), the SVP's stages (R457), and the block's register writes (R472).
-/
namespace Sys2Proof.Machine

/-- Ends an FLT command. -/
def State.fltDone (s : State) (op code : Nat) : State := { s with flt := { s.flt with cmd := s.flt.cmd.finish op code } }

/-! ## RECHECK -/

/-- R460: a recheck's matrix descriptor: C written at a check buffer, and no status record. -/
def chkFix (base : Nat) (raw : List Byte) : List Byte := patch (patch raw 0x28 (leBytes 8 base)) 0x70 (zeros 8)

/-- Bytes of a context for the check of RECHECK's argument; none where they do not translate for a read. -/
def State.peek (s : State) (c va len : Nat) : Option (List Byte) :=
  match (s.ctx c).held.span .other .read (vAddrs va len) with
  | .ok pas => some (s.rdAt pas)
  | _ => none

/-- The address of the grid block of FLT.ARG, its check buffers and its core (Table 7). -/
def Flt.argGrid (f : Flt) : Nat := leAt (argBytes f.arg) 0 8
def Flt.argA (f : Flt) : Nat := leAt (argBytes f.arg) 8 8
def Flt.argB (f : Flt) : Nat := leAt (argBytes f.arg) 0x10 8
def Flt.argCore (f : Flt) : Nat := leAt (argBytes f.arg) 0x18 1

/-- R459: a check buffer of `len` bytes lies in one read-write range. -/
def Ctx.chkIn (x : Ctx) (va len : Nat) : Bool :=
  let ok := fun (r : XRes Unit) => match r with | .ok _ => true | _ => false
  ok (x.held.extent .other .read va len) && ok (x.held.extent .other .write va len)

/-- R459: whether RECHECK's argument is refused with BAD_ARG. A block or descriptor that the context cannot read is none
that R459 lets through. -/
def State.recheckArgBad (s : State) (c : Nat) : Bool :=
  let f := s.flt
  decide (leAt (argBytes f.arg) 0x19 7 ≠ 0) || decide (64 ≤ f.argCore) || decide (f.argGrid % 64 ≠ 0)
    || (match s.peek c f.argGrid 64 with
      | none => true
      | some b =>
        decide (leAt b 0 1 ≠ 2) || decide (leAt b 1 1 ≠ 1)
          || (match s.peek c (leAt b 0x10 8) 128 with
            | none => true
            | some raw =>
              let d := MxD.parse raw
              let len := (d.c.extent d.m d.n).2
              let own := (MxD.extents { d with status := 0 } none).map (fun e => (e.1, e.2.1))
              decide (d.init ≠ 0) || d.c.isBx || !(s.ctx c).chkIn f.argA len || !(s.ctx c).chkIn f.argB len
                || own.any (extMeet (f.argA, len)) || own.any (extMeet (f.argB, len))
                || extMeet (f.argA, len) (f.argB, len)))

/-- R459: whether CORE is refused: a spare, not fit, in no job machine, or the only job machine's. -/
def State.recheckNoMachine (s : State) : Bool :=
  let n := s.flt.argCore
  (s.core n).spare || !s.fit n || (s.vmOf n).isNone || decide (s.ple.vms.length ≤ 1)

/-- Table 16 for RECHECK. The argument is judged by the context's ranges, so only where the context exists
(notes/assumptions/40.md). -/
def State.recheckCode (s : State) (c : Nat) : Nat :=
  let inRange := decide (c < s.img (·.maxCtx))
  firstCode [
    (1, decide (s.dev.life ≠ .service) || s.dev.frost),
    (2, !inRange || ((s.ctx c).live && s.recheckArgBad c)),
    (3, !(s.ctx c).live || (s.ctx c).killed),
    (4, s.recheckNoMachine),
    (5, decide (s.flt.recheck.phase ≠ 0) || (s.grid? 0).isSome)]

/-- Whether a recheck's run waits on a fault record. -/
def State.recheckWaits (s : State) : Bool :=
  s.xlt.unresolved.any (fun u => u.who.contains (.desc 0)) || s.xlt.unrecorded.any (fun u => u.who.contains (.desc 0))

/-- R460: starts the run of the recheck's phase: the product with C at CHK_A or CHK_B and STATUS 0, checked as a KERNEL's
is. A fixed table would name machines that R460 rules out, and is not used. -/
def State.recheckRun (s : State) : State :=
  let r := s.flt.recheck
  match s.gridOf 0 r.ctx r.grid (chkFix (if r.phase = 1 then r.chkA else r.chkB)) with
  | .ok g => s.addGrid { g with fixed := [] }
  | .stop st => s.endRecheck 4 st
  | .xlate va n => s.postXlate r.ctx va n (.desc 0) 0
  | .wait => s
  | .poison k => s.consume r.ctx 0xF 0xFF 0 0 (some k)

/-- R459, R460: RECHECK. The command ends at acceptance. -/
def State.recheck (s : State) (c : Nat) : State :=
  let code := s.recheckCode c
  if code ≠ 0 then s.fltDone 1 code
  else
    let f := s.flt
    ({ s with flt := { f with recheck := ⟨1, 0, 0, f.argCore, c, f.argGrid, f.argA, f.argB, none⟩ } }.fltDone 1 0).recheckRun

/-- R460: virtual addresses of the in-range elements of a result at a base, in order. -/
def MxD.outAddrs (d : MxD) (base : Nat) : List Nat :=
  let o := { d.c with base := base }
  (List.range d.m).flatMap (fun i => (List.range d.n).flatMap (fun j => vAddrs (o.addr i j) o.esz))

/-- What comparing two results finds. -/
inductive CmpRes where
  | equal (b : Bool)
  | wait
  | fail (st : Nat)
  | poison (sector : Nat)
  deriving DecidableEq, Repr

/-- R460: compares the result at a check buffer with C, element by element. -/
def State.recheckCmp (s : State) (chk : Nat) : CmpRes :=
  let r := s.flt.recheck
  let x := s.ctx r.ctx
  match s.gridOf 0 r.ctx r.grid (fun b => b) with
  | .ok g =>
    let d := MxD.parse g.mraw
    match x.span .other .read (d.outAddrs d.c.base), x.span .other .read (d.outAddrs chk) with
    | .ok a, .ok b =>
      match (a ++ b).find? s.bad with
      | some p => .poison (p / 32)
      | none => .equal (decide (s.rdAt a = s.rdAt b))
    | .wait, _ => .wait
    | _, .wait => .wait
    | .fault c _ _, _ => .fail (if c = 4 then stXlate else stPerm)
    | _, .fault c _ _ => .fail (if c = 4 then stXlate else stPerm)
  | .wait => .wait
  | .stop st => .fail st
  | .xlate _ _ => .fail stXlate
  | .poison k => .poison k

/-- R461: a PERMANENT verdict marks the suspect core failed; it goes at its next placement boundary. -/
def State.permanent (s : State) : State :=
  let n := s.flt.recheck.core
  let s1 := s.endRecheck 3 0
  { s1 with pcm := { s1.pcm with failed := s1.pcm.failed ||| BitVec.ofNat 64 (2 ^ n) } }.boundary

/-- R460: a run has ended with OK: steps 2 and 4. -/
def State.recheckNext (s : State) : State :=
  let r := s.flt.recheck
  match s.recheckCmp (if r.phase = 1 then r.chkA else r.chkB) with
  | .wait => s
  | .fail st => s.endRecheck 4 st
  | .poison k => s.consume r.ctx 0xF 0xFF 0 0 (some k)
  | .equal true => if r.phase = 1 then s.endRecheck 1 0 else s.permanent
  | .equal false =>
    if r.phase = 1 then { s with flt := { s.flt with recheck := { r with phase := 2, ran := none } } }.recheckRun
    else s.endRecheck 2 0

/-- R460: a recheck's run ends and is compared, or a run that waited to start starts. -/
def execRecheckRunComplete (s : State) : Host.Outcome State Fault Refusal :=
  let r := s.flt.recheck
  .next (if r.phase = 0 then s
    else
      match r.ran with
      | some st => if st ≠ stOk then s.endRecheck 4 st else s.recheckNext
      | none => if (s.grid? 0).isSome || s.recheckWaits then s else s.recheckRun)

/-! ## Commands and registers -/

/-- R454: CLEAR_LOG. -/
def State.clearLog (s : State) : State := { s with flt := s.flt.emptied }.fltDone 2 0

/-- R472: a write of FLT.CMD: while BUSY it is dropped, whatever OP it carries; else a reserved OP discards it (R7). -/
def State.fltCmd (s : State) (v : Nat) : State :=
  let op := bits v 0 4
  if s.flt.cmd.busy then { s with flt := { s.flt with cmd := s.flt.cmd.drop } }
  else if op = 0 ∨ 2 < op then s
  else if op = 1 then s.recheck (bits v 8 12)
  else s.clearLog

/-- Writes of FLT registers (Table 11 of 16). -/
def State.fltWrite (s : State) (off v m : Nat) : State :=
  let f := s.flt
  match off with
  | 0x0000 => s.fltCmd (v &&& m)
  | 0x0008 => { s with flt := { f with cmd := f.cmd.clear (v &&& m) } }
  | 0x0010 => { s with flt := { f with head := merge f.head v m % 1024 } }
  | 0x0038 => { s with flt := { f with patrolSel := merge f.patrolSel v m % 64 } }
  | _ => if 0x100 ≤ off ∧ off < 0x120 then { s with flt := { f with arg := mergeAt f.arg ((off - 0x100) / 8) v m } } else s

/-! ## The SVP -/

/-- R458: 1 s has passed in which no 10 ms brought more than 32 records: squall mode ends, with a record of its own. -/
def execSquallExit (s : State) : Host.Outcome State Fault Refusal :=
  .next (if s.flt.squall ∧ s.flt.heavyAt + 1000000 ≤ s.now then { s with flt := { s.flt with squall := false } }.post (LogRec.mk0 0x0F sevInfo 2 0x0F) else s)

/-- The SVP's total load in thousandths. -/
def Flt.svpTotal (f : Flt) : Nat := f.svpLoad.sum

/-- A span of the SVP's load that holds now began when it did, or now. -/
def spanSince (holds : Bool) (since : Option Nat) (now : Nat) : Option Nat := if holds then some (since.getD now) else none

/-- Whether a span has lasted a time. -/
def spanPast (since : Option Nat) (len now : Nat) : Bool := since.any (fun t => decide (t + len ≤ now))

/-- R457: the stage that the spans at 900 and 700 thousandths lead to: 10 ms over 900 enter the next stage, 100 ms under 700
leave one, and each change starts its span again. -/
def Flt.svpMove (f : Flt) (now : Nat) : Flt :=
  if spanPast f.svpOver 10000 now && decide (f.svpStage < 2) then { f with svpStage := f.svpStage + 1, svpOver := some now }
  else if spanPast f.svpUnder 100000 now && decide (0 < f.svpStage) then
    { f with svpStage := f.svpStage - 1, svpUnder := some now }
  else f

/-- R457: the SVP has measured its loads by duty, containment and the four others, and enters or leaves a stage when its
timers say so. -/
def execSvpLoadStage (containment : Nat) (others : List Nat) (s : State) : Host.Outcome State Fault Refusal :=
  let f := { s.flt with svpLoad := (List.range 5).map (fun i => (containment :: others).getD i 0 % 1024) }
  .next { s with flt := { f with
    svpOver := spanSince (decide (900 < f.svpTotal)) f.svpOver s.now
    svpUnder := spanSince (decide (f.svpTotal < 700)) f.svpUnder s.now }.svpMove s.now }

/-! ## Patrol tests -/

/-- Hours of the image in force in the clock's microseconds. -/
def State.patrolHours (s : State) (f : Image → Nat) : Nat := 3600000000 * s.img f

/-- R462: INTERVAL_H hours have passed since a fit core's last test. In Frost as well. -/
def execPatrolDue (n : Nat) (s : State) : Host.Outcome State Fault Refusal :=
  .next (if s.dev.life = .service ∧ s.fit n ∧ !(s.patrol n).due ∧ !(s.patrol n).running
      ∧ (s.patrol n).since + s.patrolHours (·.interval) ≤ s.now then
    (s.updPatrol n (fun p => { p with due := true, dueAt := s.now, ran := [], saved := [] })).boundary
  else s)

/-- R465: a due test has not begun by its deadline. -/
def execPatrolDeadline (n : Nat) (s : State) : Host.Outcome State Fault Refusal :=
  .next (if s.dev.life = .service ∧ (s.patrol n).due ∧ !(s.patrol n).running
      ∧ (s.patrol n).dueAt + s.patrolHours (·.deadline) ≤ s.now then
    s.updPatrol n (fun p => { p with overdue := true })
  else s)

/-- R464: a patrol test ends: the core's state is zeroed and its role generation rises; it passes and becomes a spare or
returns to its machine, or is marked failed. -/
def State.patrolEnd (s : State) (n : Nat) (pass : Bool) : State :=
  let b : BitVec 64 := BitVec.ofNat 64 (2 ^ n)
  let s1 := ((s.zeroCores [n]).raiseGen n).updPatrol n (fun _ =>
    { Patrol.reset with since := s.now, last := if pass then 1 else 2 })
  let rec_ := (LogRec.mk0 0xB (if pass then sevInfo else sevRecoverable) (if pass then 1 else 2) 1).withIndex n
  if pass then
    let s2 := { s1 with pcm := { s1.pcm with failed := s1.pcm.failed &&& ~~~b } }.setFit n true
    ((s2.updCore n (fun c => { c with spare := (s2.vmOf n).isNone })).post rec_).boundary
  else
    ({ s1 with pcm := { s1.pcm with failed := s1.pcm.failed ||| b } }.standIn n).post rec_ |>.boundary

/-- R464: the patrol test of a core ends. -/
def execPatrolTestEnd (n : Nat) (pass : Bool) (s : State) : Host.Outcome State Fault Refusal :=
  .next (if (s.patrol n).running then s.patrolEnd n pass else s)

end Sys2Proof.Machine
end

