-- ==== Sys2Proof/Machine/Pcm.lean ====
section
/-!
DEFINITION. The power manager of 17: temperature samples and the thermal trip (R343, R508), droops (R486, R500), the choice of
power states (R477 to R482), the cap and thermal control of frequencies (R483 to R485), timers (R475, R476), and the
registers of PCM (R495). The blocks of BAR0 and their islands stand first.
-/
namespace Sys2Proof.Machine

/-! ## Blocks -/

/-- The blocks of Table 1 of 19, with the instance where there are several. -/
inductive Block where
  | gid
  | sim
  | tkm
  | svm
  | qmg
  | xlt
  | ple
  | mcu (s : Nat)
  | lnk (p : Nat)
  | cle
  | twc
  | pcm
  | flt
  | core (n : Nat)
  deriving DecidableEq, Repr

/-- R512: the block of a BAR0 offset and the offset in it; none for a reserved region. -/
def blockAt (off : Nat) : Option (Block × Nat) :=
  let o := off % 0x100000
  if 0x1000000 ≤ off then (if off < 0x2000000 then some (.core ((off - 0x1000000) / 0x40000), off % 0x40000) else none)
  else
    match off / 0x100000 with
    | 0 => some (.gid, o)
    | 1 => some (.sim, o)
    | 2 => some (.tkm, o)
    | 3 => some (.svm, o)
    | 4 => some (.qmg, o)
    | 5 => some (.xlt, o)
    | 6 => some (.ple, o)
    | 8 => if o < 0x80000 then some (.mcu (o / 0x10000), o % 0x10000) else none
    | 10 => some (.lnk (o / 0x10000), o % 0x10000)
    | 12 => some (.cle, o)
    | 13 => some (.twc, o)
    | 14 => some (.pcm, o)
    | 15 => some (.flt, o)
    | _ => none

/-- The island of a block (notes/assumptions/42.md). -/
def Block.island : Block → Nat
  | .gid => 17
  | .sim => 16
  | .tkm => 16
  | .svm => 16
  | .qmg => 15
  | .xlt => 16
  | .ple => 16
  | .mcu i => 10 + i / 2
  | .lnk _ => 14
  | .cle => 14
  | .twc => 14
  | .pcm => 17
  | .flt => 17
  | .core n => n / 8

/-- Blocks that serve a write in Frost without leaving it: their own commands leave Frost, are refused in it, or need no
gated island (R478, R480, Table 13 of 12, Table 16 of 16). -/
def Block.inFrost : Block → Bool
  | .gid => true
  | .sim => true
  | .tkm => true
  | .svm => true
  | .mcu _ => true
  | .pcm => true
  | .flt => true
  | _ => false

/-! ## Samples -/

/-- The present reading of a monitor (Table 9 of 17): a temperature or a droop; 0 beyond its kind's range. -/
def State.monitor (s : State) (kind i : Nat) : Int :=
  match kind with
  | 0 => s.pcm.dieTemp.getD i 0
  | 1 => if i < 96 then ((s.mcu.getD (i / 12) Mcu.reset).dieTemp.getD (i % 12) 0).toInt else 0
  | 2 => s.pcm.droopMv.getD i 0
  | _ => 0

/-- The selected monitor's reading. -/
def State.selected (s : State) : Int := s.monitor s.pcm.monKind s.pcm.monIndex

/-- The peak since MON_SEL was written rises with the reading. -/
def State.peaked (s : State) : State := { s with pcm := { s.pcm with monPeak := max s.pcm.monPeak s.selected } }

/-- R508: every island but A stops, and nothing more is written; only POR_N ends it (notes/assumptions/41.md). -/
def State.trip (s : State) : State :=
  let s1 := s.dropHost.destroyAll.dropLinks.endImage
  { s1 with
    dev := { s1.dev with life := .off, frost := false, thermTrip := true, dbgOpen := false }
    ports := s1.ports.map (fun (p : Port) => { p with st := .off })
    sim := { s1.sim with cmd := s1.sim.cmd.stop, run := none }
    tkm := { s1.tkm with cmd := s1.tkm.cmd.stop, checking := none, scrubActive := false }
    svm := { s1.svm with cmd := s1.svm.cmd.stop, run := none, packRun := none, dbg := none }
    flt := { s1.flt with recheck := { s1.flt.recheck with phase := 0, ran := none } }
    pcm := { s1.pcm with
      frostEntry := false
      frostWaking := false
      softBusy := false
      held := []
      islands := (List.range 18).map (fun i => if i = 17 then s1.island i else { s1.island i with st := .off, waking := false }) } }

/-- A DROOP record for an island. -/
def droopRecord (i : Nat) : LogRec := (LogRec.mk0 0xD sevInfo 0 0x11).withIndex i

/-- R500: a regulator asserts PMB_ALERT_N. -/
def execPmbAlert (i : Nat) (s : State) : Host.Outcome State Fault Refusal :=
  .next (if s.dev.life = .off ∨ 8 ≤ i then s
    else { s with dev := { s.dev with pmbAlertN := false } }.post (droopRecord i))

/-- R486: a droop monitor reads `mv` below the set voltage of its island's supply. At 10 % or more a DROOP record is written,
at most one for each island in a second; the stretch of the clock is timing alone. -/
def State.droop (s : State) (i mon mv : Nat) : State :=
  let p := s.pcm
  let s1 : State := { s with pcm := { p with
    droopMv := modAt p.droopMv mon (fun _ => mv)
    worstDroop := modAt p.worstDroop mon (max mv) } }.peaked
  let x := s.island i
  let quiet : Bool := match x.droopAt with | some t => decide (t + 1000000 ≤ s.now) | none => true
  if x.mv ≤ 10 * mv ∧ 0 < mv ∧ quiet = true then (s1.updIsland i (fun y => { y with droopAt := some s.now })).post (droopRecord i)
  else s1

/-- A droop on the supply of a C, F or M island. -/
def execDroop (i mon mv : Nat) (s : State) : Host.Outcome State Fault Refusal :=
  .next (if s.dev.life = .off ∨ 14 ≤ i ∨ 144 ≤ mon then s else s.droop i mon mv)

/-! ## Idleness and power states -/

/-- R477: a C island. -/
def State.idleC (s : State) (k : Nat) : Bool :=
  (addrs (8 * k) 8).all (fun n =>
    let c := s.core n
    decide (c.work = .none) && c.mx.jobs.isEmpty && !c.mx.drizzling && c.sce.all Sce.idle)
    && s.ple.vms.all (fun m => !m.busy || m.members.all (fun n => decide (n / 8 ≠ k)))
    && (decide (s.flt.recheck.phase = 0) || decide (s.flt.recheck.core / 8 ≠ k))

/-- R477: an F island: its half's C islands are in Lull or deeper, and no request is pending for its slices. -/
def State.idleF (s : State) (f : Nat) : Bool :=
  (addrs (4 * f) 4).all (fun k => decide ((s.island k).st ≠ .running)) && s.host.heldReqs.isEmpty && s.host.bisnp.isEmpty

/-- R477: an M island: the controllers of its two stacks have no transaction outstanding. -/
def State.idleM (s : State) (j : Nat) : Bool :=
  [2 * j, 2 * j + 1].all (fun i =>
    let m := s.stack i
    m.normal.isEmpty && m.narrow.isEmpty && m.waiting.isEmpty && m.ch.all (fun c => c.buffered.isEmpty))

/-- R477: the L island between transfers. -/
def State.idleL (s : State) : Bool := s.ports.all (fun p => p.queue.isEmpty && p.unacked.isEmpty)

/-- Whether the queue manager has a descriptor or a queue's state to read, or a descriptor that may start: the transfer or
the start comes before a gated state (R393, R396; notes/assumptions/107.md). -/
def State.toServe (s : State) : Bool :=
  s.host.busMaster && !s.host.d3hot && (s.nextQueue.isSome || !s.qmg.reading.isEmpty) || s.qmg.descs.any s.canStart

/-- R477: the H island between transfers. -/
def State.idleH (s : State) : Bool :=
  s.host.heldReqs.isEmpty && s.qmg.ended.isEmpty && s.qmg.descs.all (fun d => decide (d.st ≠ .reading)) && !s.toServe

/-- Whether a command of the blocks of R479 is BUSY. -/
def State.cmdBusy (s : State) : Bool :=
  s.sim.cmd.busy || s.tkm.cmd.busy || s.svm.cmd.busy || s.xlt.cmd.busy || s.qmg.cmd.busy || s.twc.cmd.busy || s.flt.cmd.busy
    || s.mcu.any (fun m => m.cmd.busy)

/-- R482: whether a held write is for a block of island i. -/
def State.heldFor (s : State) (i : Nat) : Bool :=
  s.pcm.held.any (fun h => match blockAt h.off with | some (b, _) => decide (b.island = i) | none => false)

/-- R477: whether an island is idle. Island A never is, nor one that a held write waits for (notes/assumptions/107.md). -/
def State.islandIdle (s : State) (i : Nat) : Bool :=
  if s.heldFor i then false
  else if i < 8 then s.idleC i
  else if i < 10 then s.idleF (i - 8)
  else if i < 14 then s.idleM (i - 10)
  else if i = 14 then s.idleL
  else if i = 15 then s.idleH
  else if i = 16 then !s.sim.cmd.busy && !s.tkm.cmd.busy && !s.svm.cmd.busy
  else false

/-- The earliest expiry of an armed timer. -/
def Pcm.nextDue (p : Pcm) : Option Nat :=
  (p.timers.filterMap (·.due)).foldl (fun (a : Option Nat) t => match a with | none => some t | some x => some (min x t)) none

/-- R477: the gap estimate from an instant of idleness, in microseconds. -/
def State.gap (s : State) (since : Nat) : Nat :=
  match s.pcm.nextDue with
  | some t => t - s.now
  | none => s.now - since

/-- Whether a placement move is in progress. -/
def State.moveRuns (s : State) : Bool := s.ple.moves.any (·.started)

/-- R478, R479, Table 1 and Table 2 of 17: the deepest state of an idle island. -/
def State.deepest (s : State) (i : Nat) : IslSt :=
  let g := s.gap (s.island i).since
  let calm := decide (i < 8) || (decide (i < 10) && !s.moveRuns && !s.cmdBusy)
  if g < 2 then .running
  else if calm && decide (400 ≤ g) then .calm
  else .lull

def IslSt.depth : IslSt → Nat
  | .running => 0
  | .lull => 1
  | .calm => 2
  | .off => 3

/-- R482: the microseconds by which a wake comes before an armed timer's expiry. -/
def IslSt.wakeTime : IslSt → Nat
  | .running => 0
  | .lull => 1
  | .calm => 30
  | .off => 3000

/-- R482: whether the wake for the next timer is due. -/
def State.wakeDue (s : State) (t : Nat) : Bool := match s.pcm.nextDue with | some d => decide (d ≤ s.now + t) | none => false

/-- R478: one island: a busy one restarts its idle time, an idle one goes deeper, and a gated one begins to wake in time for
a timer. -/
def State.selectIsland (s : State) (i : Nat) : State :=
  let x := s.island i
  if x.st = .running ∧ s.islandIdle i = false then s.updIsland i (fun y => { y with since := s.now })
  else if x.waking then s
  else if x.st ≠ .running ∧ s.wakeDue x.st.wakeTime then s.updIsland i (fun y => { y with waking := true })
  else
    let d := s.deepest i
    if x.st.depth < d.depth ∧ s.islandIdle i then s.updIsland i (fun y => { y with st := d }) else s

/-- R480: whether the device enters Frost. -/
def State.frostDue (s : State) : Bool :=
  s.working
    && (List.range 8).all s.idleC
    && s.qmg.descs.all (fun d => decide (d.st = .fetched) || (decide (d.type = tyTimer) && decide (d.st = .running)))
    && s.cle.colls.isEmpty && s.twc.ckpts.isEmpty && s.twc.run.isNone && !s.moveRuns
    && s.flt.patrol.all (fun p => !p.running) && decide (s.flt.recheck.phase = 0)
    && !s.cmdBusy && !s.toServe && s.pcm.held.isEmpty && s.host.heldReqs.isEmpty
    && decide (50000 ≤ s.gap ((s.pcm.islands.map (·.since)).foldl max 0))

/-- R478, R482: what the power manager does each microsecond: islands go deeper or begin to wake, Frost entry or the early
wake from Frost begins. -/
def State.powerSelect (s : State) : State :=
  if s.dev.frost then
    (if s.wakeDue 3000 then { s with pcm := { s.pcm with frostWaking := true } } else s)
  else if s.pcm.frostEntry then s
  else if s.frostDue then { s with pcm := { s.pcm with frostEntry := true } }
  else (List.range 17).foldl State.selectIsland s

def execPowerStateSelect (s : State) : Host.Outcome State Fault Refusal :=
  .next (if s.dev.life = .service then s.powerSelect else s)

/-- R480: Frost entry completes; an event that came during it begins the wake at once. -/
def execFrostEntryComplete (s : State) : Host.Outcome State Fault Refusal := .next (if s.pcm.frostEntry then s.enterFrost else s)

/-- R481, R482: the wake from Frost completes. -/
def execDeviceWakeComplete (s : State) : Host.Outcome State Fault Refusal :=
  .next (if s.dev.frost && s.pcm.frostWaking then s.leaveFrost else s)

/-- R482: an island is awake from Lull or Calm; from Frost the device wakes as a whole. -/
def execIslandWakeComplete (i : Nat) (s : State) : Host.Outcome State Fault Refusal :=
  .next (if (s.island i).waking && decide ((s.island i).st ≠ .off) then (s.updIsland i (Island.awake s.now)).serveHost else s)

/-! ## Power and frequency -/

/-- R484: a measurement of the 18 islands and the 8 stacks, in 0.1 W. The last 1 ms is kept. -/
def execPowerMeasure (powers : List Nat) (s : State) : Host.Outcome State Fault Refusal :=
  let x := (List.range 26).map (fun i => powers.getD i 0 % 2 ^ 24)
  .next (if s.dev.life = .off then s else { s with pcm := { s.pcm with samples := (x :: s.pcm.samples).take 100 } })

/-- The hottest compute-die sensor of a C island. -/
def State.islandHot (s : State) (k : Nat) : Int :=
  ((List.range 96).filter (fun i => decide (Config.sensorIsland i = k))).foldl (fun a i => max a (s.pcm.dieTemp.getD i 0)) (-32768)

/-- FMIN_MHZ of a cluster. -/
def State.fminOf (s : State) (k : Nat) : Nat := match s.sim.image with | some i => i.fmin.getD k 400 | none => 400

/-- R483: an island at a lower frequency and its voltage. -/
def Island.lowered (k f : Nat) (x : Island) : Island := { x with mhz := f, mv := Config.voltMv k f, raise := none }

/-- R485: islands at 110 °C or more go to FMIN at once; THERM_LIMIT follows the readings. -/
def State.hotNow (s : State) : State :=
  let s1 := (List.range 8).foldl (fun (t : State) k =>
    if 880 ≤ t.islandHot k ∧ t.fminOf k < (t.island k).mhz then t.updIsland k (Island.lowered k (t.fminOf k)) else t) s
  { s1 with pcm := { s1.pcm with
    thermLimit := (List.range 8).any (fun k => decide (800 ≤ s1.islandHot k) && decide ((s1.island k).mhz < s1.ceiling k)) } }

/-- R343, R485, R508: a sample of the 96 compute-die sensors and the 96 DRAM dies, in units of 0.125 °C. -/
def State.thermalSample (s : State) (die dram : List Int) : State :=
  let d := (List.range 96).map (fun i => die.getD i 0)
  let m := (List.range 96).map (fun i => dram.getD i 0)
  let s1 : State := { s with pcm := { s.pcm with dieTemp := d } }
  if d.any (fun t => decide (960 ≤ t)) || m.any (fun t => decide (880 ≤ t)) then s1.trip.peaked
  else ((List.range 8).foldl (fun t i => t.sampleStack i ((m.drop (12 * i)).take 12)) s1).hotNow.peaked

/-- The always-on island has sampled the sensors. -/
def execThermalSample (die dram : List Int) (s : State) : Host.Outcome State Fault Refusal :=
  .next (if s.dev.life = .off then s else s.thermalSample die dram)

/-- R484, R485: whether an island is lowered by 25 MHz now. -/
def State.lowers (s : State) (excess : Bool) (k : Nat) : Bool :=
  ((excess && !s.idleC k) || decide (800 ≤ s.islandHot k)) && decide (s.fminOf k < (s.island k).mhz)

/-- R484, R485: the lowerings of one period. An island at 110 °C goes to FMIN at once. -/
def State.lowerAll (s : State) (excess : Bool) : State :=
  (List.range 8).foldl (fun t k =>
    if 880 ≤ t.islandHot k then t.updIsland k (Island.lowered k (t.fminOf k))
    else if s.lowers excess k then t.updIsland k (fun x => Island.lowered k (max (t.fminOf k) (x.mhz - 25)) x)
    else t) s

/-- R484: the island that is raised: the lowest frequency first, the lowest index among equals, below its ceiling and not
held by its temperature. -/
def State.raiseNext (s : State) : Option Nat :=
  (List.range 8).foldl (fun (b : Option Nat) k =>
    if (s.island k).mhz < s.ceiling k ∧ (s.island k).raise.isNone ∧ s.islandHot k < 800 then
      (match b with
      | none => some k
      | some j => if (s.island k).mhz < (s.island j).mhz then some k else b)
    else b) none

/-- R483, R484: a raise: the voltage first, the frequency when it has settled. -/
def State.raiseOne (s : State) : State :=
  match s.raiseNext with
  | none => s
  | some k =>
    let f := min (s.ceiling k) ((s.island k).mhz + 25)
    s.updIsland k (fun x => { x with mv := max x.mv (Config.voltMv k f), raise := some f })

/-- R484, R485: what the power manager does each 100 µs. -/
def State.capControl (s : State) (cap : Nat) : State :=
  let avg := s.pcm.avgAll
  let excess := decide (10 * cap < avg)
  let below := decide (100 * avg < 98 * (10 * cap))
  let since := if below then (match s.pcm.belowSince with | some t => some t | none => some s.now) else none
  let s1 : State := { s with pcm := { s.pcm with belowSince := since } }
  let s2 := s1.lowerAll excess
  let s3 := match since with | some t => if t + 1000 ≤ s.now then s2.raiseOne else s2 | none => s2
  { s3 with pcm := { s3.pcm with
    capUnmet := excess && (List.range 8).all (fun k => s3.idleC k || decide ((s3.island k).mhz ≤ s3.fminOf k))
    thermLimit := (List.range 8).any (fun k => decide (800 ≤ s3.islandHot k) && decide ((s3.island k).mhz < s3.ceiling k)) } }

def execCapControl (s : State) : Host.Outcome State Fault Refusal :=
  .next (match s.sim.image with | some i => if s.dev.frost then s else s.capControl i.capW | none => s)

/-- R483: a voltage raise settles and the frequency follows it. -/
def execVoltageSettled (k : Nat) (s : State) : Host.Outcome State Fault Refusal :=
  .next (s.updIsland k (fun x => match x.raise with | some f => { x with mhz := f, raise := none } | none => x))

/-! ## Registers -/

/-- R476: a driver write of a timer: its MICROS arm or disarm it when they are written, and EXPIRED clears. A timer that a
descriptor holds takes no write. -/
def State.timerWrite (s : State) (t v m : Nat) : State :=
  { s with pcm := { s.pcm with timers := modAt s.pcm.timers t (fun (x : CTimer) =>
    if x.held.isSome then x
    else { x with
      due := if m % 2 ^ 32 = 0 then x.due else if v % 2 ^ 32 = 0 then none else some (s.now + v % 2 ^ 32)
      expired := x.expired && !bit (v &&& m) 32 }) } }

/-- A write of MON_SEL selects a monitor and restarts its peak; the reserved KIND discards the write (R7). -/
def State.monSelWrite (s : State) (v m : Nat) : State :=
  let w := merge (s.pcm.monKind * 256 + s.pcm.monIndex) v m
  if bits w 8 2 = 3 then s else
  let s1 : State := { s with pcm := { s.pcm with monKind := bits w 8 2, monIndex := bits w 0 8 } }
  { s1 with pcm := { s1.pcm with monPeak := s1.selected } }

/-- Writes of PCM registers (Table 7 of 17). -/
def State.pcmWrite (s : State) (off v m : Nat) : State :=
  if off = 0 then (if m % 256 = 0 then s else s.pcmReset (v &&& m))
  else if off = 8 then { s with pcm := { s.pcm with resetRefused := s.pcm.resetRefused && !bit (v &&& m) 18 } }
  else if off = 0x18 then s.monSelWrite v m
  else if 0x200 ≤ off ∧ off < 0x280 then s.timerWrite ((off - 0x200) / 8) v m
  else s

/-! ## The clock -/

/-- R169: a microsecond of the core's work for a context: CYCLES, and STEWARD at Steward level, rise by what passes. -/
def Core.ticked (c : Core) (draw : Nat) (runs : Bool) : Core :=
  if c.ctxValid && runs then c.timedBy draw (if c.steward then [0, 15] else [0]) else c

/-- The model's clock advances by one microsecond, in which a free number of SRAM entries has been corrected (R446;
notes/assumptions/4.md). -/
def State.tick (s : State) : State :=
  { s with
    now := s.now + 1
    free := s.free + 1
    flt := { s.flt with sramCe := s.flt.sramCe + Config.freePmc s.free 16 }
    cores := (List.range s.cores.length).map (fun n =>
      (s.core n).ticked s.free (decide ((s.island (cIsland n)).st = .running) && !s.dev.frost)) }

end Sys2Proof.Machine
end

