-- ==== Sys2Proof/Machine/Bar.lean ====
section
/-!
DEFINITION. Writes of BAR0 (R5, R6, R512 to R516) and doorbells of BAR2 (R391): which block an offset lies in, whether it
answers, whether its island is gated so that the write is held (R482), and the write itself. The rows that are writes of
one register are calls of the one write.
-/
namespace Sys2Proof.Machine

/-! ## Which blocks answer -/

/-- R516: whether a block answers. -/
def State.answers (s : State) (b : Block) : Bool :=
  let boot := match b with | .gid => true | .svm => true | _ => false
  let out := match b with | .gid => true | .sim => true | .tkm => true | .svm => true | .pcm => true | .flt => true | _ => false
  let rom := match b with | .gid => true | .svm => true | .flt => true | _ => false
  match s.dev.life with
  | .off => false
  | .boot => boot
  | .service => true
  | .recovery => if s.dev.romRecovery then rom else out
  | _ => out

/-- Whether a write of a block must wait for a wake: its island is gated, or the device is in or entering Frost (R482). -/
def State.gated (s : State) (b : Block) : Bool :=
  decide ((s.island b.island).st ≠ .running) || ((s.dev.frost || s.pcm.frostEntry) && !b.inFrost)

/-! ## A write -/

/-- R8, R32: writes of GID: STATE_CHANGED and FAULT_NEW are RW1C. -/
def State.gidWrite (s : State) (off v m : Nat) : State :=
  if off = 0x10 then
    { s with dev := { s.dev with
      stateChanged := s.dev.stateChanged && !bit (v &&& m) 9
      faultNew := s.dev.faultNew && !bit (v &&& m) 8 } }
  else s

/-- R170: writes of a core's scalar registers: a write of 1 to PMC_RESET zeroes its counters. -/
def State.coreRegWrite (s : State) (n off v m : Nat) : State :=
  if off = 8 then (if bit (v &&& m) 0 then s.updCore n (fun c => { c with pmc := List.replicate 16 0 }) else s)
  else if off < 0x3000 then s.mxWrite n off v m
  else s.sceWrite n off v m

/-- R5, R514: a write of a block that answers: `o` is the byte offset in the block. A 32-bit write addresses half of a
register; the three byte buffers take their bytes. -/
def State.blockWrite (s : State) (b : Block) (o size v : Nat) : State :=
  let r := o / 8 * 8
  let sh := if size = 4 then 32 * (o % 8 / 4) else 0
  let w := (v % 2 ^ (8 * size)) <<< sh
  let m := (2 ^ (8 * size) - 1) <<< sh
  match b with
  | .gid => s.gidWrite r w m
  | .sim => if 0x1000 ≤ o ∧ o < 0x2000 then s.simChunk (o - 0x1000) size v else s.simWrite r w m
  | .tkm => if 0x1000 ≤ o ∧ o < 0x3000 then s.tkmReq (o - 0x1000) size v else s.tkmWrite r w m
  | .svm => if 0x1000 ≤ o ∧ o < 0x2000 then s.svmChunk (o - 0x1000) size v else s.svmWrite r w m
  | .qmg => s.qmgWrite r w m
  | .xlt => s.xltWrite r w m
  | .ple => s.pleWrite r w m
  | .mcu i => s.mcuWrite i r w m
  | .lnk p => s.lnkWrite p r w m
  | .cle => s.cleWrite r w m
  | .twc => s.twcWrite r w m
  | .pcm => s.pcmWrite r w m
  | .flt => s.fltWrite r w m
  | .core n => s.coreRegWrite n r w m

/-- Whether the host's accesses reach the BARs: out of reset and in D0 (R381). -/
def State.decodes (s : State) : Bool := s.alive && !s.host.d3hot

/-- R5, R6: sizes and alignment that BAR0 accepts. -/
def barOk (off size : Nat) : Bool := (decide (size = 4) || decide (size = 8)) && decide (off % size = 0)

/-- R391: a write of BAR2: doorbell offset 0x00 takes SQ_TAIL from a 32-bit write or the low half of a 64-bit one, and 0x08
takes CQ_HEAD from a 32-bit write; any other is discarded. A doorbell wakes the device (R393, R482). -/
def State.bar2Write (s : State) (off size v : Nat) : State :=
  if !s.decodes || decide (s.dev.life ≠ .service) || decide (2 ^ 24 ≤ off) then s
  else
    let c := off / 4096
    let slot := off / 64 % 64
    let w := v % 2 ^ 32
    if off % 64 = 0 ∧ (size = 4 ∨ size = 8) then (s.wakeDevice.wakeIsland 15).ringTail c slot w
    else if off % 64 = 8 ∧ size = 4 then (s.wakeDevice.wakeIsland 15).ringHead c slot w
    else s

/-- Whether BAR4 is served: not before step 8 of boot, nor by the boot ROM alone (R92, R94). -/
def State.bar4 (s : State) : Bool := s.decodes && decide (s.dev.life ≠ .boot) && !s.romOnly

/-- A dword of an MSI-X table entry is written: address, upper address, data, vector control. -/
def MsixEntry.wr (e : MsixEntry) (k v : Nat) : MsixEntry :=
  match k with
  | 0 => { e with addr := e.addr / 2 ^ 32 * 2 ^ 32 + v }
  | 1 => { e with addr := e.addr % 2 ^ 32 + v * 2 ^ 32 }
  | 2 => { e with data := v }
  | _ => { e with mask := bit v 0 }

/-- R382: a write of BAR4: the MSI-X table takes it. The CXL component registers follow CXL 3.1, and what matters of them has
rows of its own. -/
def State.bar4Write (s : State) (off size v : Nat) : State :=
  if !s.bar4 || !((decide (size = 4) || decide (size = 8)) && decide (off % size = 0)) then s
  else if 0x10000 ≤ off ∧ off < 0x18000 then
    let put := fun (h : HostIf) (o w : Nat) => { h with
      msixTable := Tab.upd MsixEntry.none h.msixTable ((o - 0x10000) / 16) (fun e => e.wr (o % 16 / 4) w) }
    let h1 := put s.host off (v % 2 ^ 32)
    { s with host := (if size = 8 then put h1 (off + 4) (v / 2 ^ 32 % 2 ^ 32) else h1).unmasked }
  else s

/-- R482: a write is held, and its island begins to wake, or the device where Frost gates the block. -/
def State.holdWrite (s : State) (b : Block) (off size v : Nat) : State :=
  let s1 : State := { s with pcm := { s.pcm with held := s.pcm.held ++ [⟨off, size, v⟩] } }
  if (s.dev.frost || s.pcm.frostEntry) && !b.inFrost then s1.wakeDevice else s1.wakeIsland b.island

/-- A write of BAR0. -/
def State.barWrite (s : State) (off size v : Nat) : State :=
  if !s.decodes || !barOk off size then s
  else
    match blockAt off with
    | none => s
    | some (b, o) =>
      if !s.answers b then s
      else if s.gated b then s.holdWrite b off size v
      else s.blockWrite b o size v

/-- R482: the oldest held write is applied once its island is awake; a block that answers no more discards it. -/
def State.heldApply (s : State) : State :=
  match s.pcm.held with
  | [] => s
  | h :: r =>
    let s1 : State := { s with pcm := { s.pcm with held := r } }
    match blockAt h.off with
    | none => s1
    | some (b, o) =>
      if !s.answers b then s1
      else if s.gated b then s
      else s1.blockWrite b o h.size h.value

/-- A write of BAR0, BAR2 or BAR4. -/
def execRegisterWrite (place : BarPlace) (size v : Nat) (s : State) : Host.Outcome State Fault Refusal :=
  .next (match place.bar with
    | 0 => s.barWrite place.off size v
    | 2 => s.bar2Write place.off size v
    | 4 => s.bar4Write place.off size v
    | _ => s)
def execHeldAccessApply (s : State) : Host.Outcome State Fault Refusal := .next s.heldApply

/-! ## Structure image (R41 to R56) -/

def execClear (s : State) : Host.Outcome State Fault Refusal := .next (s.barWrite 0x100000 8 1)
def execDeposit (s : State) : Host.Outcome State Fault Refusal := .next (s.barWrite 0x100000 8 2)
def execVerify (s : State) : Host.Outcome State Fault Refusal := .next (s.barWrite 0x100000 8 3)
def execCommit (s : State) : Host.Outcome State Fault Refusal := .next (s.barWrite 0x100000 8 4)
def execRelease (s : State) : Host.Outcome State Fault Refusal := .next (s.barWrite 0x100000 8 5)

/-- R56: a write of SIM.CHUNK. -/
def execSimChunkWrite (o size v : Nat) (s : State) : Host.Outcome State Fault Refusal :=
  .next (if o < 0x1000 then s.barWrite (0x101000 + o) size v else s)

/-! ## Trust and key manager (R64 to R83) -/

def execSubmit (s : State) : Host.Outcome State Fault Refusal := .next (s.barWrite 0x200000 8 1)

/-- R66: SUBMIT while TKM.REQ holds a request of a type; nothing for another type (notes/assumptions/7.md). -/
def State.submitAs (s : State) (ty : Nat) : State := if s.tkm.req.readLe 4 2 = ty then s.barWrite 0x200000 8 1 else s

def execClaim (s : State) : Host.Outcome State Fault Refusal := .next (s.submitAs 1)
def execTransfer (s : State) : Host.Outcome State Fault Refusal := .next (s.submitAs 2)
def execRenounce (s : State) : Host.Outcome State Fault Refusal := .next (s.submitAs 3)
def execReadImage (s : State) : Host.Outcome State Fault Refusal := .next (s.submitAs 4)
def execReadT2 (s : State) : Host.Outcome State Fault Refusal := .next (s.submitAs 5)
def execDebugToken (s : State) : Host.Outcome State Fault Refusal := .next (s.submitAs 6)
def execRespRelease (s : State) : Host.Outcome State Fault Refusal := .next (s.barWrite 0x200000 8 2)

/-- R83: a write of TKM.REQ. -/
def execTkmReqWrite (o size v : Nat) (s : State) : Host.Outcome State Fault Refusal :=
  .next (if o < 0x2000 then s.barWrite (0x201000 + o) size v else s)

/-! ## Service mailbox (R107, R117, R466) -/

def execEnterRecovery (s : State) : Host.Outcome State Fault Refusal := .next (s.barWrite 0x300000 8 1)
def execFwBegin (s : State) : Host.Outcome State Fault Refusal := .next (s.barWrite 0x300000 8 2)
def execFwChunk (len : Nat) (s : State) : Host.Outcome State Fault Refusal :=
  .next (s.barWrite 0x300000 8 (3 + fld (len % 8192) 32))
def execFwEnd (s : State) : Host.Outcome State Fault Refusal := .next (s.barWrite 0x300000 8 4)
def execExitRecovery (s : State) : Host.Outcome State Fault Refusal := .next (s.barWrite 0x300000 8 5)
def execDebugClose (s : State) : Host.Outcome State Fault Refusal := .next (s.barWrite 0x300000 8 6)
def execPackBegin (s : State) : Host.Outcome State Fault Refusal := .next (s.barWrite 0x300000 8 8)
def execPackChunk (len : Nat) (s : State) : Host.Outcome State Fault Refusal :=
  .next (s.barWrite 0x300000 8 (9 + fld (len % 8192) 32))
def execPackRun (s : State) : Host.Outcome State Fault Refusal := .next (s.barWrite 0x300000 8 0xA)
def execTestExit (s : State) : Host.Outcome State Fault Refusal := .next (s.barWrite 0x300000 8 0xB)

/-- R117: a write of SVM.CHUNK. -/
def execSvmChunkWrite (o size v : Nat) (s : State) : Host.Outcome State Fault Refusal :=
  .next (if o < 0x1000 then s.barWrite (0x301000 + o) size v else s)

/-! ## Translation (R358 to R378) -/

/-- XLT.CMD with its fields. -/
def xltWord (op c i e : Nat) : Nat := op + fld i 16 + fld e 22 + fld c 36

def execCtxCreate (c : Nat) (s : State) : Host.Outcome State Fault Refusal := .next (s.barWrite 0x500000 8 (xltWord 1 c 0 0))
def execCtxDestroy (c : Nat) (s : State) : Host.Outcome State Fault Refusal := .next (s.barWrite 0x500000 8 (xltWord 2 c 0 0))
def execRangeCreate (c i : Nat) (s : State) : Host.Outcome State Fault Refusal :=
  .next (s.barWrite 0x500000 8 (xltWord 3 c i 0))
def execRangeDestroy (c i : Nat) (s : State) : Host.Outcome State Fault Refusal :=
  .next (s.barWrite 0x500000 8 (xltWord 4 c i 0))
def execRangeChange (c i : Nat) (s : State) : Host.Outcome State Fault Refusal :=
  .next (s.barWrite 0x500000 8 (xltWord 5 c i 0))
def execInvalidate (c : Nat) (s : State) : Host.Outcome State Fault Refusal := .next (s.barWrite 0x500000 8 (xltWord 6 c 0 0))

/-- R369: RESOLVE while ARG[0] names an action. -/
def State.resolveAs (s : State) (end_ : Bool) : State :=
  if (s.xlt.arg.getD 0 0).getLsbD 32 = end_ then s.barWrite 0x500000 8 (xltWord 7 0 0 0) else s

def execResolveRetry (s : State) : Host.Outcome State Fault Refusal := .next (s.resolveAs false)
def execResolveEnd (s : State) : Host.Outcome State Fault Refusal := .next (s.resolveAs true)
def execWinOpen (c i e : Nat) (s : State) : Host.Outcome State Fault Refusal :=
  .next (s.barWrite 0x500000 8 (xltWord 8 c i e))
def execWinClose (e : Nat) (s : State) : Host.Outcome State Fault Refusal := .next (s.barWrite 0x500000 8 (xltWord 9 0 0 e))

/-- R371: the last use in flight ends. -/
def execInvalidateDrainEnd (s : State) : Host.Outcome State Fault Refusal := .next s.drainEnd

/-- R365: an entry read returns to a buffer. -/
def execRtbFill (buf c i : Nat) (s : State) : Host.Outcome State Fault Refusal := .next (s.rtbFill buf c i)

/-- R368: room has appeared in the fault ring. -/
def execDeferredFaultRecord (s : State) : Host.Outcome State Fault Refusal := .next s.deferredFault

/-- R370: the monitor of a core that runs a cell asks for a change of a range, and the core waits. -/
def execChangeRequest (n range perm va : Nat) (s : State) : Host.Outcome State Fault Refusal :=
  let c := s.core n
  .next (if c.run = .running ∧ c.ctxValid ∧ c.ending = false ∧ c.deliver.isNone ∧ c.work.grid?.isSome then
      (s.postChange c.ctx range (perm % 8) va n (s.queueOfCore n)).updCore n (fun x => { x with run := .waiting })
    else s)

/-- R76: a zero-fill ends. -/
def execZeroFillComplete (s : State) : Host.Outcome State Fault Refusal := .next s.fillDone

/-! ## Queues (R389 to R409) -/

def execQCreate (c slot q : Nat) (s : State) : Host.Outcome State Fault Refusal :=
  .next (s.barWrite 0x400000 8 (1 + fld q 20 + fld slot 40 + fld c 48))
def execQDestroy (q : Nat) (s : State) : Host.Outcome State Fault Refusal := .next (s.barWrite 0x400000 8 (2 + fld q 20))
def execClose (q : Nat) (s : State) : Host.Outcome State Fault Refusal := .next (s.barWrite 0x400010 8 (q + fld 1 18))
def execAbort (q : Nat) (s : State) : Host.Outcome State Fault Refusal := .next (s.barWrite 0x400010 8 (q + fld 2 18))
def execReopen (q : Nat) (s : State) : Host.Outcome State Fault Refusal := .next (s.barWrite 0x400010 8 (q + fld 3 18))
def execClearOverrun (q : Nat) (s : State) : Host.Outcome State Fault Refusal := .next (s.barWrite 0x400010 8 (q + fld 4 18))
def execCtxReset (s : State) : Host.Outcome State Fault Refusal := .next (s.barWrite 0x400030 8 1)

/-- R393: the queue manager's turn. -/
def execDescriptorFetch (s : State) : Host.Outcome State Fault Refusal := .next s.fetchDesc

/-- R390: a queue's state returns. -/
def execQueueStateRead (q : Nat) (s : State) : Host.Outcome State Fault Refusal := .next (s.queueRead q)

/-- R395: a descriptor returns from the host with its poison indication. -/
def execDescriptorReadReturn (id : Nat) (raw : List Byte) (poison : Bool) (s : State) : Host.Outcome State Fault Refusal :=
  .next (s.descReturn id raw poison)

/-- R391: a doorbell write of SQ_TAIL, of 64 bits; a 32-bit write of the same low half does the same. -/
def execSqTailWrite (c slot v : Nat) (s : State) : Host.Outcome State Fault Refusal :=
  .next (s.bar2Write (4096 * c + 64 * slot) 8 v)

/-- R391: a doorbell write of CQ_HEAD. -/
def execCqHeadWrite (c slot v : Nat) (s : State) : Host.Outcome State Fault Refusal :=
  .next (s.bar2Write (4096 * c + 64 * slot + 8) 4 v)

/-! ## Placement, cores and units (R170, R256, R291, R320) -/

def execCellClose (b : Bool) (s : State) : Host.Outcome State Fault Refusal :=
  .next (s.barWrite 0x600000 8 (bnat b + 2 * bnat s.ple.moveClose))
def execMoveClose (b : Bool) (s : State) : Host.Outcome State Fault Refusal :=
  .next (s.barWrite 0x600000 8 (bnat s.ple.cellClose + 2 * bnat b))
def execPleCntReset (s : State) : Host.Outcome State Fault Refusal :=
  .next (s.barWrite 0x600000 8 (bnat s.ple.cellClose + 2 * bnat s.ple.moveClose + 4))

/-- BAR0 offset of core n's window. -/
def coreBase (n : Nat) : Nat := 0x1000000 + n * 0x40000

def execPmcReset (n : Nat) (s : State) : Host.Outcome State Fault Refusal := .next (s.barWrite (coreBase n + 8) 8 1)
def execMxClose (n : Nat) (b : Bool) (s : State) : Host.Outcome State Fault Refusal :=
  .next (s.barWrite (coreBase n + 0x2000) 8 (bnat b))
def execMxAbort (n : Nat) (s : State) : Host.Outcome State Fault Refusal :=
  .next (s.barWrite (coreBase n + 0x2000) 8 (bnat (s.core n).mx.close + 2))
def execMxCntReset (n : Nat) (s : State) : Host.Outcome State Fault Refusal :=
  .next (s.barWrite (coreBase n + 0x2000) 8 (bnat (s.core n).mx.close + 4))

/-- CLOSE of an engine. -/
def State.scClosed (s : State) (n e : Nat) : Bool := ((s.core n).sce.getD e Sce.reset).close

def execScClose (n e : Nat) (b : Bool) (s : State) : Host.Outcome State Fault Refusal :=
  .next (s.barWrite (coreBase n + 0x3000 + 0x100 * e) 8 (bnat b))
def execScAbort (n e : Nat) (s : State) : Host.Outcome State Fault Refusal :=
  .next (s.barWrite (coreBase n + 0x3000 + 0x100 * e) 8 (bnat (s.scClosed n e) + 2))
def execScCntReset (n e : Nat) (s : State) : Host.Outcome State Fault Refusal :=
  .next (s.barWrite (coreBase n + 0x3000 + 0x100 * e) 8 (bnat (s.scClosed n e) + 4))

/-! ## Memory (R351, R352, R357) -/

/-- BAR0 offset of stack i's MCU. -/
def mcuBase (i : Nat) : Nat := 0x800000 + i * 0x10000

def execRetrain (i c : Nat) (s : State) : Host.Outcome State Fault Refusal := .next (s.barWrite (mcuBase i) 8 (1 + fld c 8))
def execDeclareFailed (i c : Nat) (s : State) : Host.Outcome State Fault Refusal := .next (s.barWrite (mcuBase i) 8 (2 + fld c 8))
def execExclude (i c : Nat) (s : State) : Host.Outcome State Fault Refusal := .next (s.barWrite (mcuBase i) 8 (3 + fld c 8))

/-! ## Links, collectives and the twin (R413, R423, R439 to R444) -/

/-- BAR0 offset of port p's LNK. -/
def lnkBase (p : Nat) : Nat := 0xA00000 + p * 0x10000

def execLnkClose (p : Nat) (b : Bool) (s : State) : Host.Outcome State Fault Refusal := .next (s.barWrite (lnkBase p) 8 (bnat b))
def execLnkAbort (p : Nat) (s : State) : Host.Outcome State Fault Refusal :=
  .next (s.barWrite (lnkBase p) 8 (bnat (s.port p).close + 2))
def execPortRetrain (p : Nat) (s : State) : Host.Outcome State Fault Refusal :=
  .next (s.barWrite (lnkBase p) 8 (bnat (s.port p).close + 4))
def execLnkCntReset (p : Nat) (s : State) : Host.Outcome State Fault Refusal :=
  .next (s.barWrite (lnkBase p) 8 (bnat (s.port p).close + 8))

def execImportEntry (e c : Nat) (s : State) : Host.Outcome State Fault Refusal := .next (s.barWrite 0xD00000 8 (1 + fld c 8 + fld e 20))
def execSend (e : Nat) (s : State) : Host.Outcome State Fault Refusal := .next (s.barWrite 0xD00000 8 (2 + fld e 20))
def execDiscard (e : Nat) (s : State) : Host.Outcome State Fault Refusal := .next (s.barWrite 0xD00000 8 (3 + fld e 20))
def execAckEmptied (s : State) : Host.Outcome State Fault Refusal := .next (s.barWrite 0xD00000 8 4)
def execTwcClose (b : Bool) (s : State) : Host.Outcome State Fault Refusal := .next (s.barWrite 0xD00010 8 (bnat b))
def execTwcAbort (s : State) : Host.Outcome State Fault Refusal := .next (s.barWrite 0xD00010 8 (bnat s.twc.close + 2))

def execCleClose (b : Bool) (s : State) : Host.Outcome State Fault Refusal := .next (s.barWrite 0xC00000 8 (bnat b))
def execCleAbort (s : State) : Host.Outcome State Fault Refusal := .next (s.barWrite 0xC00000 8 (bnat s.cle.close + 2))
def execNodeWrite (v : Nat) (s : State) : Host.Outcome State Fault Refusal := .next (s.barWrite 0xC00010 8 v)
def execGroupWrite (g v : Nat) (s : State) : Host.Outcome State Fault Refusal :=
  .next (if g < 64 then s.barWrite (0xC00400 + 8 * g) 8 v else s)

/-- R423: RANKMAP word i of group g. -/
def execRankmapWrite (g i v : Nat) (s : State) : Host.Outcome State Fault Refusal :=
  .next (if g < 64 ∧ i < 1024 then s.barWrite (0xC80000 + 0x2000 * g + 8 * i) 8 v else s)

/-! ## Fleet service, timers and resets (R459, R454, R476, R487, R495) -/

def execRecheck (c : Nat) (s : State) : Host.Outcome State Fault Refusal := .next (s.barWrite 0xF00000 8 (1 + fld c 8))
def execClearLog (s : State) : Host.Outcome State Fault Refusal := .next (s.barWrite 0xF00000 8 2)

/-- R476: a nonzero write of MICROS. -/
def execTimerArm (t micros : Nat) (s : State) : Host.Outcome State Fault Refusal :=
  .next (if t < 16 ∧ micros % 2 ^ 32 ≠ 0 then s.barWrite (0xE00200 + 8 * t) 4 micros else s)

/-- R476: a write of 0. -/
def execTimerDisarm (t : Nat) (s : State) : Host.Outcome State Fault Refusal :=
  .next (if t < 16 then s.barWrite (0xE00200 + 8 * t) 4 0 else s)
def execMonSelWrite (kind index : Nat) (s : State) : Host.Outcome State Fault Refusal :=
  .next (s.barWrite 0xE00018 8 (index % 256 + fld (kind % 4) 8))
def execSoftReset (s : State) : Host.Outcome State Fault Refusal := .next (s.barWrite 0xE00000 8 1)
def execWarmReset (s : State) : Host.Outcome State Fault Refusal := .next (s.barWrite 0xE00000 8 2)
def execCoreReset (n : Nat) (s : State) : Host.Outcome State Fault Refusal := .next (s.barWrite 0xE00000 8 (3 + fld n 8))

end Sys2Proof.Machine
end

