-- ==== Sys2Proof/Machine/RegRead.lean ====
section
/-!
DEFINITION. What a read of BAR0 answers (R5, R7, R32, R513, R514, and the field tables of each block): a pure function of the
state. No register of the device changes when it is read. Fields of class T1 read zero under R75.
-/
namespace Sys2Proof.Machine

/-- A command register's state in a STATUS register: DROPPED [14], DONE [13], BUSY [15], CODE [7:0]. -/
def CmdSt.low (c : CmdSt) : Nat := c.code % 256 + fld (bnat c.done) 13 + fld (bnat c.dropped) 14 + fld (bnat c.busy) 15

/-- With LAST_OP in [11:8]. -/
def CmdSt.reg (c : CmdSt) : Nat := c.low + fld (c.op % 16) 8

/-- Whether class T1 is shown to the host (R75). -/
def State.t1 (s : State) : Bool := match s.sim.image with | some i => i.t1Host | none => false

/-- A field of class T1. -/
def State.ifT1 (s : State) (v : Nat) : Nat := if s.t1 then v else 0

/-- The 8 bytes at an offset of a byte string, as a register. -/
def regAt (bs : List Byte) (o : Nat) : Nat := leAt bs o 8

/-! ## GID (Tables 6 to 10 of 01) -/

def Life.code : Life → Nat
  | .off => 0
  | .boot => 1
  | .unclaimed => 2
  | .held => 3
  | .service => 4
  | .test => 5
  | .recovery => 6

/-- GID.STATE. -/
def State.stateReg (s : State) : Nat := s.dev.life.code + fld (bnat s.dev.frost) 8

/-- R465: a fit core is past its deadline. -/
def State.testOverdue (s : State) : Bool := (List.range 64).any (fun n => (s.patrol n).overdue && s.fit n)

/-- GID.GSTATUS. -/
def State.gstatus (s : State) : Nat :=
  bnat s.flt.squall + fld (bnat s.testOverdue) 1 + fld (bnat (!s.holdsOut.isEmpty)) 2 + fld (bnat (!s.notices.isEmpty)) 3
    + fld (bnat s.dev.faultNew) 8 + fld (bnat s.dev.stateChanged) 9

def State.gidRead (s : State) (r : Nat) : Nat :=
  match r with
  | 0x00 => partId
  | 0x08 => s.stateReg
  | 0x10 => s.gstatus
  | 0x18 => s.dev.coreAvail.toNat
  | _ => 0

/-! ## SIM (Tables 9 to 14 of 02) -/

def State.simRead (s : State) (r : Nat) : Nat :=
  let x := s.sim
  match r with
  | 0x08 => x.chunkOff + fld x.chunkLen 32
  | 0x10 => x.cmd.reg + fld x.section_ 16 + fld x.fieldOffset 32
  | 0x18 => x.present.length
  | 0x20 => match x.image with | some i => i.seq | none => 0
  | 0x28 => x.ownerFloor
  | 0x30 => x.vendorFloor
  | _ =>
    if 0x40 ≤ r ∧ r < 0x80 then (match x.image with | some i => regAt (digestBytes i.digest) (r - 0x40) | none => 0) else 0

/-! ## TKM (Tables 10 to 15 of 03) -/

def State.tkmRead (s : State) (r : Nat) : Nat :=
  let x := s.tkm
  match r with
  | 0x08 => x.cmd.low + fld (bnat (!x.resp.isEmpty)) 12 + fld x.reqType 16
  | 0x10 => bnat x.ownerKey.isSome + fld (bnat x.pending.isSome) 1 + fld (bnat s.dev.dbgOpen) 2
  | 0x18 => x.ownerCtr
  | 0x20 => match x.ownerKey with | some k => regAt (keyId k) 0 | none => 0
  | 0x28 => match x.ownerKey with | some k => regAt (keyId k) 8 | none => 0
  | 0x30 => x.scrubDone + fld x.scrubCause 16 + fld (bnat x.scrubActive) 31
  | 0x38 => x.resp.length
  | _ => if 0x20000 ≤ r ∧ r < 0x40000 then regAt x.resp (r - 0x20000) else 0

/-! ## SVM (Tables 9 to 15 of 04) -/

def State.svmRead (s : State) (r : Nat) : Nat :=
  let x := s.svm
  match r with
  | 0x08 => x.cmd.reg
  | 0x10 => x.fwVersion
  | 0x18 => x.bank + fld (bnat (x.bankValid 0)) 1 + fld (bnat (x.bankValid 1)) 2 + fld (bnat x.fallback) 3 + fld x.svn 32
      + fld x.fwFloor 40
  | 0x20 => x.fill
  | 0x28 => match x.dbg with | some d => (d.endsAt - s.now) / 1000000 | none => 0
  | _ => 0

/-! ## QMG (Tables 11 to 17 of 14) -/

def QState.code : QState → Nat
  | .absent => 0
  | .opened => 1
  | .closing => 2
  | .aborting => 3
  | .closed => 4
  | .dead => 5

/-- QMG.QINFO of the selected queue. -/
def State.qinfo (s : State) (q : Nat) : Nat :=
  let x := s.queue q
  if x.st = .absent then 0
  else x.st.code + fld (bnat x.overrun) 10 + fld (bnat (s.qmg.cached.contains q)) 11 + fld ((s.inflight q).length % 65536) 16
    + fld x.head 32 + fld x.tail 48

def State.qmgRead (s : State) (r : Nat) : Nat :=
  let x := s.qmg
  match r with
  | 0x08 => x.cmd.low + fld (x.cmd.op % 256) 16 + fld x.qctlCode 24
  | 0x18 => x.qsel
  | 0x20 => s.qinfo x.qsel
  | 0x28 => x.ctxSel
  | 0x38 => x.aqcMiss.toNat
  | _ =>
    if 0x100 ≤ r ∧ r < 0x120 then (x.arg.getD ((r - 0x100) / 8) 0).toNat
    else if 0x200 ≤ r ∧ r < 0x280 then ((s.ctx x.ctxSel).totals.getD ((r - 0x200) / 8) 0).toNat
    else 0

/-! ## XLT (Tables 7 to 13 of 13, and its records) -/

/-- Table 3 of 13. -/
def FaultRec.bytes (f : FaultRec) : List Byte :=
  if f.fid = 0 then zeros 32
  else leBytes 4 f.fid ++ leBytes 2 f.ctx ++ leBytes 1 (if f.change then 2 else 1) ++ leBytes 1 f.access.toNat ++ leBytes 8 f.vaddr
    ++ leBytes 2 f.waiters ++ leBytes 1 f.range ++ leBytes 1 f.firstUnit ++ leBytes 4 f.queue ++ leBytes 1 f.reqPerm ++ zeros 7

/-- Table 6 of 13. -/
def StaleRec.bytes (f : StaleRec) : List Byte :=
  leBytes 4 f.sid ++ leBytes 2 f.ctx ++ leBytes 1 f.range ++ leBytes 1 f.cause ++ leBytes 2 f.entry ++ leBytes 2 f.gen
    ++ leBytes 1 f.port ++ zeros 3 ++ leBytes 8 f.offset ++ leBytes 8 f.queue

def State.xltRead (s : State) (r : Nat) : Nat :=
  let x := s.xlt
  match r with
  | 0x08 => x.cmd.low + fld (bnat (!x.unrecorded.isEmpty)) 9 + fld (bnat x.sqLost) 10 + fld (bnat (decide (x.sqUnread ≠ 0))) 11
      + fld (bnat (decide (x.fqUnread ≠ 0))) 12 + fld (x.cmd.op % 256) 16
  | 0x10 => x.resultGen.toNat
  | 0x18 => x.fqHead + fld x.fqTail 16
  | 0x20 => x.sqHead + fld x.sqTail 8
  | 0x28 => x.rtbMiss.toNat
  | _ =>
    if 0x100 ≤ r ∧ r < 0x120 then (x.arg.getD ((r - 0x100) / 8) 0).toNat
    else if 0x1000 ≤ r ∧ r < 0x3000 then regAt (Tab.get FaultRec.none x.fq ((r - 0x1000) / 32)).bytes (r % 32)
    else if 0x3000 ≤ r ∧ r < 0x3800 then regAt (Tab.get StaleRec.none x.sq ((r - 0x3000) / 32)).bytes (r % 32)
    else 0

/-! ## PLE (Tables 8 to 12 of 11) -/

/-- PLE.VM[v]: machines in order of their lead. -/
def State.vmReg (s : State) (v : Nat) : Nat :=
  match s.ple.vms[v]? with
  | none => 0
  | some m => m.members.headD 0 + fld (if m.members.length = 4 then 2 else m.members.length - 1) 10 + fld (bnat m.busy) 15
      + (if m.busy then fld m.ctx 16 else 0) + fld 1 31

def State.pleRead (s : State) (r : Nat) : Nat :=
  let x := s.ple
  match r with
  | 0x00 => bnat x.cellClose + fld (bnat x.moveClose) 1
  | 0x08 => bnat x.cellClose + fld (bnat x.moveClose) 1 + fld (bnat x.idle) 2 + fld x.vms.length 8
      + fld ((x.moves.filter (·.started)).length) 16 + fld (ceilDiv ((x.pins.flatMap (·.lines)).eraseDups.length) 4096) 32
  | 0x10 => x.lastGn + fld x.lastGm 16 + fld x.lastKs 32
  | 0x18 => x.moveBytes.toNat
  | 0x20 => x.cells.toNat
  | 0x28 => x.swaps.toNat
  | _ => if 0x100 ≤ r ∧ r < 0x300 then s.vmReg ((r - 0x100) / 8) else 0

/-! ## MCU (Tables 7 to 12 of 12) -/

def ChanSt.code : ChanSt → Nat
  | .ready => 0
  | .retraining => 1
  | .failedReadable => 2
  | .failedUnreadable => 3
  | .copying => 4
  | .excluded => 5

def State.mcuRead (s : State) (i r : Nat) : Nat :=
  let x := s.mcu.getD i Mcu.reset
  match r with
  | 0x08 => x.cmd.reg + fld (bnat s.evacDone) 16 + fld (bnat s.excl.inForce.isSome) 17
  | 0x10 => s.ifT1 (x.normal.length + fld x.narrow.length 32)
  | 0x18 => s.ifT1 (x.gap + fld x.therm.code 8) + fld x.hotC.toNat 16
  | 0x20 => x.ceCount.toNat
  | 0x28 => x.ueCount.toNat
  | _ =>
    if 0x100 ≤ r ∧ r < 0x200 then
      let c := x.ch.getD ((r - 0x100) / 8) Chan.reset
      s.ifT1 (c.st.code + fld c.retrains.toNat 16 + fld c.ce.toNat 32)
    else if 0x200 ≤ r ∧ r < 0x260 then s.ifT1 (x.dieTemp.getD ((r - 0x200) / 8) 0).toNat
    else 0

/-! ## LNK, CLE, TWC (Tables 12 to 22 of 15) -/

def PortSt.code : PortSt → Nat
  | .off => 0
  | .down => 1
  | .training => 2
  | .trained => 3
  | .admitting => 4
  | .service => 5
  | .relock => 6
  | .retraining => 7
  | .refused => 8

/-- Bytes of an identity as registers; 0 where there is none. -/
def identReg (x : Option Ident) (o : Nat) : Nat := match x with | some d => regAt (leBytes 32 d.toNat) o | none => 0

def State.lnkRead (s : State) (p r : Nat) : Nat :=
  let x := s.port p
  match r with
  | 0x00 => bnat x.close
  | 0x08 => x.st.code + fld (s.role p % 4) 16 + fld (bnat x.reversed) 18 + fld (bnat x.close) 19 + fld (bnat x.lost) 20
      + fld (bnat (!x.notices.isEmpty)) 21 + fld ((x.notices.map (·.cls)).foldl max 0 % 4) 22 + fld x.check 32
  | 0x30 => match x.peerNode with | some n => n % 4096 + 4096 | none => 0
  | 0x38 => x.txBytes.toNat
  | 0x40 => x.rxBytes.toNat
  | 0x48 => x.replays.toNat
  | 0x50 => x.tagFail.toNat
  | _ => if 0x10 ≤ r ∧ r < 0x30 then identReg x.peer (r - 0x10) else 0

/-- MiB of collective staging in use: reservations, and the pool's bytes (R428). -/
def Cle.stageMib (c : Cle) : Nat := c.reserved + ceilDiv ((c.pool.map (fun f => f.2.payload.length)).sum) (2 ^ 20)

def State.cleRead (s : State) (r : Nat) : Nat :=
  let c := s.cle
  match r with
  | 0x00 => bnat c.close
  | 0x08 => bnat c.close + fld (bnat (!c.lost.isEmpty)) 1 + fld (bnat (s.holdsOut.any (fun h => decide (h.notice.cause = 3)))) 2
      + fld ((c.colls.filter (·.started)).length) 16 + fld (min 256 c.stageMib) 32
  | 0x10 => c.nodeReg
  | 0x18 => c.noroute.toNat
  | _ =>
    if 0x100 ≤ r ∧ r < 0x300 then
      ((List.range 64).map (fun k => if c.lost.contains ((r - 0x100) * 8 + k) then 2 ^ k else 0)).sum
    else if 0x400 ≤ r ∧ r < 0x600 then (Tab.get Group.none c.groups ((r - 0x400) / 8)).reg
    else if 0x600 ≤ r ∧ r < 0x800 then (c.coreGen.getD ((r - 0x600) / 8) 0).toNat
    else if 0x1000 ≤ r ∧ r < 0x2000 then c.routeReg ((r - 0x1000) / 8)
    else if 0x80000 ≤ r ∧ r < 0x100000 then c.rankReg ((r - 0x80000) / 0x2000) ((r - 0x80000) % 0x2000 / 8)
    else 0

def TwinSt.code : TwinSt → Nat
  | .unpaired => 0
  | .pairing => 1
  | .paired => 2
  | .unmirrored => 3
  | .released => 4

def CatKind.code : CatKind → Nat
  | .progress => 0
  | .completed => 1
  | .retained => 2

def State.twcRead (s : State) (r : Nat) : Nat :=
  let t := s.twc
  let e := t.entry t.catSel
  match r with
  | 0x08 => t.cmd.reg + fld t.st.code 16 + fld (bnat t.retained) 19 + fld (bnat t.emptied) 20
      + fld (bnat (s.twinPorts.contains 14)) 21 + fld (bnat (s.twinPorts.contains 15)) 22 + fld (bnat (t.hbLive && decide (t.st ≠ .unpaired))) 23
      + fld (bnat t.close) 24 + fld t.detail 32
  | 0x10 => bnat t.close
  | 0x18 => t.catSel
  | 0x20 => match e with | some x => x.blocks.length + fld x.ctx 32 + fld x.kind.code 61 + fld 1 63 | none => 0
  | 0x28 => match e with | some x => x.ckpt | none => 0
  | 0x30 => match e with | some x => x.ranges | none => 0
  | 0x38 => match e with | some x => x.origin.toNat % 2 ^ 64 | none => 0
  | _ => if 0x40 ≤ r ∧ r < 0x60 then identReg t.peer (r - 0x40) else 0

/-! ## PCM (Tables 7 to 10 of 17) -/

/-- A temperature in whole °C, to nearest with ties upward, in 8 bits (Table 7 of 03). -/
def roundC (t : Int) : Nat := ((t + 4) / 8 % 256).toNat

def IslSt.code : IslSt → Nat
  | .running => 0
  | .lull => 1
  | .calm => 2
  | .off => 3

/-- PCM.TIMER[t]. -/
def State.timerReg (s : State) (t : Nat) : Nat :=
  let x := s.pcm.timers.getD t ⟨none, none, false⟩
  (match x.due with | some d => (d - s.now) % 2 ^ 32 | none => 0) + fld (bnat x.expired) 32 + fld (bnat x.held.isSome) 62
    + fld (bnat x.due.isSome) 63

def State.pcmRead (s : State) (r : Nat) : Nat :=
  let p := s.pcm
  match r with
  | 0x08 => ((List.range 16).map (fun t => fld (bnat ((p.timers.getD t ⟨none, none, false⟩).due.isSome)) t)).sum
      + fld (bnat s.dev.frost) 16 + fld (bnat p.softBusy) 17 + fld (bnat p.resetRefused) 18 + fld (bnat p.thermLimit) 19
      + fld (bnat p.capUnmet) 20
  | 0x10 => fld (roundC (s.mcu.foldl (fun (a : Int) m => max a ((m.dieTemp.map BitVec.toInt).foldl max (-32768))) (-32768))) 8
      + fld (roundC (p.dieTemp.foldl max (-32768))) 16 + fld ((p.avgAll + 5) / 10 % 65536) 32 + fld (s.img (·.capW) % 65536) 48
  | 0x18 => p.monIndex + fld p.monKind 8
  | 0x20 => s.ifT1 ((s.selected % 65536).toNat + fld (p.monPeak % 65536).toNat 16)
  | _ =>
    if 0x100 ≤ r ∧ r < 0x190 then
      let i := (r - 0x100) / 8
      let x := s.island i
      s.ifT1 (x.mv % 1024 + fld x.st.code 16 + fld (p.avg i % 2 ^ 24) 24 + fld (s.clockMhz i) 48)
    else if 0x200 ≤ r ∧ r < 0x280 then s.timerReg ((r - 0x200) / 8)
    else 0

/-! ## FLT (Tables 4, 6 and 11 to 15 of 16) -/

/-- Table 4 of 16; the empty slot is all zeros. -/
def LogRec.bytes (r : LogRec) : List Byte :=
  leBytes 4 r.rid ++ leBytes 1 r.type ++ leBytes 1 r.severity ++ leBytes 1 r.status ++ leBytes 1 r.flags.toNat ++ leBytes 8 r.addr
    ++ leBytes 2 r.ctx ++ leBytes 1 r.range ++ leBytes 1 r.unit ++ leBytes 1 r.index ++ leBytes 1 r.channel ++ leBytes 1 r.cause
    ++ leBytes 1 r.syndrome ++ leBytes 4 r.count ++ leBytes 4 r.aux ++ (r.data ++ zeros 32).take 32

/-- The Wovik GUID of R455 as UEFI stores it: its first three fields little-endian. -/
def guid : List Byte := leBytes 4 0x3F7A2E51 ++ leBytes 2 0x9C04 ++ leBytes 2 0x4B6D
  ++ [0xA1, 0xE8, 0x7A, 0x21, 0x5D, 0x0C, 0x3E, 0x90]

/-- R455, Table 6: the CPER view of the record at HEAD; empty when none is unread. -/
def State.cper (s : State) : List Byte :=
  if s.flt.unread = 0 then []
  else
    let r := Tab.get LogRec.none s.flt.log s.flt.head
    leBytes 4 0x52455043 ++ leBytes 2 0x0100 ++ leBytes 4 0xFFFFFFFF ++ leBytes 2 1 ++ leBytes 4 r.severity ++ zeros 4
      ++ leBytes 4 264 ++ zeros 40 ++ guid ++ guid ++ leBytes 8 r.rid ++ zeros 24 ++ leBytes 4 200 ++ leBytes 4 64
      ++ leBytes 2 0x0100 ++ leBytes 1 3 ++ zeros 1 ++ leBytes 4 1 ++ guid ++ identity.take 16 ++ leBytes 4 r.severity
      ++ ascii [0x53, 0x59, 0x2D, 0x54, 0x5A, 0x31, 0x20, 0x42, 0x30] ++ zeros 11 ++ r.bytes

/-- FLT.PATROL of a core. -/
def State.patrolReg (s : State) (n : Nat) : Nat :=
  let p := s.patrol n
  p.last + fld (bnat p.running) 2 + fld (bnat p.due) 3 + fld (bnat p.overdue) 4
    + fld (if s.sim.image.isSome then min 65535 ((s.now - p.since) / 3600000000) else 0) 48

def State.fltRead (s : State) (r : Nat) : Nat :=
  let f := s.flt
  match r with
  | 0x08 => f.cmd.reg + fld (bnat f.squall) 16 + fld (bnat (decide (f.unread = 1023))) 17
  | 0x10 => f.head + fld f.tail 16
  | 0x18 => f.lost.toNat
  | 0x20 => f.sramCe.toNat
  | 0x28 => ((List.range 5).map (fun i => fld (f.svpLoad.getD i 0) (10 * i))).sum + fld f.svpStage 50
  | 0x30 => (if f.recheck.ran = some stOk then 3 else f.recheck.phase) + fld f.recheck.verdict 4 + fld f.recheck.core 8 + fld f.recheck.status 32
  | 0x38 => f.patrolSel
  | 0x40 => s.patrolReg f.patrolSel
  | 0x48 => f.testPass.toNat
  | 0x50 => f.testFail.toNat
  | _ =>
    if 0x100 ≤ r ∧ r < 0x120 then (f.arg.getD ((r - 0x100) / 8) 0).toNat
    else if 0x1000 ≤ r ∧ r < 0x1108 then regAt s.cper (r - 0x1000)
    else if 0x10000 ≤ r ∧ r < 0x20000 then regAt (Tab.get LogRec.none f.log ((r - 0x10000) / 64)).bytes (r % 64)
    else 0

/-! ## CORE (Tables 10 to 13 of 06, R257, R293) -/

/-- CORE.STATUS. A partner's context is its lead's, and its RUN (notes/assumptions/125.md). -/
def State.coreStatus (s : State) (n : Nat) : Nat :=
  let c := s.core n
  let run := if (s.island (n / 8)).st ≠ .running then 3 else match c.run with | .idle => 0 | .running => 1 | .waiting => 2
  run + fld (bnat c.steward) 4 + fld (bnat c.spare) 5 + fld (c.gangRole % 4) 6 + (if c.ctxValid then fld c.ctx 16 + fld 1 31 else 0)

/-- MXSTAT. -/
def Mx.stat (m : Mx) : Nat :=
  min 7 m.jobs.length + fld (bnat m.close) 3 + fld (bnat m.drizzling) 4 + fld (bnat m.cold) 5 + fld m.flags.toNat 8
    + fld m.spills.toNat 32

/-- SCSTAT. -/
def Sce.stat (e : Sce) : Nat :=
  (match e.run with | .idle => 0 | .loading => 1 | .running => 2 | .waiting => 3) + fld (bnat e.close) 4 + fld (bnat e.held.isSome) 5
    + fld (bnat e.pair) 6 + fld e.flags.toNat 8
    + fld (((List.range 4).map (fun t => fld (bnat ((e.tags.getD t none).isSome)) t)).sum) 20
    + fld (((List.range 4).map (fun t => fld (bnat (e.act.getD t false)) t)).sum) 32 + fld (e.pc % 4096) 48

/-- Registers of an engine at an offset from its first. -/
def Sce.regs (e : Sce) (o : Nat) : Nat :=
  match o with
  | 0x00 => bnat e.close
  | 0x08 => e.stat
  | 0x10 => e.fault + fld e.faultX 16 + fld e.faultPc 32
  | 0x18 => e.nChains.toNat
  | 0x20 => e.nBeats.toNat
  | 0x28 => e.nStall.toNat
  | 0x30 => e.nUnder.toNat
  | _ => 0

def State.coreRegRead (s : State) (n r : Nat) : Nat :=
  let c := s.core n
  match r with
  | 0x0000 => s.coreStatus n
  | 0x2000 => bnat c.mx.close
  | 0x2008 => c.mx.stat
  | 0x2010 => c.mx.desc.toNat
  | 0x2018 => c.mx.stall.toNat
  | 0x2020 => c.mx.drizzle.toNat
  | 0x2028 => c.mx.underflow.toNat
  | _ =>
    if 0x1000 ≤ r ∧ r < 0x1080 then (if c.ctxValid then (c.pmc.getD ((r - 0x1000) / 8) 0).toNat else 0)
    else if 0x3000 ≤ r ∧ r < 0x3200 then (c.sce.getD ((r - 0x3000) / 0x100) Sce.reset).regs (r % 0x100)
    else 0

/-! ## A read -/

/-- The 64-bit register at an offset of a block. -/
def State.blockRead (s : State) (b : Block) (r : Nat) : Nat :=
  match b with
  | .gid => s.gidRead r
  | .sim => s.simRead r
  | .tkm => s.tkmRead r
  | .svm => s.svmRead r
  | .qmg => s.qmgRead r
  | .xlt => s.xltRead r
  | .ple => s.pleRead r
  | .mcu i => s.mcuRead i r
  | .lnk p => s.lnkRead p r
  | .cle => s.cleRead r
  | .twc => s.twcRead r
  | .pcm => s.pcmRead r
  | .flt => s.fltRead r
  | .core n => s.coreRegRead n r

/-- R5, R6, R513: what a read of BAR0 answers; a gated block's read is answered once its island is awake (R482). -/
def State.barRead (s : State) (off size : Nat) : Nat :=
  if !barOk off size then 0
  else
    match blockAt off with
    | none => 0
    | some (b, o) =>
      if !s.answers b then 0
      else (s.blockRead b (o / 8 * 8)) / 2 ^ (if size = 4 then 32 * (o % 8 / 4) else 0) % 2 ^ (8 * size)

end Sys2Proof.Machine
end

