-- ==== Sys2Proof/Machine/HostIf.lean ====
section
/-!
DEFINITION. The host's side: CXL.mem accesses (R385, R386), HDM decoders (R383), the function's configuration and power state
(R94, R381, R489), IDE failures, the data objects of DOE (R381, R384), and T0 telemetry over MCTP (R74).
-/
namespace Sys2Proof.Machine

/-! ## CXL.mem -/

/-- R385: a host read of the 64-byte line at a device physical address under a committed decoder. -/
def execCxlMemRead (dpa : Nat) (s : State) : Host.Outcome State Fault Refusal :=
  .next (if s.alive && s.decoded dpa then s.hostAccess ⟨dpa, false, [], false⟩ else s)

/-- R385, R340: a host write of a line, with its poison indication. -/
def execCxlMemWrite (dpa : Nat) (data : List Byte) (poison : Bool) (s : State) : Host.Outcome State Fault Refusal :=
  .next (if s.alive && s.decoded dpa then s.hostAccess ⟨dpa, true, data, poison⟩ else s)

/-- R386: the host answers a back-invalidation: it holds the line no more, and what waited for that goes on. -/
def State.birsp (s : State) (dpa : Nat) : State :=
  let line := dpa / 256
  if !s.host.bisnp.contains (256 * line) then s
  else
    State.recalled { s with
      host := { s.host with bisnp := nsDel s.host.bisnp (256 * line) }
      dram := { s.dram with dir := Tab.upd DirEntry.none s.dram.dir line (fun d => { d with host := false }) } }

def execBirsp (dpa : Nat) (s : State) : Host.Outcome State Fault Refusal := .next (s.birsp dpa)

/-- The model's number for the snoop answer RspIHitI. -/
def rspIHitI : Nat := 1

/-- R387: every host snoop is answered with RspIHitI: the device holds no host memory. -/
def execHostSnoop (s : State) : Host.Outcome State Fault Refusal := .next (if s.alive then s.reply [] false rspIHitI else s)

/-! ## HDM decoders (R383) -/

/-- R383: whether a decoder's span may be committed. -/
def State.hdmOk (s : State) (i base size ways gran : Nat) : Bool :=
  decide (s.dev.life = .service) && decide (0 < size) && s.present (base + size - 1) && decide (2 ^ 24 ≤ base)
    && (List.range 4).all (fun k =>
      let h := s.host.hdm.getD k Hdm.reset
      decide (k = i) || !h.committed || decide (h.base + h.size ≤ base) || decide (base + size ≤ h.base))
    && [1, 2, 4, 8].contains ways && [256, 512, 1024, 2048, 4096, 8192, 16384].contains gran

/-- R383: the host sets Commit of decoder i. -/
def State.hdmCommit (s : State) (i base size ways gran : Nat) : State :=
  let h := s.host.hdm.getD i Hdm.reset
  if h.committed then s
  else
    let ok := s.hdmOk i base size ways gran
    let n : Hdm := { committed := ok, notCommitted := !ok, base := base, size := size, ways := ways, gran := gran }
    { s with host := { s.host with hdm := modAt s.host.hdm i (fun _ => n) } }

def execHdmDecoderCommit (i base size ways gran : Nat) (s : State) : Host.Outcome State Fault Refusal :=
  .next (if s.bar4 then s.hdmCommit i base size ways gran else s)

/-- R383: the host clears Commit of decoder i. -/
def execHdmDecoderUncommit (i : Nat) (s : State) : Host.Outcome State Fault Refusal :=
  .next (if s.bar4 then
      { s with host := { s.host with hdm := modAt s.host.hdm i (fun (h : Hdm) => { h with committed := false, notCommitted := false }) } }
    else s)

/-- An IDE integrity check fails: it is recorded (Table 5 of 16), and the streams become insecure, as PCIe states (PRESUMED,
notes/assumptions/120.md). -/
def execIdeIntegrityFailure (s : State) : Host.Outcome State Fault Refusal :=
  .next (if s.alive then { s with host := { s.host with ideKeyed := false } }.post (LogRec.mk0 9 sevRecoverable 2 0xE) else s)

/-! ## The function -/

/-- Whether configuration space answers normally: from step 8 of boot, or once the boot ROM alone runs (R94). -/
def State.configured (s : State) : Bool := s.alive && decide (s.dev.life ≠ .boot)

/-- R489: the host sets Bus Master Enable. -/
def execBusMasterEnable (s : State) : Host.Outcome State Fault Refusal :=
  .next (if s.configured then { s with host := { s.host with busMaster := true }.unmasked } else s)

/-- R381: D3hot. -/
def execD3hotEnter (s : State) : Host.Outcome State Fault Refusal :=
  .next (if s.configured then { s with host := { s.host with d3hot := true } } else s)

/-- R381: back in D0. -/
def execD0Enter (s : State) : Host.Outcome State Fault Refusal :=
  .next (if s.configured then { s with host := { s.host with d3hot := false }.unmasked } else s)

/-! ## Configuration space (R381, R382)

Table 2 of 14 names the capabilities and their contents; where it does not give a bit's place, PCIe and CXL 3.1 do (PRESUMED,
notes/assumptions/120.md), and every bit that it does not give is free. -/

/-- R354, R384: device DRAM present, in bytes. -/
def State.dramPresent (s : State) : Nat := if s.excl.inForce.isSome then 32640 * 2 ^ 24 else dramTop

/-- A value with n bits from `lo` replaced. -/
def setFld (x v lo n : Nat) : Nat := x - fld (bits x lo n) lo + fld (v % 2 ^ n) lo

/-- The bits of a dword that the manual does not give, the same at every read. -/
def cfgFree (off : Nat) : Nat := Config.configDword 0 off % 2 ^ 32

/-- The header of an extended capability: its identifier and the offset of the next. -/
def extHead (off id next : Nat) : Nat := id + fld (bits (cfgFree off) 16 4) 16 + fld next 20

/-- Sizes of BAR0, BAR2 and BAR4 (Table 3 of 14). -/
def barSize (k : Nat) : Nat := [2 ^ 26, 2 ^ 24, 2 ^ 17].getD k 1

/-- R382: the dword at 0x10 + 4k: half of a 64-bit memory BAR that is not prefetchable. -/
def HostIf.barDword (h : HostIf) (k : Nat) : Nat :=
  let b := h.bars.getD (k / 2) 0
  if k % 2 = 0 then b % 2 ^ 32 + 4 else b / 2 ^ 32 % 2 ^ 32

/-- R379, R381: the state of an IDE stream: 2 secure, 0 insecure. -/
def HostIf.ideState (h : HostIf) (k : Nat) : Nat := if h.ideOn.getD k false && h.ideKeyed then 2 else 0

/-- Dwords of the capabilities below 0x100. -/
def State.capDword (s : State) (off : Nat) : Option Nat :=
  let h := s.host
  match off with
  | 0x00 => some 0x7A211F3D
  | 0x04 => some (setFld (setFld (cfgFree off) (bnat h.busMaster) 2 1) 1 20 1)
  | 0x08 => some 0x12000010
  | 0x0C => some (setFld (cfgFree off) 0 16 8)
  | 0x10 => some (h.barDword 0)
  | 0x14 => some (h.barDword 1)
  | 0x18 => some (h.barDword 2)
  | 0x1C => some (h.barDword 3)
  | 0x20 => some (h.barDword 4)
  | 0x24 => some (h.barDword 5)
  | 0x2C => some 0x7A211F3D
  | 0x34 => some 0x40
  | 0x3C => some (setFld (cfgFree off) 0 8 8)
  | 0x40 => some (0x5001 + fld (setFld (cfgFree off / 2 ^ 16) 0 9 2) 16)
  | 0x44 => some (8 + if h.d3hot then 3 else 0)
  | 0x50 => some (0x7011 + fld 2047 16 + fld (bnat h.msixMask) 30 + fld (bnat h.msixOn) 31)
  | 0x54 => some (0x10000 + 4)
  | 0x58 => some (0x18000 + 4)
  | 0x70 => some (0x0010 + fld 2 16)
  | 0x74 => some (setFld (setFld (cfgFree off) 2 0 3) 1 28 1)
  | 0x7C => some (setFld (setFld (cfgFree off) 6 0 4) 16 4 6)
  | 0x9C => some (setFld (cfgFree off) 0x38 1 7)
  | _ => none

/-- Dwords of the extended capabilities, linked in ascending order of offset. -/
def State.extDword (s : State) (off : Nat) : Option Nat :=
  let h := s.host
  match off with
  | 0x100 => some (extHead off 0x01 0x148)
  | 0x148 => some (extHead off 0x19 0x170)
  | 0x170 => some (extHead off 0x25 0x180)
  | 0x174 => some (setFld (cfgFree off) 1 0 1)
  | 0x180 => some (extHead off 0x26 0x1B0)
  | 0x1B0 => some (extHead off 0x2A 0x1E0)
  | 0x1E0 => some (extHead off 0x31 0x210)
  | 0x210 => some (extHead off 0x2E 0x240)
  | 0x240 => some (extHead off 0x30 0x2A0)
  | 0x244 => some (setFld (setFld (setFld (setFld (setFld (cfgFree off) 3 0 2) 1 6 1) 0 13 3) 0 16 8) 0 24 1)
  | 0x24C => some (setFld (cfgFree off) (bnat (h.ideOn.getD 0 false)) 0 1)
  | 0x250 => some (setFld (cfgFree off) (h.ideState 0) 0 4)
  | 0x258 => some (setFld (cfgFree off) (bnat (h.ideOn.getD 1 false)) 0 1)
  | 0x25C => some (setFld (cfgFree off) (h.ideState 1) 0 4)
  | 0x2A0 => some (extHead off 0x23 0x2F0)
  | 0x2A4 => some (setFld (cfgFree off) 0x1E98 0 16)
  | 0x2A8 => some (0x0000 + fld 0x17 16)
  | 0x2B8 => some (s.dramPresent / 2 ^ 32)
  | 0x2BC => some (setFld (cfgFree off) (s.dramPresent / 2 ^ 28 % 16) 28 4)
  | 0x2C0 => some 0
  | 0x2C4 => some 0
  | 0x2F0 => some (extHead off 0x23 0x320)
  | 0x2F4 => some (setFld (cfgFree off) 0x1E98 0 16)
  | 0x2F8 => some (0x0007 + fld 0x2007 16)
  | 0x320 => some (extHead off 0x23 0)
  | 0x324 => some (setFld (cfgFree off) 0x1E98 0 16)
  | 0x328 => some 0x0008
  | 0x32C => some 0x0104
  | 0x330 => some 0
  | _ => none

/-- R381: a dword of configuration space. -/
def State.configRead (s : State) (off : Nat) : Nat :=
  ((if off < 0x100 then s.capDword off else s.extDword off).getD (Config.configDword s.free off)) % 2 ^ 32

/-- R382: half k of a BAR is written; the bits below its size stay 0. -/
def HostIf.barSet (h : HostIf) (k v : Nat) : HostIf :=
  { h with bars := modAt h.bars (k / 2) (fun b =>
      (if k % 2 = 0 then b / 2 ^ 32 * 2 ^ 32 + v else b % 2 ^ 32 + v * 2 ^ 32) / barSize (k / 2) * barSize (k / 2)) }

/-- A write of a dword of configuration space: Bus Master Enable, the BARs, the power state, MSI-X Message Control and the
enables of the IDE streams act here. -/
def HostIf.configSet (h : HostIf) (off v : Nat) : HostIf :=
  match off with
  | 0x04 => { h with busMaster := bit v 2 }.unmasked
  | 0x10 => h.barSet 0 v
  | 0x14 => h.barSet 1 v
  | 0x18 => h.barSet 2 v
  | 0x1C => h.barSet 3 v
  | 0x20 => h.barSet 4 v
  | 0x24 => h.barSet 5 v
  | 0x44 => if v % 4 = 3 then { h with d3hot := true } else if v % 4 = 0 then { h with d3hot := false }.unmasked else h
  | 0x50 => { h with msixMask := bit v 30, msixOn := bit v 31 }.unmasked
  | 0x24C => { h with ideOn := modAt h.ideOn 0 (fun _ => bit v 0) }
  | 0x258 => { h with ideOn := modAt h.ideOn 1 (fun _ => bit v 0) }
  | _ => h

/-- The model's number for Configuration Request Retry Status; 0 is Successful Completion. -/
def configRetry : Nat := 2

/-- R94, R381: a configuration request of one dword, a write of a value or a read: answered with Retry Status in BOOT, and
normally after. -/
def execConfigurationRequest (write : Option Nat) (off : Nat) (s : State) : Host.Outcome State Fault Refusal :=
  let o := off % 4096 / 4 * 4
  .next (if !s.alive then s
    else if s.dev.life = .boot then s.reply [] false configRetry
    else match write with
      | some v => { s with host := s.host.configSet o v }.reply [] false 0
      | none => (s.reply (leBytes 4 (s.configRead o)) false 0).drawn)

/-! ## Reads of BAR2 and BAR4 -/

/-- R391: a BAR2 read returns zero. -/
def State.bar2Read (_ : State) (_off _size : Nat) : Nat := 0

/-- A dword of an MSI-X table entry. -/
def MsixEntry.rd (e : MsixEntry) (k : Nat) : Nat :=
  match k with
  | 0 => e.addr % 2 ^ 32
  | 1 => e.addr / 2 ^ 32
  | 2 => e.data
  | _ => bnat e.mask

/-- R382: a dword of BAR4: the MSI-X table, the pending-bit array, or CXL component registers, which CXL 3.1 gives. -/
def State.bar4Read (s : State) (off : Nat) : Nat :=
  if !s.bar4 then 0
  else if off < 0x10000 then s.freeWord.toNat % 2 ^ 32
  else if off < 0x18000 then (Tab.get MsixEntry.none s.host.msixTable ((off - 0x10000) / 16)).rd (off % 16 / 4)
  else if off < 0x18100 then
    ((List.range 32).map (fun k => if nsHas s.host.msixPba (8 * (off - 0x18000) / 32 * 32 + k) then 2 ^ k else 0)).sum
  else 0

/-! ## Data objects -/

/-- R381: the data object types of the mailbox: discovery, SPDM, secured SPDM and CDAT table access, by index. -/
def execDoeDiscovery (s : State) : Host.Outcome State Fault Refusal :=
  .next (if s.configured then s.reply [0, 1, 2, 3] false 0 else s)

/-- R384: the CDAT: the DSMAS entry's base and length, specific-purpose, and the DSLBIS figures. -/
def State.cdat (s : State) : List Byte :=
  leBytes 8 (2 ^ 24) ++ leBytes 8 (s.dramPresent - 2 ^ 24) ++ leBytes 1 1 ++ leBytes 8 (Config.reading s.free 0)
    ++ leBytes 8 (Config.reading s.free 1)

def execCdatRead (s : State) : Host.Outcome State Fault Refusal := .next (if s.configured then (s.reply s.cdat false 0).drawn else s)

/-! ## Telemetry T0 (R74) -/

/-- Power in whole watts, to nearest with ties upward. -/
def Pcm.watts (p : Pcm) : Nat := (p.avgAll + 5) / 10

/-- R74, Table 7 of 03: class T0. The manual keeps no register of a port's corrected and uncorrected errors: those figures are
free readings. -/
def State.t0 (s : State) : List Byte :=
  leBytes 1 (roundC (s.pcm.dieTemp.foldl max (-32768)))
    ++ (List.range 8).flatMap (fun i => leBytes 1 (roundC (((s.mcu.getD i Mcu.reset).dieTemp.map BitVec.toInt).foldl max (-32768))))
    ++ leBytes 2 s.pcm.watts ++ leBytes 1 s.dev.life.code
    ++ (List.range 8).flatMap (fun i =>
      leBytes 8 (s.mcu.getD i Mcu.reset).ceCount.toNat ++ leBytes 8 (s.mcu.getD i Mcu.reset).ueCount.toNat)
    ++ (List.range 32).flatMap (fun i => leBytes 8 (Config.reading s.free i))
    ++ leBytes 1 (bnat s.flt.squall) ++ leBytes 1 (bnat s.testOverdue)

/-- R74, R94: an MCTP request over I3C is answered in every state but OFF, unless a reset input is held. -/
def execMctpRequest (s : State) : Host.Outcome State Fault Refusal := .next (if s.alive then (s.reply s.t0 false 0).drawn else s)

end Sys2Proof.Machine
end

