-- ==== Sys2Proof/Machine/Scalar.lean ====
section
/-!
DEFINITION. The scalar instructions of 06_ebkan_scalar_core: integer, branch, load, store, floating point, ordered and
atomic, fences, system registers, ISYNC, XRET, HALT, and exceptions at an instruction boundary.
-/
namespace Sys2Proof.Machine

/-! ## Integer -/

/-- The second operand's value. -/
def Core.opnd (c : Core) (b : Opnd) : Word := match b with | .reg r => c.rg r | .imm v => v

/-- Registers that an operand reads. -/
def opndReads (b : Opnd) : List RegName := match b with | .reg r => [.g r.toNat] | .imm _ => []

/-- The result of an integer function (R146; notes/assumptions/24.md). Shifts take the low six bits of their count. -/
def intVal (f : IntFn) (a b : Word) : Word :=
  match f with
  | .add => a + b
  | .sub => a - b
  | .and => a &&& b
  | .or => a ||| b
  | .xor => a ^^^ b
  | .sll => a <<< (b.toNat % 64)
  | .srl => a >>> (b.toNat % 64)
  | .sra => a.sshiftRight (b.toNat % 64)
  | .seq => if a = b then 1 else 0
  | .slt => if a.toInt < b.toInt then 1 else 0
  | .sltu => if a.toNat < b.toNat then 1 else 0
  | .mul => a * b
  | .mulh => BitVec.ofInt 64 (a.toInt * b.toInt / (2 ^ 64 : Int))
  | .mulhu => BitVec.ofNat 64 (a.toNat * b.toNat / 2 ^ 64)

/-- R146: an integer instruction. -/
def execIntegerOp (n : Nat) (f : IntFn) (rd ra : BitVec 5) (b : Opnd) (s : State) : Host.Outcome State Fault Refusal :=
  .next (s.scalar n (.g ra.toNat :: opndReads b) (fun s => s.done n (fun c => c.wg rd (intVal f (c.rg ra) (c.opnd b)))))

/-- R149: an integer divide: quotient or remainder. -/
def divVal (signed rem : Bool) (a b : Word) : Word :=
  if b = 0 then (if rem then a else BitVec.allOnes 64)
  else if signed then
    (if rem then BitVec.ofInt 64 (a.toInt.tmod b.toInt) else BitVec.ofInt 64 (a.toInt.tdiv b.toInt))
  else if rem then a % b
  else a / b

/-- R149: an integer divide. -/
def execIntegerDivide (n : Nat) (signed rem : Bool) (rd ra : BitVec 5) (b : Opnd) (s : State) :
    Host.Outcome State Fault Refusal :=
  .next (s.scalar n (.g ra.toNat :: opndReads b)
    (fun s => s.done n (fun c => c.wg rd (divVal signed rem (c.rg ra) (c.opnd b)))))

/-! ## Branches -/

/-- Registers that a branch reads. -/
def branchReads : BrOp → List RegName
  | .eq ra rb _ => [.g ra.toNat, .g rb.toNat]
  | .ne ra rb _ => [.g ra.toNat, .g rb.toNat]
  | .lt ra rb _ => [.g ra.toNat, .g rb.toNat]
  | .ge ra rb _ => [.g ra.toNat, .g rb.toNat]
  | .ltu ra rb _ => [.g ra.toNat, .g rb.toNat]
  | .geu ra rb _ => [.g ra.toNat, .g rb.toNat]
  | .jump _ _ => []
  | .jumpReg _ ra _ => [.g ra.toNat]

/-- Where a taken branch goes, none when it falls through. Distances count words from the branch (R150). A jump through a
register clears the two low bits of its target, for which the manual has no rule (notes/assumptions/113.md). -/
def Core.target (c : Core) (b : BrOp) : Option Word :=
  let rel := fun (p : Bool) (w : Word) => if p then some (c.pc + 4 * w) else none
  match b with
  | .eq ra rb w => rel (decide (c.rg ra = c.rg rb)) w
  | .ne ra rb w => rel (decide (c.rg ra ≠ c.rg rb)) w
  | .lt ra rb w => rel (decide ((c.rg ra).toInt < (c.rg rb).toInt)) w
  | .ge ra rb w => rel (decide ((c.rg rb).toInt ≤ (c.rg ra).toInt)) w
  | .ltu ra rb w => rel (decide ((c.rg ra).toNat < (c.rg rb).toNat)) w
  | .geu ra rb w => rel (decide ((c.rg rb).toNat ≤ (c.rg ra).toNat)) w
  | .jump _ w => some (c.pc + 4 * w)
  | .jumpReg _ ra o => some ((c.rg ra + o) &&& ~~~3#64)

/-- The link register of a branch. -/
def branchLink : BrOp → BitVec 5
  | .eq _ _ _ => 0
  | .ne _ _ _ => 0
  | .lt _ _ _ => 0
  | .ge _ _ _ => 0
  | .ltu _ _ _ => 0
  | .geu _ _ _ => 0
  | .jump rd _ => rd
  | .jumpReg rd _ _ => rd

/-- R146: a branch: it retires, links, and goes to its target. -/
def execBranch (n : Nat) (b : BrOp) (s : State) : Host.Outcome State Fault Refusal :=
  .next (s.scalar n (branchReads b) (fun s =>
    let t := (s.core n).target b
    ((s.commit n false).stall n 3).updCore n (fun c =>
      let c1 := c.wg (branchLink b) ((s.core n).pc + 4)
      match t with | some a => { c1 with pc := a } | none => c1)))

/-! ## Loads and stores -/

/-- The address ra + sign-extended imm (R152). -/
def Core.ea (c : Core) (ra : BitVec 5) (imm : BitVec 16) : Nat := (c.rg ra + imm.signExtend 64).toNat

/-- R147, R152: a loaded value of `len` bytes as a g register holds it. -/
def loadVal (len : Nat) (signed : Bool) (v : Nat) : Word :=
  if signed then BitVec.ofInt 64 (sextInt (8 * len) v) else BitVec.ofNat 64 v

/-- R147, R152: a loaded value as a d register holds it: an FP32 value has zero above it, a shorter one free bits. -/
def loadFp (len v : Nat) : Word := if len < 4 then freeAbove (8 * len) v else BitVec.ofNat 64 v

/-- R152 to R154: a scalar load of 1, 2, 4 or 8 bytes. -/
def execScalarLoad (n : Nat) (size : BitVec 2) (signed fp : Bool) (rd ra : BitVec 5) (imm : BitVec 16) (s : State) :
    Host.Outcome State Fault Refusal :=
  let len := 2 ^ size.toNat
  .next (s.scalar n [.g ra.toNat] (fun s => s.loadThen n ((s.core n).ea ra imm) len (fun c v =>
    if fp then c.wd rd (loadFp len v) else c.wg rd (loadVal len signed v))))

/-- R152: a scalar store of 1, 2, 4 or 8 bytes: the low ones of the register. -/
def execScalarStore (n : Nat) (size : BitVec 2) (fp : Bool) (rb ra : BitVec 5) (imm : BitVec 16) (s : State) :
    Host.Outcome State Fault Refusal :=
  let len := 2 ^ size.toNat
  let src := if fp then RegName.d rb.toNat else RegName.g rb.toNat
  .next (s.scalar n [.g ra.toNat, src] (fun s =>
    let c := s.core n
    s.storeAt n (c.ea ra imm) len (if fp then c.rd rb else c.rg rb).toNat))

/-- R152: the oldest store of the buffer is written to the cache or scratchpad. -/
def execStoreDrain (n : Nat) (s : State) : Host.Outcome State Fault Refusal := .next (s.drain n 1)

/-! ## Floating point -/

/-- The vector unit's function of the same name (R188). -/
def scalarFn : ScalarFn → VFpFn
  | .add => .add
  | .sub => .sub
  | .mul => .mul
  | .div => .div
  | .sqrt => .sqrt
  | .min => .min
  | .max => .max
  | .abs => .abs
  | .neg => .neg
  | .sgnj => .sgnj
  | .fma => .fma
  | .fms => .fms
  | .fnma => .fnma
  | .fnms => .fnms

def scalarCmp : ScalarCmp → FpCmpFn
  | .eq => .eq
  | .ne => .ne
  | .lt => .lt
  | .le => .le
  | .un => .un

/-- FP64, or FP32 in the low half of a d register (R147). -/
def dblFmt (dbl : Bool) : FpFmt := if dbl then .fp64 else .fp32

/-- The operand a d register holds in a format: bits [63:32] are not looked at when the format is FP32, though R147 has
them zero (notes/assumptions/114.md). -/
def Core.fpIn (c : Core) (dbl : Bool) (r : BitVec 5) : Nat := if dbl then (c.rd r).toNat else (c.rd r).toNat % 2 ^ 32

/-- R148: the rounding of a scalar conversion: SR draws from g30 and g31 where R125 permits it. -/
def Core.convRm (c : Core) (dst : NumFmt) : Rm :=
  if c.frm = 4 ∧ srDst dst then
    .sr (srBits (c.rg 30) ((c.rg 31 >>> 48).setWidth 16) ((c.rg 31).toNat % 2 ^ 48))
  else rmOfFrm c.frm

/-- How many of its operands a function reads. -/
def scalarArity (f : ScalarFn) : Nat :=
  match f with
  | .sqrt => 1
  | .abs => 1
  | .neg => 1
  | .fma => 3
  | .fms => 3
  | .fnma => 3
  | .fnms => 3
  | .add => 2
  | .sub => 2
  | .mul => 2
  | .div => 2
  | .min => 2
  | .max => 2
  | .sgnj => 2

/-- Registers that a floating-point instruction reads; a conversion that draws also reads g30 and g31 (R148). -/
def Core.fpReads (c : Core) : FpOp → List RegName
  | .arith f _ _ ra rb rc => [RegName.d ra.toNat, .d rb.toNat, .d rc.toNat].take (scalarArity f)
  | .compare _ _ _ ra rb => [.d ra.toNat, .d rb.toNat]
  | .convert src dst _ _ ra =>
    match NumFmt.ofCode src.toNat, NumFmt.ofCode dst.toNat with
    | some a, some b =>
      (if a.isInt then RegName.g ra.toNat else RegName.d ra.toNat) ::
        (if c.frm = 4 ∧ srDst b then [.g 30, .g 31] else [])
    | _, _ => []

/-- R148: the effect of a floating-point instruction on the core; none for a reserved format pair. What lies above an
integer or a narrow result is free (notes/assumptions/25.md). -/
def Core.fpOp (c : Core) (op : FpOp) : Option Core :=
  match op with
  | .arith f dbl rd ra rb rc =>
    let r := fpEl (scalarFn f) (dblFmt dbl) (rmOfFrm c.frm) (c.fpIn dbl ra) (c.fpIn dbl rb) (c.fpIn dbl rc)
    some ((c.wd rd (BitVec.ofNat 64 r.1)).flagged r.2)
  | .compare f dbl rd ra rb =>
    let r := fpCmp (scalarCmp f) (dblFmt dbl) (c.fpIn dbl ra) (c.fpIn dbl rb)
    some ((c.wg rd (if r.1 then 1 else 0)).flagged r.2)
  | .convert src dst sat rd ra =>
    match NumFmt.ofCode src.toNat, NumFmt.ofCode dst.toNat with
    | some a, some b =>
      if !convPairOk a b then none
      else
        let x := (if a.isInt then c.rg ra else c.rd ra).toNat % 2 ^ a.bits
        let r := a.convert b (c.convRm b) sat x
        let v := if b.isInt || decide (b.bits < 32) then freeAbove b.bits r.1 else BitVec.ofNat 64 r.1
        some ((if b.isInt then c.wg rd v else c.wd rd v).flagged r.2)
    | _, _ => none

/-- R148: a scalar floating-point instruction. -/
def execScalarFpOp (n : Nat) (op : FpOp) (s : State) : Host.Outcome State Fault Refusal :=
  .next (s.scalar n [] (fun s =>
    match (s.core n).fpOp op with
    | some c => s.operands n 1 ((s.core n).fpReads op) (fun s => s.done n (fun _ => c))
    | none => s.excAt n 1))

/-! ## Ordered and atomic instructions (Table 6 of 06) -/

/-- R157: an acquire load. -/
def State.ldaq (s : State) (n len : Nat) (rd ra : BitVec 5) : State :=
  s.scalar n [.g ra.toNat] (fun s =>
    let va := ((s.core n).rg ra).toNat
    s.aligned n va len .read (fun s => s.loadThen n va len (fun c v => c.wg rd (freeAbove (8 * len) v))))

/-- R157: a release store. The store buffer writes in program order, so it is performed after every earlier store. -/
def State.strl (s : State) (n len : Nat) (ra rb : BitVec 5) : State :=
  s.scalar n [.g ra.toNat, .g rb.toNat] (fun s =>
    let va := ((s.core n).rg ra).toNat
    s.aligned n va len .write (fun s => s.storeAt n va len ((s.core n).rg rb).toNat))

/-- R159: an atomic whose new value is a function of the old value and the low bytes of rb. -/
def State.amo (s : State) (n len : Nat) (rd ra rb : BitVec 5) (f : Nat → Nat → Option Nat) (more : List RegName) : State :=
  s.scalar n ([.g ra.toNat, .g rb.toNat] ++ more) (fun s =>
    s.atomic n len rd ra (fun old => f old (((s.core n).rg rb).toNat % 2 ^ (8 * len))))

def execLdaqW (n : Nat) (rd ra : BitVec 5) (s : State) : Host.Outcome State Fault Refusal := .next (s.ldaq n 4 rd ra)
def execLdaqD (n : Nat) (rd ra : BitVec 5) (s : State) : Host.Outcome State Fault Refusal := .next (s.ldaq n 8 rd ra)
def execStrlW (n : Nat) (ra rb : BitVec 5) (s : State) : Host.Outcome State Fault Refusal := .next (s.strl n 4 ra rb)
def execStrlD (n : Nat) (ra rb : BitVec 5) (s : State) : Host.Outcome State Fault Refusal := .next (s.strl n 8 ra rb)

def execAmoaddW (n : Nat) (rd ra rb : BitVec 5) (s : State) : Host.Outcome State Fault Refusal :=
  .next (s.amo n 4 rd ra rb (fun old b => some ((old + b) % 2 ^ 32)) [])
def execAmoaddD (n : Nat) (rd ra rb : BitVec 5) (s : State) : Host.Outcome State Fault Refusal :=
  .next (s.amo n 8 rd ra rb (fun old b => some ((old + b) % 2 ^ 64)) [])
def execAmoswapW (n : Nat) (rd ra rb : BitVec 5) (s : State) : Host.Outcome State Fault Refusal :=
  .next (s.amo n 4 rd ra rb (fun _ b => some b) [])
def execAmoswapD (n : Nat) (rd ra rb : BitVec 5) (s : State) : Host.Outcome State Fault Refusal :=
  .next (s.amo n 8 rd ra rb (fun _ b => some b) [])
def execAmocasW (n : Nat) (rd ra rb : BitVec 5) (s : State) : Host.Outcome State Fault Refusal :=
  .next (s.amo n 4 rd ra rb (fun old b => if old = ((s.core n).rg rd).toNat % 2 ^ 32 then some b else none) [.g rd.toNat])
def execAmocasD (n : Nat) (rd ra rb : BitVec 5) (s : State) : Host.Outcome State Fault Refusal :=
  .next (s.amo n 8 rd ra rb (fun old b => if old = ((s.core n).rg rd).toNat then some b else none) [.g rd.toNat])

/-! ## System registers -/

/-- The gang size code of COREID (Table 4 of 06). -/
def gangCode (g : Nat) : Nat := if g = 2 then 1 else if g = 4 then 2 else 0

/-- Whether a number names a system register of Table 4. -/
def sysKnown (k : Nat) : Bool :=
  decide (1 ≤ k ∧ k ≤ 3) || decide (k = 0x10) || decide (k = 0x11) || decide (0x100 ≤ k ∧ k < 0x110)
    || decide (0x800 ≤ k ∧ k ≤ 0x804)

/-- The value of a system register of core n. -/
def State.sysRead (s : State) (n k : Nat) : Word :=
  let c := s.core n
  match k with
  | 0x001 => c.fflags.setWidth 64
  | 0x002 => c.frm.setWidth 64
  | 0x003 => c.vec.vxr.setWidth 64
  | 0x010 => BitVec.ofNat 64 c.ctx
  | 0x011 => BitVec.ofNat 64 (n + gangCode (s.machineOf n).length * 256)
  | 0x800 => c.xcause
  | 0x801 => c.xpc
  | 0x802 => c.xaddr
  | 0x803 => c.xinfo
  | 0x804 => c.sscratch
  | _ => c.pmc.getD (k - 0x100) 0

/-- A write of a system register; a read-only one discards it (R7). -/
def Core.sysWrite (c : Core) (k : Nat) (v : Word) : Core :=
  match k with
  | 0x001 => { c with fflags := v.setWidth 5 }
  | 0x002 => { c with frm := v.setWidth 3 }
  | 0x003 => { c with vec := { c.vec with vxr := v.setWidth 7 } }
  | 0x800 => { c with xcause := v }
  | 0x801 => { c with xpc := v }
  | 0x802 => { c with xaddr := v }
  | 0x803 => { c with xinfo := v }
  | 0x804 => { c with sscratch := v }
  | _ => c

/-- R151: the check of a system register's number and level, then its access. -/
def State.sysAccess (s : State) (n k : Nat) (f : State → State) : State :=
  if !sysKnown k then s.excAt n 1
  else if 0x800 ≤ k ∧ (s.core n).steward = false then s.excAt n 2
  else f s

/-- R151, R169: MFSR. -/
def execMfsr (n : Nat) (rd : BitVec 5) (sr : BitVec 12) (s : State) : Host.Outcome State Fault Refusal :=
  .next (s.scalar n [] (fun s => s.sysAccess n sr.toNat (fun s => s.done n (fun c => c.wg rd (s.sysRead n sr.toNat)))))

/-- R151: MTSR. A reserved RM code is a reserved field value (R124, Table 8). -/
def execMtsr (n : Nat) (ra : BitVec 5) (sr : BitVec 12) (s : State) : Host.Outcome State Fault Refusal :=
  .next (s.scalar n [] (fun s => s.sysAccess n sr.toNat (fun s => s.operands n 1 [.g ra.toNat] (fun s =>
    let v := (s.core n).rg ra
    if sr = 2 ∧ 4 < v.toNat % 8 then s.excAt n 1 else s.done n (fun c => c.sysWrite sr.toNat v)))))

/-! ## Fences, ISYNC, XRET, HALT -/

/-- R158: a fence commits, and counts the cycles it waited at the head. -/
def State.fenceDone (s : State) (n : Nat) : State := (s.stall n 11).done n id

/-- R158: loads are performed in program order in this model. -/
def execFenceLl (n : Nat) (s : State) : Host.Outcome State Fault Refusal := .next (s.scalar n [] (fun s => s.fenceDone n))

/-- R158: the store buffer writes in program order. -/
def execFenceSs (n : Nat) (s : State) : Host.Outcome State Fault Refusal := .next (s.scalar n [] (fun s => s.fenceDone n))

/-- R158: every earlier store is performed when FENCE.FULL commits. -/
def execFenceFull (n : Nat) (s : State) : Host.Outcome State Fault Refusal :=
  .next (s.scalar n [] (fun s => s.whenDrained n (fun s => s.fenceDone n)))

/-- R158, R287: FENCE.ENG waits for the engines and matrix units of the gang, and for its stores. -/
def execFenceEng (n : Nat) (s : State) : Host.Outcome State Fault Refusal :=
  .next (s.scalar n [] (fun s => if s.unitsQuiet n then s.whenDrained n (fun s => s.fenceDone n) else s))

/-- R158, R334: FENCE.DEV also waits until every line that its stores took from the host has been given back: a store is
performed only once the host holds its line no more, and no back-invalidation is then outstanding. -/
def execFenceDev (n : Nat) (s : State) : Host.Outcome State Fault Refusal :=
  .next (s.scalar n [] (fun s =>
    if s.unitsQuiet n then s.whenDrained n (fun s => if s.host.bisnp.isEmpty then s.fenceDone n else s) else s))

/-- R166: ISYNC commits with an empty store buffer. Instruction caches hold no state of their own here: a fetch reads
memory. -/
def execIsync (n : Nat) (s : State) : Host.Outcome State Fault Refusal :=
  .next (s.scalar n [] (fun s => s.whenDrained n (fun s => s.done n (fun c => c.count 14 1))))

/-- R161: XRET returns to Job level at XPC; at Job level it is a privilege fault (Table 8). -/
def execXret (n : Nat) (s : State) : Host.Outcome State Fault Refusal :=
  .next (s.scalar n [] (fun s =>
    if (s.core n).steward then (s.commit n false).updCore n (fun c => { c with steward := false, pc := c.xpc })
    else s.excAt n 2))

/-- R286, R298, R30: HALT ends the core's share once the engines and matrix units of the machine and its stores are done. -/
def execHalt (n : Nat) (s : State) : Host.Outcome State Fault Refusal :=
  .next (s.scalar n [] (fun s => if s.unitsQuiet n then s.whenDrained n (fun s => (s.commit n false).endShare n) else s))

/-! ## Exceptions at a boundary -/

/-- R161, R162: an illegal word, a Steward-only access, or an exception that waits for the boundary is taken. -/
def execExceptionTaken (n : Nat) (why : ExcWhy) (s : State) : Host.Outcome State Fault Refusal :=
  match why with
  | .illegal => .next (s.scalar n [] (fun s => s.excAt n 1))
  | .privilege => .next (s.scalar n [] (fun s => if (s.core n).steward then s else s.excAt n 2))
  | .delivered =>
    match (s.core n).deliver with
    | some d => .next (if d.cause = 7 ∨ d.cause = 8 ∨ (s.core n).ending then s else s.takeDelivered n)
    | none => .next s

/-- R164: takes a delivered abort (7) or kill (8), also while the core waits for a fault resolution. -/
def State.takeStop (s : State) (n cause : Nat) : State :=
  match (s.core n).deliver with
  | some d => if d.cause = cause ∧ (s.core n).ending = false then s.takeDelivered n else s
  | none => s

/-- R164: an abort is taken at the next instruction boundary. -/
def execAbortTaken (n : Nat) (s : State) : Host.Outcome State Fault Refusal := .next (s.takeStop n 7)

/-- R164: a kill is taken at the next instruction boundary. -/
def execKillTaken (n : Nat) (s : State) : Host.Outcome State Fault Refusal := .next (s.takeStop n 8)

end Sys2Proof.Machine
end

