-- ==== Sys2Proof/Machine/Spdm.lean ====
section
/-!
DEFINITION. SPDM over DOE (R100, R101): which requests are answered and with what. A response holds what Table 5 of 04 says it
reveals, in plain bytes; SPDM's own message layout is outside the manual (notes/assumptions/43.md).
-/
namespace Sys2Proof.Machine

/-- SPDM error codes of R92, R101 and R115, as answer codes; 0 answers a request. -/
def spdmInvalid : Nat := 1
def spdmBusy : Nat := 3
def spdmUnspecified : Nat := 5
def spdmUnsupported : Nat := 7

/-- R92, R101: answers a request: nothing before step 8, ERROR Busy from the boot ROM alone, else as the request says. -/
def State.spdmAnswer (s : State) (f : State → State) : State :=
  if !s.configured then s
  else if s.romOnly then s.reply [] false spdmBusy
  else f s

/-- R100, R106, R115: a signed response: the bytes revealed, then the signature of the alias key over an SPDM transcript that
the manual does not lay out. A device without its alias secret key answers Unspecified. -/
def State.signed (s : State) (kind : Nat) (bs : List Byte) (f : State → State) : State :=
  match s.svm.aliasSeed with
  | none => s.reply [] false spdmUnspecified
  | some k =>
    let t := Config.spdmBytes kind s.spdm.draws
    let s1 := f (s.reply (bs ++ Config.mldsaSign k (t ++ bs)) false 0)
    { s1 with spdm := { s1.spdm with draws := s1.spdm.draws + 1 } }

def execGetVersion (s : State) : Host.Outcome State Fault Refusal := .next (s.spdmAnswer (fun s => s.reply [1, 4] false 0))

/-- R100: the eight capabilities of Table 5, one bit each in its order. -/
def execGetCapabilities (s : State) : Host.Outcome State Fault Refusal := .next (s.spdmAnswer (fun s => s.reply [0xFF] false 0))

/-- R100, R101: the one algorithm set, or InvalidRequest when the request does not offer all of it. The answer names the
four algorithms of R100 by one bit each in their order (notes/assumptions/43.md). -/
def execNegotiateAlgorithms (offersAll : Bool) (s : State) : Host.Outcome State Fault Refusal :=
  .next (s.spdmAnswer (fun s => if offersAll then s.reply [0x0F] false 0 else s.reply [] false spdmInvalid))

/-- R100: the certificate slots that hold a chain, one bit each: slot 0 alone. -/
def certSlots : BitVec 8 := 0x01

/-- R100: the slots that hold a chain, and the digest of the chain in slot 0. -/
def execGetDigests (s : State) : Host.Outcome State Fault Refusal :=
  .next (s.spdmAnswer (fun s => s.reply (certSlots :: digestBytes (Config.sha3 s.chain)) false 0))

/-- R100: the chain of slot 0, the one slot that holds any. -/
def execGetCertificate (s : State) : Host.Outcome State Fault Refusal :=
  .next (s.spdmAnswer (fun s => s.reply s.chain false 0))

/-- R100: CHALLENGE: the summary hash of indices 1 to 4, or of all 32, signed by the alias key. -/
def execChallenge (all : Bool) (s : State) : Host.Outcome State Fault Refusal :=
  .next (s.spdmAnswer (fun s => s.signed 0 (digestBytes (Config.sha3 (s.measured (if all then 32 else 4)))) (fun t => t)))

/-- R100: the slot value of an index from 1 to 32, or all 32 for 0xFF, signed when asked. The manual gives no answer for
another index: its code is free. -/
def State.measurements (s : State) (index : Nat) (sign : Bool) : State :=
  let bs := if index = 0xFF then s.measured 32 else digestBytes (s.svm.slots.getD (index - 1) 0)
  if index ≠ 0xFF ∧ (index = 0 ∨ 32 < index) then (s.reply [] false (s.freeWord.toNat % 256)).drawn
  else if sign then s.signed 1 bs (fun t => t)
  else s.reply bs false 0

def execGetMeasurements (index : Nat) (sign : Bool) (s : State) : Host.Outcome State Fault Refusal :=
  .next (s.spdmAnswer (fun s => s.measurements index sign))

/-- R100: KEY_EXCHANGE opens a session for IDE key management. -/
def execKeyExchange (s : State) : Host.Outcome State Fault Refusal :=
  .next (s.spdmAnswer (fun s => s.signed 2 [] (fun t => { t with spdm := { t.spdm with
    sessions := t.spdm.sessions ++ [⟨t.spdm.nextSession, false, 0⟩]
    nextSession := t.spdm.nextSession + 1 } })))

/-- A request within a session; there is no such request without the session (notes/assumptions/7.md). -/
def State.inSession (s : State) (id : Nat) (f : SpdmSession → SpdmSession) : State :=
  s.spdmAnswer (fun s =>
    if s.spdm.sessions.any (fun x => decide (x.id = id)) then
      let t := s.reply [] false 0
      { t with spdm := { t.spdm with sessions := t.spdm.sessions.map (fun (x : SpdmSession) => if x.id = id then f x else x) } }
    else s)

/-- R379: the IDE streams have keys once a session for IDE key management is complete. -/
def State.ideKeys (s : State) : State :=
  { s with host := { s.host with ideKeyed := s.host.ideKeyed || s.spdm.sessions.any (·.finished) } }

/-- R100, R379: FINISH completes a session's handshake; IDE_KM over it gives the IDE streams their keys (DESIGN CHOICE,
notes/assumptions/120.md). -/
def execFinish (id : Nat) (s : State) : Host.Outcome State Fault Refusal :=
  .next (s.inSession id (fun x => { x with finished := true })).ideKeys

/-- R100: KEY_UPDATE. -/
def execKeyUpdate (id : Nat) (s : State) : Host.Outcome State Fault Refusal :=
  .next (s.inSession id (fun x => { x with updates := x.updates + 1 }))

/-- R100: HEARTBEAT. -/
def execHeartbeat (id : Nat) (s : State) : Host.Outcome State Fault Refusal := .next (s.inSession id (fun x => x))

/-- R100: END_SESSION. -/
def execEndSession (id : Nat) (s : State) : Host.Outcome State Fault Refusal :=
  let s1 := s.inSession id (fun x => x)
  .next { s1 with spdm := { s1.spdm with
    sessions := if s.configured && !s.romOnly then s1.spdm.sessions.filter (fun x => decide (x.id ≠ id)) else s1.spdm.sessions } }

/-- R101: any other request code. -/
def execUnsupportedRequest (s : State) : Host.Outcome State Fault Refusal :=
  .next (s.spdmAnswer (fun s => s.reply [] false spdmUnsupported))

end Sys2Proof.Machine
end

