-- ==== Sys2Proof/Machine/Tap.lean ====
section
/-!
DEFINITION. The test access port (R110, R111), the unlocking of a debug session (R114), and what its holder may reach (R515).
-/
namespace Sys2Proof.Machine

/-- Loads an instruction; in OFF the port is held in reset. -/
def State.loadIr (s : State) (ir : TapIr) : State :=
  if s.dev.life = .off then s else { s with tap := { s.tap with ir := ir } }

/-- R110: an instruction that takes the pins from their function loads as BYPASS in SERVICE. -/
def State.loadPins (s : State) (ir : TapIr) : State := s.loadIr (if s.dev.life = .service then .bypass else ir)

def execBypass (s : State) : Host.Outcome State Fault Refusal := .next (s.loadIr .bypass)

/-- R111: IDCODE reads 0x17A2_15CB. -/
def execIdcode (s : State) : Host.Outcome State Fault Refusal :=
  let s1 := s.loadIr .idcode
  .next (if s.dev.life = .off then s else { s1 with tap := { s1.tap with capture := 0x17A215CB } })

def execSamplePreload (s : State) : Host.Outcome State Fault Refusal := .next (s.loadIr .samplePreload)
def execExtest (s : State) : Host.Outcome State Fault Refusal := .next (s.loadPins .extest)
def execExtestPulse (s : State) : Host.Outcome State Fault Refusal := .next (s.loadPins .extestPulse)
def execExtestTrain (s : State) : Host.Outcome State Fault Refusal := .next (s.loadPins .extestTrain)
def execClamp (s : State) : Host.Outcome State Fault Refusal := .next (s.loadPins .clamp)
def execHighz (s : State) : Host.Outcome State Fault Refusal := .next (s.loadPins .highz)

/-- R114: a secret is shifted in: a match grants the token's scopes, the eighth wrong one ends the session. -/
def State.unlock (s : State) (secret : List Byte) : State :=
  match s.svm.dbg with
  | none => s
  | some d =>
    if Config.sha3 secret = d.secretHash then { s with svm := { s.svm with dbg := some { d with granted := d.scope } } }
    else
      let s1 : State := { s with svm := { s.svm with dbg := some { d with wrong := d.wrong + 1 } } }
      if 7 ≤ d.wrong then s1.endSession else s1

def execDbgUnlock (secret : List Byte) (s : State) : Host.Outcome State Fault Refusal :=
  .next (if s.dev.life = .off then s else (s.loadIr .dbgUnlock).unlock secret)

/-! ## The debug access port -/

/-- R515: whether a device physical address is memory that the debug access port reaches: the tables of set 0, DRAM that is
present, and a core's scratchpad. -/
def State.physOk (s : State) (pa : Nat) : Bool :=
  if pa < dramTop then (decide (pa < 0x880000) || decide (0x1000000 ≤ pa)) && s.present pa
  else
    let n := (pa - dramTop) / 0x400000
    decide (n < 64) && decide ((pa - dramTop) % 0x400000 < s.spadBytes n)

/-- R515: a byte as the debug access port reads it. The tables of set 0 read as free bytes (notes/assumptions/44.md). -/
def State.physRead (s : State) (pa : Nat) : Byte :=
  if !s.physOk pa then 0
  else if pa < 0x880000 then Config.tableByte s.free pa
  else s.rdByte pa

/-- The scopes granted: 1 full scan, 2 debug access port. -/
def State.granted (s : State) (b : Nat) : Bool := match s.svm.dbg with | some d => bit d.granted b | none => false

/-- R71: whether an address lies in the mirror reserve, which Table 5 of 03 does not open to the debug holder. -/
def State.inReserve (s : State) (pa : Nat) : Bool :=
  decide (s.twc.reserve ≤ pa / 65536) && decide (pa / 65536 < s.twc.reserve + s.twc.reserveBlocks)

/-- R71, R72: whether the debug holder may read a register: not what holds the owner key or its identifier. -/
def debugReads (off : Nat) : Bool :=
  !(decide (0x200020 ≤ off) && decide (off < 0x200030)) && !(decide (0x201000 ≤ off) && decide (off < 0x203000))

/-- R71, R72: whether the debug holder may write a register: those of contexts, ranges, queues, windows and placement, less
the resets of counters. Notes/assumptions/121.md. -/
def debugWrites (b : Block) (o v : Nat) : Bool :=
  match b with
  | .xlt => true
  | .qmg => decide (o / 8 ≠ 6)
  | .ple => !bit v 2
  | _ => false

/-- R71, R115, R515: an access of the debug holder, within the scopes granted and the cells of Table 5 of 03. -/
def State.debugAccess (s : State) (a : DbgAccess) : State :=
  match a with
  | .memRead pa n =>
    if s.granted 1 then
      ({ s with tap := { s.tap with capture := leNat ((addrs pa n).map (fun x => if s.inReserve x then 0 else s.physRead x)) } }).drawn
    else s
  | .memWrite pa bs =>
    if s.granted 1 then
      s.store (((addrs pa bs.length).zip bs).filter (fun c => s.physOk c.1 && decide (0x1000000 ≤ c.1) && !s.inReserve c.1))
    else s
  | .regRead off size =>
    if s.granted 1 then { s with tap := { s.tap with capture := if debugReads off then s.barRead off size else 0 } } else s
  | .regWrite off size v =>
    if s.granted 1 && barOk off size then
      (match blockAt off with
      | some (b, o) =>
        if !s.answers b || !debugWrites b o v then s
        else if s.gated b then s.holdWrite b off size v
        else s.blockWrite b o size v
      | none => s)
    else s
  | .scan => if s.granted 0 then ({ s with tap := { s.tap with capture := s.freeWord.toNat } }).drawn else s

def execDebugPortAccess (a : DbgAccess) (s : State) : Host.Outcome State Fault Refusal :=
  .next (if s.dev.life = .off then s else s.debugAccess a)

end Sys2Proof.Machine
end

