-- ==== Sys2Proof/Machine/Vector.lean ====
section
/-!
DEFINITION. The vector instructions of 07_vector_instructions on the core that leads the vector machine (R172, R205):
configuration (R176), and one meaning for each function over the shared forms of Machine/VecForms.lean.
-/
namespace Sys2Proof.Machine

/-- Gang size of the machine that core n leads. -/
def State.gang (s : State) (n : Nat) : Nat := (s.machineOf n).length

/-- GANG_ISSUE counts vector instructions of a gang (Table 9 of 06). -/
def State.issued (s : State) (n : Nat) : State := if s.gang n = 1 then s else s.updCore n (fun c => c.count 12 1)

/-- Registers a vector instruction reads, and vector and predicate registers it writes: `parts` where every element of
the register may be kept, `whole` where none is. -/
structure VecUse where
  reads : List RegName
  parts : List RegName
  whole : List RegName

/-- The registers whose old value no element of the result keeps: an element-wise write at vlmax that merges nothing. -/
def VecUse.fresh (u : VecUse) (c : Core) (g : Nat) (pm : BitVec 3) (z : Bool) : List RegName :=
  u.whole ++ (if c.vec.vl = vlmaxOf g c.vec.sew ∧ (pm = 0 ∨ z = true) then u.parts else [])

/-- A register written whole is no longer poisoned (R446). -/
def State.fresh (s : State) (n : Nat) (l : List RegName) : State :=
  (s.machineOf n).foldl (fun t k => t.updCore k (fun c => { c with regPoison := c.regPoison.filter (fun r => !l.contains r) })) s

/-- R184, R185: a vector instruction: illegal where the form answers none, else it commits with the core's change. -/
def State.vector (s : State) (n : Nat) (u : VecUse) (pm : BitVec 3) (z : Bool) (f : Core → Nat → Option Core) : State :=
  s.instr n 4 [] 2 (fun s =>
    match f (s.core n) (s.gang n) with
    | none => s.excAt n 1
    | some c => s.operands n 2 u.reads (fun s =>
        (((s.updCore n (fun _ => c)).fresh n (u.fresh (s.core n) (s.gang n) pm z)).issued n).commit n false))

/-- Replaces the vector state. -/
def Core.withVec (c : Core) (x : Option Vec) : Option Core := x.map (fun v => { c with vec := v })

/-- The second source of a common word: a scalar of a file, or a vector register (Table 3 of 07). -/
def srcB (w : VecWord) (fp : Bool) : List RegName :=
  if w.s then [if fp then .d w.vb.toNat else .g w.vb.toNat] else [.v w.vb.toNat]

/-- R179: a destination that merges is read as well. -/
def mergeRead (w : VecWord) : List RegName := if w.pm ≠ 0 ∧ w.z = false then [.v w.vd.toNat] else []

/-- What an element-wise function of sources a and b uses; `acc` reads the destination. -/
def useAB (w : VecWord) (fp acc : Bool) : VecUse :=
  ⟨[.v w.va.toNat, .p w.pm.toNat] ++ srcB w fp ++ (if acc then [.v w.vd.toNat] else mergeRead w), [.v w.vd.toNat], []⟩

/-- What an element-wise function of source a alone uses. -/
def useA (w : VecWord) : VecUse := ⟨[.v w.va.toNat, .p w.pm.toNat] ++ mergeRead w, [.v w.vd.toNat], []⟩

/-- What a function that writes a destination pair uses (R189); `pa` says that VA names a pair. -/
def useWide (w : VecWord) (pa acc : Bool) : VecUse :=
  ⟨[.v w.va.toNat, .p w.pm.toNat] ++ srcB w true ++ (if pa then [.v (w.va.toNat + 1)] else [])
      ++ (if acc || decide (w.pm ≠ 0 ∧ w.z = false) then [.v w.vd.toNat, .v (w.vd.toNat + 1)] else []),
    [.v w.vd.toNat, .v (w.vd.toNat + 1)], []⟩

/-- What a compare into pd uses (R190). -/
def useCmp (w : VecWord) (fp : Bool) : VecUse :=
  ⟨[.v w.va.toNat, .p w.pm.toNat] ++ srcB w fp, [], [.p w.vd.toNat]⟩

/-- What a reduction uses: it writes one element (R192). -/
def useRed (w : VecWord) (fp : Bool) : VecUse := ⟨[.v w.va.toNat, .p w.pm.toNat] ++ srcB w fp, [], []⟩

/-- What a scan uses: VB names its segment predicate, and it writes every element below vl (R194). VCOMPRESS writes them
all as well, and its VB is zero (R195). -/
def useScan (w : VecWord) : VecUse := ⟨[.v w.va.toNat, .p w.pm.toNat, .p w.vb.toNat], [.v w.vd.toNat], []⟩

/-- A form that changes the vector state alone. -/
def State.vform (s : State) (n : Nat) (w : VecWord) (u : VecUse) (f : Core → Nat → Option Vec) : State :=
  s.vector n u w.pm w.z (fun c g => c.withVec (f c g))

/-- A scan or VCOMPRESS writes every element below vl, whatever its mask bit (R194, R195). -/
def State.vfull (s : State) (n : Nat) (w : VecWord) (u : VecUse) (f : Core → Nat → Option Vec) : State :=
  s.vector n u w.pm true (fun c g => c.withVec (f c g))

/-- A predicate function, which reads and writes predicate registers alone (R191). -/
def State.pform (s : State) (n : Nat) (w : VecWord) (f : Vec → Option Vec) : State :=
  s.vector n ⟨[.p w.va.toNat, .p w.vb.toNat, .p w.pm.toNat], [], [.p w.vd.toNat]⟩ w.pm w.z (fun c _ => c.withVec (f c.vec))

/-- A function that writes a scalar register (R191, R198) or one element; it reads registers alone. -/
def State.vscalar (s : State) (n : Nat) (reads : List RegName) (f : Core → Nat → Option Core) : State :=
  s.vector n ⟨reads, [], []⟩ 0 false f

/-! ## Configuration (R176) -/

/-- R176: sets SEW and vl, and writes the new vl to RD. -/
def Core.setvl (c : Core) (g : Nat) (rd : BitVec 5) (sew : BitVec 2) (want : Nat) : Core :=
  let vl := min want (vlmaxOf g sew.toNat)
  { c with vec := { c.vec with vl := vl, sew := sew.toNat } }.wg rd (BitVec.ofNat 64 vl)

/-- R176: the word that GETVL reads. -/
def Vec.getvl (x : Vec) (g : Nat) : Word := BitVec.ofNat 64 (x.vl + fld x.sew 16 + fld (vlmaxOf g x.sew) 32)

def execSetvl (n : Nat) (rd ra : BitVec 5) (sew : BitVec 2) (s : State) : Host.Outcome State Fault Refusal :=
  .next (s.vscalar n [.g ra.toNat] (fun c g => some (c.setvl g rd sew (c.rg ra).toNat)))

def execSetvli (n : Nat) (rd : BitVec 5) (sew : BitVec 2) (imm : BitVec 12) (s : State) : Host.Outcome State Fault Refusal :=
  .next (s.vscalar n [] (fun c g => some (c.setvl g rd sew imm.toNat)))

def execGetvl (n : Nat) (rd : BitVec 5) (s : State) : Host.Outcome State Fault Refusal :=
  .next (s.vscalar n [] (fun c g => some (c.wg rd (c.vec.getvl g))))

/-! ## Integer (R186) -/

def execVadd (n : Nat) (w : VecWord) (s : State) : Host.Outcome State Fault Refusal :=
  .next (s.vform n w (useAB w false false) (fun c _ => vInteger .add c.vec w (c.rg w.vb)))

def execVsub (n : Nat) (w : VecWord) (s : State) : Host.Outcome State Fault Refusal :=
  .next (s.vform n w (useAB w false false) (fun c _ => vInteger .sub c.vec w (c.rg w.vb)))

def execVmul (n : Nat) (w : VecWord) (s : State) : Host.Outcome State Fault Refusal :=
  .next (s.vform n w (useAB w false false) (fun c _ => vInteger .mul c.vec w (c.rg w.vb)))

def execVmulh (n : Nat) (w : VecWord) (s : State) : Host.Outcome State Fault Refusal :=
  .next (s.vform n w (useAB w false false) (fun c _ => vInteger .mulh c.vec w (c.rg w.vb)))

def execVmulhu (n : Nat) (w : VecWord) (s : State) : Host.Outcome State Fault Refusal :=
  .next (s.vform n w (useAB w false false) (fun c _ => vInteger .mulhu c.vec w (c.rg w.vb)))

def execVmin (n : Nat) (w : VecWord) (s : State) : Host.Outcome State Fault Refusal :=
  .next (s.vform n w (useAB w false false) (fun c _ => vInteger .min c.vec w (c.rg w.vb)))

def execVmax (n : Nat) (w : VecWord) (s : State) : Host.Outcome State Fault Refusal :=
  .next (s.vform n w (useAB w false false) (fun c _ => vInteger .max c.vec w (c.rg w.vb)))

def execVminu (n : Nat) (w : VecWord) (s : State) : Host.Outcome State Fault Refusal :=
  .next (s.vform n w (useAB w false false) (fun c _ => vInteger .minu c.vec w (c.rg w.vb)))

def execVmaxu (n : Nat) (w : VecWord) (s : State) : Host.Outcome State Fault Refusal :=
  .next (s.vform n w (useAB w false false) (fun c _ => vInteger .maxu c.vec w (c.rg w.vb)))

def execVand (n : Nat) (w : VecWord) (s : State) : Host.Outcome State Fault Refusal :=
  .next (s.vform n w (useAB w false false) (fun c _ => vInteger .and c.vec w (c.rg w.vb)))

def execVor (n : Nat) (w : VecWord) (s : State) : Host.Outcome State Fault Refusal :=
  .next (s.vform n w (useAB w false false) (fun c _ => vInteger .or c.vec w (c.rg w.vb)))

def execVxor (n : Nat) (w : VecWord) (s : State) : Host.Outcome State Fault Refusal :=
  .next (s.vform n w (useAB w false false) (fun c _ => vInteger .xor c.vec w (c.rg w.vb)))

def execVsll (n : Nat) (w : VecWord) (s : State) : Host.Outcome State Fault Refusal :=
  .next (s.vform n w (useAB w false false) (fun c _ => vInteger .sll c.vec w (c.rg w.vb)))

def execVsrl (n : Nat) (w : VecWord) (s : State) : Host.Outcome State Fault Refusal :=
  .next (s.vform n w (useAB w false false) (fun c _ => vInteger .srl c.vec w (c.rg w.vb)))

def execVsra (n : Nat) (w : VecWord) (s : State) : Host.Outcome State Fault Refusal :=
  .next (s.vform n w (useAB w false false) (fun c _ => vInteger .sra c.vec w (c.rg w.vb)))

def execVsadd (n : Nat) (w : VecWord) (s : State) : Host.Outcome State Fault Refusal :=
  .next (s.vform n w (useAB w false false) (fun c _ => vInteger .sadd c.vec w (c.rg w.vb)))

def execVssub (n : Nat) (w : VecWord) (s : State) : Host.Outcome State Fault Refusal :=
  .next (s.vform n w (useAB w false false) (fun c _ => vInteger .ssub c.vec w (c.rg w.vb)))

def execVmacc (n : Nat) (w : VecWord) (s : State) : Host.Outcome State Fault Refusal :=
  .next (s.vform n w (useAB w false true) (fun c _ => vInteger .macc c.vec w (c.rg w.vb)))

def execVid (n : Nat) (w : VecWord) (s : State) : Host.Outcome State Fault Refusal :=
  .next (s.vform n w ⟨.p w.pm.toNat :: mergeRead w, [.v w.vd.toNat], []⟩ (fun c _ => vInteger .vid c.vec w (c.rg w.vb)))

/-! ## Floating point (R188) -/

def execVfadd (n : Nat) (w : VecWord) (s : State) : Host.Outcome State Fault Refusal :=
  .next (s.vform n w (useAB w true false) (fun c _ => vFloat .add c.vec w c.frm (c.rd w.vb)))

def execVfsub (n : Nat) (w : VecWord) (s : State) : Host.Outcome State Fault Refusal :=
  .next (s.vform n w (useAB w true false) (fun c _ => vFloat .sub c.vec w c.frm (c.rd w.vb)))

def execVfmul (n : Nat) (w : VecWord) (s : State) : Host.Outcome State Fault Refusal :=
  .next (s.vform n w (useAB w true false) (fun c _ => vFloat .mul c.vec w c.frm (c.rd w.vb)))

def execVfdiv (n : Nat) (w : VecWord) (s : State) : Host.Outcome State Fault Refusal :=
  .next (s.vform n w (useAB w true false) (fun c _ => vFloat .div c.vec w c.frm (c.rd w.vb)))

def execVfsqrt (n : Nat) (w : VecWord) (s : State) : Host.Outcome State Fault Refusal :=
  .next (s.vform n w (useA w) (fun c _ => vFloat .sqrt c.vec w c.frm (c.rd w.vb)))

def execVfrec (n : Nat) (w : VecWord) (s : State) : Host.Outcome State Fault Refusal :=
  .next (s.vform n w (useA w) (fun c _ => vFloat .recip c.vec w c.frm (c.rd w.vb)))

def execVfrsqrt (n : Nat) (w : VecWord) (s : State) : Host.Outcome State Fault Refusal :=
  .next (s.vform n w (useA w) (fun c _ => vFloat .rsqrt c.vec w c.frm (c.rd w.vb)))

def execVfmin (n : Nat) (w : VecWord) (s : State) : Host.Outcome State Fault Refusal :=
  .next (s.vform n w (useAB w true false) (fun c _ => vFloat .min c.vec w c.frm (c.rd w.vb)))

def execVfmax (n : Nat) (w : VecWord) (s : State) : Host.Outcome State Fault Refusal :=
  .next (s.vform n w (useAB w true false) (fun c _ => vFloat .max c.vec w c.frm (c.rd w.vb)))

def execVfabs (n : Nat) (w : VecWord) (s : State) : Host.Outcome State Fault Refusal :=
  .next (s.vform n w (useA w) (fun c _ => vFloat .abs c.vec w c.frm (c.rd w.vb)))

def execVfneg (n : Nat) (w : VecWord) (s : State) : Host.Outcome State Fault Refusal :=
  .next (s.vform n w (useA w) (fun c _ => vFloat .neg c.vec w c.frm (c.rd w.vb)))

def execVfsgnj (n : Nat) (w : VecWord) (s : State) : Host.Outcome State Fault Refusal :=
  .next (s.vform n w (useAB w true false) (fun c _ => vFloat .sgnj c.vec w c.frm (c.rd w.vb)))

def execVfma (n : Nat) (w : VecWord) (s : State) : Host.Outcome State Fault Refusal :=
  .next (s.vform n w (useAB w true true) (fun c _ => vFloat .fma c.vec w c.frm (c.rd w.vb)))

def execVfms (n : Nat) (w : VecWord) (s : State) : Host.Outcome State Fault Refusal :=
  .next (s.vform n w (useAB w true true) (fun c _ => vFloat .fms c.vec w c.frm (c.rd w.vb)))

def execVfnma (n : Nat) (w : VecWord) (s : State) : Host.Outcome State Fault Refusal :=
  .next (s.vform n w (useAB w true true) (fun c _ => vFloat .fnma c.vec w c.frm (c.rd w.vb)))

def execVfnms (n : Nat) (w : VecWord) (s : State) : Host.Outcome State Fault Refusal :=
  .next (s.vform n w (useAB w true true) (fun c _ => vFloat .fnms c.vec w c.frm (c.rd w.vb)))

/-! ## Widening and dot products (R189) -/

def execVfwmul (n : Nat) (w : VecWord) (s : State) : Host.Outcome State Fault Refusal :=
  .next (s.vform n w (useWide w false false) (fun c g => vWiden .mul c.vec g w c.frm (c.rd w.vb)))

def execVfwma (n : Nat) (w : VecWord) (s : State) : Host.Outcome State Fault Refusal :=
  .next (s.vform n w (useWide w false true) (fun c g => vWiden .ma c.vec g w c.frm (c.rd w.vb)))

def execVfwadd (n : Nat) (w : VecWord) (s : State) : Host.Outcome State Fault Refusal :=
  .next (s.vform n w (useWide w false false) (fun c g => vWiden .add c.vec g w c.frm (c.rd w.vb)))

def execVfwaddw (n : Nat) (w : VecWord) (s : State) : Host.Outcome State Fault Refusal :=
  .next (s.vform n w (useWide w true false) (fun c g => vWiden .addw c.vec g w c.frm (c.rd w.vb)))

def execVdot4I8 (n : Nat) (w : VecWord) (s : State) : Host.Outcome State Fault Refusal :=
  .next (s.vform n w (useAB w false true) (fun c _ => vDot .i8 c.vec w ⟨c.rg w.vb, c.rd w.vb⟩))

def execVdot2H (n : Nat) (w : VecWord) (s : State) : Host.Outcome State Fault Refusal :=
  .next (s.vform n w (useAB w true true) (fun c _ => vDot .h c.vec w ⟨c.rg w.vb, c.rd w.vb⟩))

def execVdot4E4m3 (n : Nat) (w : VecWord) (s : State) : Host.Outcome State Fault Refusal :=
  .next (s.vform n w (useAB w true true) (fun c _ => vDot .e4m3 c.vec w ⟨c.rg w.vb, c.rd w.vb⟩))

def execVdot4E5m2 (n : Nat) (w : VecWord) (s : State) : Host.Outcome State Fault Refusal :=
  .next (s.vform n w (useAB w true true) (fun c _ => vDot .e5m2 c.vec w ⟨c.rg w.vb, c.rd w.vb⟩))

def execVdot4E4e5 (n : Nat) (w : VecWord) (s : State) : Host.Outcome State Fault Refusal :=
  .next (s.vform n w (useAB w true true) (fun c _ => vDot .e4e5 c.vec w ⟨c.rg w.vb, c.rd w.vb⟩))

/-! ## Compares (R190) -/

def execVcmpeq (n : Nat) (w : VecWord) (s : State) : Host.Outcome State Fault Refusal :=
  .next (s.vform n w (useCmp w false) (fun c _ => vCompare .eq c.vec w (c.rg w.vb)))

def execVcmpne (n : Nat) (w : VecWord) (s : State) : Host.Outcome State Fault Refusal :=
  .next (s.vform n w (useCmp w false) (fun c _ => vCompare .ne c.vec w (c.rg w.vb)))

def execVcmplt (n : Nat) (w : VecWord) (s : State) : Host.Outcome State Fault Refusal :=
  .next (s.vform n w (useCmp w false) (fun c _ => vCompare .lt c.vec w (c.rg w.vb)))

def execVcmple (n : Nat) (w : VecWord) (s : State) : Host.Outcome State Fault Refusal :=
  .next (s.vform n w (useCmp w false) (fun c _ => vCompare .le c.vec w (c.rg w.vb)))

def execVcmpltu (n : Nat) (w : VecWord) (s : State) : Host.Outcome State Fault Refusal :=
  .next (s.vform n w (useCmp w false) (fun c _ => vCompare .ltu c.vec w (c.rg w.vb)))

def execVcmpleu (n : Nat) (w : VecWord) (s : State) : Host.Outcome State Fault Refusal :=
  .next (s.vform n w (useCmp w false) (fun c _ => vCompare .leu c.vec w (c.rg w.vb)))

def execVfcmpeq (n : Nat) (w : VecWord) (s : State) : Host.Outcome State Fault Refusal :=
  .next (s.vform n w (useCmp w true) (fun c _ => vFCompare .eq c.vec w (c.rd w.vb)))

def execVfcmpne (n : Nat) (w : VecWord) (s : State) : Host.Outcome State Fault Refusal :=
  .next (s.vform n w (useCmp w true) (fun c _ => vFCompare .ne c.vec w (c.rd w.vb)))

def execVfcmplt (n : Nat) (w : VecWord) (s : State) : Host.Outcome State Fault Refusal :=
  .next (s.vform n w (useCmp w true) (fun c _ => vFCompare .lt c.vec w (c.rd w.vb)))

def execVfcmple (n : Nat) (w : VecWord) (s : State) : Host.Outcome State Fault Refusal :=
  .next (s.vform n w (useCmp w true) (fun c _ => vFCompare .le c.vec w (c.rd w.vb)))

def execVfcmpun (n : Nat) (w : VecWord) (s : State) : Host.Outcome State Fault Refusal :=
  .next (s.vform n w (useCmp w true) (fun c _ => vFCompare .un c.vec w (c.rd w.vb)))

/-! ## Predicate logic (R191) -/

def execPAnd (n : Nat) (w : VecWord) (s : State) : Host.Outcome State Fault Refusal :=
  .next (s.pform n w (fun x => vPredLogic .and x w))

def execPOr (n : Nat) (w : VecWord) (s : State) : Host.Outcome State Fault Refusal :=
  .next (s.pform n w (fun x => vPredLogic .or x w))

def execPXor (n : Nat) (w : VecWord) (s : State) : Host.Outcome State Fault Refusal :=
  .next (s.pform n w (fun x => vPredLogic .xor x w))

def execPAndn (n : Nat) (w : VecWord) (s : State) : Host.Outcome State Fault Refusal :=
  .next (s.pform n w (fun x => vPredLogic .andn x w))

def execPNot (n : Nat) (w : VecWord) (s : State) : Host.Outcome State Fault Refusal :=
  .next (s.pform n w (fun x => vPredLogic .not x w))

def execPSet (n : Nat) (w : VecWord) (s : State) : Host.Outcome State Fault Refusal :=
  .next (s.pform n w (fun x => vPredLogic .set x w))

def execPcnt (n : Nat) (w : VecWord) (s : State) : Host.Outcome State Fault Refusal :=
  .next (s.vscalar n [.p w.va.toNat, .p w.pm.toNat] (fun c _ => (vPcnt c.vec w).map (fun v => c.wg w.vd v)))

def execPfirst (n : Nat) (w : VecWord) (s : State) : Host.Outcome State Fault Refusal :=
  .next (s.vscalar n [.p w.va.toNat, .p w.pm.toNat] (fun c _ => (vPfirst c.vec w).map (fun v => c.wg w.vd v)))

/-! ## Reductions and scans (R192 to R194) -/

def execVredsum (n : Nat) (w : VecWord) (s : State) : Host.Outcome State Fault Refusal :=
  .next (s.vform n w (useRed w false) (fun c _ => vRedInt .sum c.vec w (c.rg w.vb)))

def execVredmin (n : Nat) (w : VecWord) (s : State) : Host.Outcome State Fault Refusal :=
  .next (s.vform n w (useRed w false) (fun c _ => vRedInt .min c.vec w (c.rg w.vb)))

def execVredmax (n : Nat) (w : VecWord) (s : State) : Host.Outcome State Fault Refusal :=
  .next (s.vform n w (useRed w false) (fun c _ => vRedInt .max c.vec w (c.rg w.vb)))

def execVredminu (n : Nat) (w : VecWord) (s : State) : Host.Outcome State Fault Refusal :=
  .next (s.vform n w (useRed w false) (fun c _ => vRedInt .minu c.vec w (c.rg w.vb)))

def execVredmaxu (n : Nat) (w : VecWord) (s : State) : Host.Outcome State Fault Refusal :=
  .next (s.vform n w (useRed w false) (fun c _ => vRedInt .maxu c.vec w (c.rg w.vb)))

def execVfredsum (n : Nat) (w : VecWord) (s : State) : Host.Outcome State Fault Refusal :=
  .next (s.vform n w (useRed w true) (fun c _ => vRedFp .sum c.vec w c.frm (c.rd w.vb)))

def execVfredmin (n : Nat) (w : VecWord) (s : State) : Host.Outcome State Fault Refusal :=
  .next (s.vform n w (useRed w true) (fun c _ => vRedFp .min c.vec w c.frm (c.rd w.vb)))

def execVfredmax (n : Nat) (w : VecWord) (s : State) : Host.Outcome State Fault Refusal :=
  .next (s.vform n w (useRed w true) (fun c _ => vRedFp .max c.vec w c.frm (c.rd w.vb)))

def execVfredosum (n : Nat) (w : VecWord) (s : State) : Host.Outcome State Fault Refusal :=
  .next (s.vform n w (useRed w true) (fun c _ => vRedOsum c.vec w c.frm (c.rd w.vb)))

def execVscansum (n : Nat) (w : VecWord) (s : State) : Host.Outcome State Fault Refusal :=
  .next (s.vfull n w (useScan w) (fun c _ => vScanInt .sum c.vec w))

def execVscanmin (n : Nat) (w : VecWord) (s : State) : Host.Outcome State Fault Refusal :=
  .next (s.vfull n w (useScan w) (fun c _ => vScanInt .min c.vec w))

def execVscanmax (n : Nat) (w : VecWord) (s : State) : Host.Outcome State Fault Refusal :=
  .next (s.vfull n w (useScan w) (fun c _ => vScanInt .max c.vec w))

def execVfscansum (n : Nat) (w : VecWord) (s : State) : Host.Outcome State Fault Refusal :=
  .next (s.vfull n w (useScan w) (fun c _ => vScanFp .sum c.vec w c.frm))

def execVfscanmin (n : Nat) (w : VecWord) (s : State) : Host.Outcome State Fault Refusal :=
  .next (s.vfull n w (useScan w) (fun c _ => vScanFp .min c.vec w c.frm))

def execVfscanmax (n : Nat) (w : VecWord) (s : State) : Host.Outcome State Fault Refusal :=
  .next (s.vfull n w (useScan w) (fun c _ => vScanFp .max c.vec w c.frm))

/-! ## Permutes (R195) -/

def execVperm (n : Nat) (w : VecWord) (s : State) : Host.Outcome State Fault Refusal :=
  .next (s.vform n w (useAB w false false) (fun c _ => vPerm c.vec w))

def execVbcaste (n : Nat) (w : VecWord) (s : State) : Host.Outcome State Fault Refusal :=
  .next (s.vform n w (useAB w false false) (fun c _ => vBcaste c.vec w (c.rg w.vb)))

def execVslidedn (n : Nat) (w : VecWord) (s : State) : Host.Outcome State Fault Refusal :=
  .next (s.vform n w (useAB w false false) (fun c _ => vSlideDn c.vec w (c.rg w.vb)))

def execVslideup (n : Nat) (w : VecWord) (s : State) : Host.Outcome State Fault Refusal :=
  .next (s.vform n w (useAB w false true) (fun c _ => vSlideUp c.vec w (c.rg w.vb)))

def execVrev (n : Nat) (w : VecWord) (s : State) : Host.Outcome State Fault Refusal :=
  .next (s.vform n w (useA w) (fun c _ => vRev c.vec w))

def execVcompress (n : Nat) (w : VecWord) (s : State) : Host.Outcome State Fault Refusal :=
  .next (s.vfull n w (useScan w) (fun c _ => vCompress c.vec w))

def execVexpand (n : Nat) (w : VecWord) (s : State) : Host.Outcome State Fault Refusal :=
  .next (s.vform n w (useA w) (fun c _ => vExpand c.vec w))

/-! ## Moves (R198) -/

def execVmv (n : Nat) (w : VecWord) (s : State) : Host.Outcome State Fault Refusal :=
  .next (s.vform n w (useA w) (fun c _ => vMove c.vec w))

def execVbcast (n : Nat) (w : VecWord) (s : State) : Host.Outcome State Fault Refusal :=
  .next (s.vform n w ⟨[.g w.vb.toNat, .p w.pm.toNat] ++ mergeRead w, [.v w.vd.toNat], []⟩ (fun c _ => vBcast c.vec w (c.rg w.vb)))

def execVgetx (n : Nat) (w : VecWord) (s : State) : Host.Outcome State Fault Refusal :=
  .next (s.vscalar n [.v w.va.toNat, .g w.vb.toNat] (fun c _ => (vGet c.vec w (c.rg w.vb)).map (fun r =>
    { c with vec := r.1 }.wg w.vd r.2)))

def execVgetf (n : Nat) (w : VecWord) (s : State) : Host.Outcome State Fault Refusal :=
  .next (s.vscalar n [.v w.va.toNat, .g w.vb.toNat] (fun c _ => (vGet c.vec w (c.rg w.vb)).map (fun r =>
    { c with vec := r.1 }.wd w.vd r.2)))

def execVput (n : Nat) (w : VecWord) (s : State) : Host.Outcome State Fault Refusal :=
  .next (s.vscalar n [.g w.vb.toNat, if w.alt then .d w.va.toNat else .g w.va.toNat] (fun c _ =>
    c.withVec (vPut c.vec w (if w.alt then c.rd w.va else c.rg w.va) (c.rg w.vb))))

/-! ## Conversions (R196, R197) -/

/-- What a conversion uses: a widening one writes a pair, a narrowing one part of its destination; SR reads g30 and
g31. -/
def useConv (w : ConvWord) : VecUse :=
  match NumFmt.ofCode w.src.toNat, NumFmt.ofCode w.dst.toNat with
  | some a, some b =>
    let ds := if a.bits < b.bits then [.v w.vd.toNat, .v (w.vd.toNat + 1)] else [RegName.v w.vd.toNat]
    ⟨[.v w.va.toNat, .p w.pm.toNat] ++ (if w.pm ≠ 0 ∧ w.z = false then ds else [])
        ++ (if w.sr then [.g 30, .g 31] else []),
      if b.bits < a.bits then [] else ds, []⟩
  | _, _ => ⟨[], [], []⟩

/-- R196, R197: a vector conversion; SR draws with g30 and g31. -/
def execVectorConversion (n : Nat) (w : ConvWord) (s : State) : Host.Outcome State Fault Refusal :=
  .next (s.vector n (useConv w) w.pm w.z (fun c g =>
    c.withVec (vConvert c.vec g w c.frm (c.rg 30) (c.rg 31))))

end Sys2Proof.Machine
end

