-- ==== Sys2Proof/Machine/VecMem.lean ====
section
/-!
DEFINITION. The vector memory instructions of 08_vector_memory: element addresses (R209), checks before any effect (R219,
R220), poison (R222), first-fault trimming (R223) and the order of stored bytes (R216).
-/
namespace Sys2Proof.Machine

/-- The three ways an element's address is formed (R209). -/
inductive MemForm where
  | unit
  | strided
  | indexed
  deriving DecidableEq, Repr

/-- R208: whether a word's fields are legal for its form; `mbz` marks the other fields that must be zero. -/
def memWordOk (f : MemForm) (store : Bool) (w : MemWord) : Bool :=
  !w.mbz && !(store && w.z)
    && (match f with
      | .unit => decide (w.rb = 0) && decide (w.scale = 0)
      | .strided => decide (w.scale = 0)
      | .indexed => true)

/-- R209: the address of element i, modulo 2^64. -/
def Core.elAddr (c : Core) (f : MemForm) (w : MemWord) (i : Nat) : Nat :=
  let esz := eszOf c.vec.sew
  let a := (c.rg w.ra).toNat
  match f with
  | .unit => (a + i * esz) % 2 ^ 64
  | .strided => (BitVec.ofInt 64 ((c.rg w.ra).toInt + i * (c.rg w.rb).toInt)).toNat
  | .indexed => (a + c.vec.el esz w.rb.toNat i * 2 ^ w.scale.toNat) % 2 ^ 64

/-- R211: the active elements, lowest first. -/
def Core.activeEls (c : Core) (w : MemWord) : List Nat := (List.range c.vec.vl).filter (c.vec.active w.pm.toNat)

/-- What one element's check found: its physical addresses, a fault, a wait, or poison at a byte (R220, R222). -/
inductive ElRes where
  | ok (pas : List Nat)
  | fault (cause va range : Nat)
  | wait
  | poison (va sector : Nat)
  deriving Repr

/-- R219, R222: checks element i. -/
def State.elCheck (s : State) (n : Nat) (f : MemForm) (w : MemWord) (need : Need) (i : Nat) : ElRes :=
  let c := s.core n
  let vas := vAddrs (c.elAddr f w i) (eszOf c.vec.sew)
  match s.coreXlate n need vas with
  | .fault k va r => .fault k va r
  | .wait => .wait
  | .ok pas =>
    if need = .write then .ok pas
    else
      match s.firstBad vas pas with
      | some b => .poison b.1 b.2
      | none => .ok pas

/-- The elements checked in order up to the first that is not ok: those that are, and that one's outcome. -/
def State.elChecks (s : State) (n : Nat) (f : MemForm) (w : MemWord) (need : Need) :
    List Nat → List (Nat × List Nat) × Option (Nat × ElRes)
  | [] => ([], none)
  | i :: r =>
    match s.elCheck n f w need i with
    | .ok pas =>
      let x := s.elChecks n f w need r
      ((i, pas) :: x.1, x.2)
    | e => ([], some (i, e))

/-- The physical addresses of element i of a load where it translates. -/
def State.elPas (s : State) (n : Nat) (f : MemForm) (w : MemWord) (i : Nat) : List Nat :=
  let c := s.core n
  match s.coreXlate n .read (vAddrs (c.elAddr f w i) (eszOf c.vec.sew)) with
  | .ok pas => pas
  | _ => []

/-- R220: takes an element's exception. -/
def State.elExc (s : State) (n : Nat) (need : Need) : ElRes → State
  | .ok _ => s
  | .wait => s
  | .fault k va r => s.takeExc n k (BitVec.ofNat 64 va) (xinfoOf need r) 2 none
  | .poison va sec => s.poisonExc n 2 va need (some sec)

/-- Registers a vector memory word reads. -/
def memReads (f : MemForm) (store : Bool) (w : MemWord) : List RegName :=
  [.g w.ra.toNat, .p w.pm.toNat]
    ++ (match f with | .unit => [] | .strided => [.g w.rb.toNat] | .indexed => [.v w.rb.toNat])
    ++ (if store || decide (w.pm ≠ 0 ∧ w.z = false) then [.v w.vd.toNat] else [])

/-- R225: work after the store buffer entries that share a 64-byte granule with the load have been written (R154, R155). -/
def State.whenSettled (s : State) (n : Nat) (pas : List Nat) (k : State → State) : State :=
  let gs := pas.map (· / 64)
  match ((List.range (s.core n).sb.length).reverse.find? (fun i =>
    match (s.core n).sb[i]? with | some e => e.cells.any (fun x => gs.contains (x.1 / 64)) | none => false)) with
  | none => k s
  | some i =>
    let t := s.drain n (i + 1)
    if (t.core n).sb.length + (i + 1) = (s.core n).sb.length then k ((t.updCore n (fun c => c.count 7 1)).stall n 6) else t

/-! ## The member that performs an element (R174, R214 to R216) -/

/-- R174, R205: the member of the machine that core n leads that holds element i: member k mod g for element group k. -/
def State.memberOf (s : State) (n i : Nat) : Nat :=
  let ms := s.machineOf n
  ms.getD (i * eszOf (s.core n).vec.sew / 256 % ms.length) n

/-- R214, R215: the accesses that a word's elements make: each member's, for a gather or scatter cut into runs of 64
consecutive element indices, within which elements in one sector share a request. -/
def State.elRuns (s : State) (n : Nat) (f : MemForm) (els : List (Nat × List Nat)) : List (Nat × List Nat) :=
  let key := fun (e : Nat × List Nat) => (if f = .unit then 0 else e.1 / 64, s.memberOf n e.1)
  ((els.map key).eraseDups).map (fun k => (k.2, (els.filter (fun e => decide (key e = k))).flatMap (·.2)))

/-- R214, R215: the members read the elements of a load. -/
def State.elRead (s : State) (n : Nat) (f : MemForm) (w : MemWord) (els : List (Nat × List Nat)) : State :=
  (s.elRuns n f els).foldl (fun t r => if f = .unit then t.coreRead r.1 w.nt r.2 else t.coreGather r.1 r.2) s

/-- R214, R216: the members take the lines of a store's elements, or write them on the narrow path. -/
def State.elWrite (s : State) (n : Nat) (f : MemForm) (w : MemWord) (els : List (Nat × List Nat)) : State :=
  (s.elRuns n f els).foldl (fun t r => if f = .unit then t.coreWrite r.1 w.nt r.2 else t.coreScatter r.1 r.2) s

/-- The lines that a word's accesses must wait for (R334). -/
def State.elWaits (s : State) (f : MemForm) (store : Bool) (w : MemWord) (els : List (Nat × List Nat)) : List Nat :=
  let who : Requester := if f = .unit then (if w.nt then .stream else if store then .own else .fill) else .gather
  if store then s.writeWaits who (els.flatMap (·.2)) else s.readWaits who (els.flatMap (·.2))

/-- R365: the accesses of checked elements: their ranges' entries are used, and no copy that the host holds is in the way. -/
def State.withEls (s : State) (n : Nat) (f : MemForm) (store : Bool) (w : MemWord) (els : List (Nat × List Nat))
    (k : State → State) : State :=
  let vas := els.flatMap (fun e => vAddrs ((s.core n).elAddr f w e.1) (eszOf (s.core n).vec.sew))
  s.withCoreRanges n vas (fun t => t.whenRecalled (t.elWaits f store w els) k)

/-- R179: the vector state after a load of checked elements; `vl` is the length it keeps (R223). -/
def Core.loaded (c : Core) (s : State) (w : MemWord) (els : List (Nat × List Nat)) (vl : Nat) : Core :=
  let esz := eszOf c.vec.sew
  let x := { c.vec with vl := vl }
  let y := x.map esz w.vd.toNat w.pm.toNat w.z (fun i =>
    match els.find? (fun e => decide (e.1 = i)) with | some e => (leNat (s.rdAt e.2), 0) | none => (0, 0))
  { c with vec := y }

/-- Finishes a load of checked elements. -/
def State.finishLoad (s : State) (n : Nat) (f : MemForm) (w : MemWord) (els : List (Nat × List Nat)) (vl : Nat) : State :=
  let u : VecUse := ⟨[], [.v w.vd.toNat], []⟩
  s.withEls n f false w els (fun s =>
    (((((s.elRead n f w els).updCore n (fun c => c.loaded s w els vl)).fresh n
      (if vl = (s.core n).vec.vl then u.fresh (s.core n) (s.gang n) w.pm w.z else [])).issued n).commit n false))

/-- R214, R215, R219 to R225: a vector load; `ff` is the first-fault form. -/
def State.vload (s : State) (n : Nat) (f : MemForm) (ff : Bool) (w : MemWord) : State :=
  s.instr n 4 [] 2 (fun s =>
    if !memWordOk f false w then s.excAt n 1
    else s.operands n 2 (memReads f false w) (fun s =>
      let els := (s.core n).activeEls w
      s.whenSettled n (els.flatMap (s.elPas n f w)) (fun t =>
        match t.elChecks n f w .read els with
        | (oks, none) => t.finishLoad n f w oks (t.core n).vec.vl
        | (oks, some (i, .fault k va r)) =>
          if ff && !oks.isEmpty then t.finishLoad n f w oks i else t.elExc n .read (.fault k va r)
        | (_, some (_, e)) => t.elExc n .read e)))

/-- The bytes of element i of the data register, with their addresses. -/
def Core.elCells (c : Core) (w : MemWord) (e : Nat × List Nat) : List (Nat × Byte) :=
  let esz := eszOf c.vec.sew
  e.2.zip (leBytes esz (c.vec.el esz w.vd.toNat e.1))

/-- Finishes a store of checked elements, after the machine's older stores: every byte, the highest-numbered element last. -/
def State.finishStore (s : State) (n : Nat) (f : MemForm) (w : MemWord) (els : List (Nat × List Nat)) : State :=
  s.whenDrained n (fun s => s.withEls n f true w els (fun s =>
    (((s.elWrite n f w els).store (els.flatMap ((s.core n).elCells w))).issued n).commit n false))

/-- R214, R216, R219: a vector store: every check comes before any byte. -/
def State.vstore (s : State) (n : Nat) (f : MemForm) (w : MemWord) : State :=
  s.instr n 4 [] 2 (fun s =>
    if !memWordOk f true w then s.excAt n 1
    else s.operands n 2 (memReads f true w) (fun s =>
      match s.elChecks n f w .write ((s.core n).activeEls w) with
      | (oks, none) => s.finishStore n f w oks
      | (_, some (_, e)) => s.elExc n .write e))

def execVld (n : Nat) (w : MemWord) (s : State) : Host.Outcome State Fault Refusal := .next (s.vload n .unit false w)
def execVldff (n : Nat) (w : MemWord) (s : State) : Host.Outcome State Fault Refusal := .next (s.vload n .unit true w)
def execVst (n : Nat) (w : MemWord) (s : State) : Host.Outcome State Fault Refusal := .next (s.vstore n .unit w)
def execVlds (n : Nat) (w : MemWord) (s : State) : Host.Outcome State Fault Refusal := .next (s.vload n .strided false w)
def execVldsff (n : Nat) (w : MemWord) (s : State) : Host.Outcome State Fault Refusal := .next (s.vload n .strided true w)
def execVgath (n : Nat) (w : MemWord) (s : State) : Host.Outcome State Fault Refusal := .next (s.vload n .indexed false w)
def execVgathff (n : Nat) (w : MemWord) (s : State) : Host.Outcome State Fault Refusal := .next (s.vload n .indexed true w)
def execVsts (n : Nat) (w : MemWord) (s : State) : Host.Outcome State Fault Refusal := .next (s.vstore n .strided w)
def execVscat (n : Nat) (w : MemWord) (s : State) : Host.Outcome State Fault Refusal := .next (s.vstore n .indexed w)

end Sys2Proof.Machine
end

