-- ==== Sys2Proof/Machine/Dispatch.lean ====
section
/-!
DEFINITION. The one dispatch from a command to its meaning.
-/
namespace Sys2Proof.Machine

/-- The effect of a command on everything but the queue. -/
def exec (i : Instr) (s : State) : Host.Outcome State Fault Refusal :=
  match i with
  | .porNAssert => Sys2Proof.Machine.execPorNAssert s
  | .powerOnReset => Sys2Proof.Machine.execPowerOnReset s
  | .wrstNAssert => Sys2Proof.Machine.execWrstNAssert s
  | .perstNAssert => Sys2Proof.Machine.execPerstNAssert s
  | .warmResetRelease => Sys2Proof.Machine.execWarmResetRelease s
  | .bootHoldTimeout => Sys2Proof.Machine.execBootHoldTimeout s
  | .thermalSample die dram => Sys2Proof.Machine.execThermalSample die dram s
  | .pmbAlert idx => Sys2Proof.Machine.execPmbAlert idx s
  | .droop idx mon mv => Sys2Proof.Machine.execDroop idx mon mv s
  | .twnHbToggle => Sys2Proof.Machine.execTwnHbToggle s
  | .twnAliveRise => Sys2Proof.Machine.execTwnAliveRise s
  | .heartbeatLost aliveLow => Sys2Proof.Machine.execHeartbeatLost aliveLow s
  | .linkSignalDetect p => Sys2Proof.Machine.execLinkSignalDetect p s
  | .linkTrained p lanesOk reversed => Sys2Proof.Machine.execLinkTrained p lanesOk reversed s
  | .laneLockLoss p => Sys2Proof.Machine.execLaneLockLoss p s
  | .relockTimeout p => Sys2Proof.Machine.execRelockTimeout p s
  | .portLost p => Sys2Proof.Machine.execPortLost p s
  | .keepaliveSend p => Sys2Proof.Machine.execKeepaliveSend p s
  | .holdRefresh => Sys2Proof.Machine.execHoldRefresh s
  | .holdLapse p index => Sys2Proof.Machine.execHoldLapse p index s
  | .rekey p => Sys2Proof.Machine.execRekey p s
  | .frameEgress p => Sys2Proof.Machine.execFrameEgress p s
  | .train h => Sys2Proof.Machine.execTrain h s
  | .spdm h m => Sys2Proof.Machine.execSpdm h m s
  | .kem h m => Sys2Proof.Machine.execKem h m s
  | .keymark h => Sys2Proof.Machine.execKeymark h s
  | .credit h counts => Sys2Proof.Machine.execCredit h counts s
  | .keepalive h => Sys2Proof.Machine.execKeepalive h s
  | .node h node => Sys2Proof.Machine.execNode h node s
  | .cancel h node group seq st => Sys2Proof.Machine.execCancel h node group seq st s
  | .twinState h resumed => Sys2Proof.Machine.execTwinState h resumed s
  | .replay h lseq => Sys2Proof.Machine.execReplay h lseq s
  | .winWrite h info payload => Sys2Proof.Machine.execWinWrite h info payload s
  | .winRead h info => Sys2Proof.Machine.execWinRead h info s
  | .winData h info payload => Sys2Proof.Machine.execWinData h info payload s
  | .winAck h info => Sys2Proof.Machine.execWinAck h info s
  | .partialFrame h info payload => Sys2Proof.Machine.execPartialFrame h info payload s
  | .resultFrame h info payload => Sys2Proof.Machine.execResultFrame h info payload s
  | .blockFrame h info payload => Sys2Proof.Machine.execBlockFrame h info payload s
  | .grantFrame h info => Sys2Proof.Machine.execGrantFrame h info s
  | .receiptFrame h info => Sys2Proof.Machine.execReceiptFrame h info s
  | .mirror h info payload first => Sys2Proof.Machine.execMirror h info payload first s
  | .mirrorAck h info => Sys2Proof.Machine.execMirrorAck h info s
  | .hold h info => Sys2Proof.Machine.execHold h info s
  | .lost h info => Sys2Proof.Machine.execLost h info s
  | .wake h info => Sys2Proof.Machine.execWake h info s
  | .wakeAck h info => Sys2Proof.Machine.execWakeAck h info s
  | .portRetrain p => Sys2Proof.Machine.execPortRetrain p s
  | .lnkClose p b => Sys2Proof.Machine.execLnkClose p b s
  | .lnkAbort p => Sys2Proof.Machine.execLnkAbort p s
  | .lnkCntReset p => Sys2Proof.Machine.execLnkCntReset p s
  | .getVersion => Sys2Proof.Machine.execGetVersion s
  | .getCapabilities => Sys2Proof.Machine.execGetCapabilities s
  | .negotiateAlgorithms offersAll => Sys2Proof.Machine.execNegotiateAlgorithms offersAll s
  | .getDigests => Sys2Proof.Machine.execGetDigests s
  | .getCertificate => Sys2Proof.Machine.execGetCertificate s
  | .challenge all => Sys2Proof.Machine.execChallenge all s
  | .getMeasurements index sign => Sys2Proof.Machine.execGetMeasurements index sign s
  | .keyExchange => Sys2Proof.Machine.execKeyExchange s
  | .finish id => Sys2Proof.Machine.execFinish id s
  | .keyUpdate id => Sys2Proof.Machine.execKeyUpdate id s
  | .heartbeat id => Sys2Proof.Machine.execHeartbeat id s
  | .endSession id => Sys2Proof.Machine.execEndSession id s
  | .unsupportedRequest => Sys2Proof.Machine.execUnsupportedRequest s
  | .cdatRead => Sys2Proof.Machine.execCdatRead s
  | .mctpRequest => Sys2Proof.Machine.execMctpRequest s
  | .bypass => Sys2Proof.Machine.execBypass s
  | .idcode => Sys2Proof.Machine.execIdcode s
  | .samplePreload => Sys2Proof.Machine.execSamplePreload s
  | .extest => Sys2Proof.Machine.execExtest s
  | .extestPulse => Sys2Proof.Machine.execExtestPulse s
  | .extestTrain => Sys2Proof.Machine.execExtestTrain s
  | .clamp => Sys2Proof.Machine.execClamp s
  | .highz => Sys2Proof.Machine.execHighz s
  | .dbgUnlock secret => Sys2Proof.Machine.execDbgUnlock secret s
  | .configurationRequest write off => Sys2Proof.Machine.execConfigurationRequest write off s
  | .cxlMemRead dpa => Sys2Proof.Machine.execCxlMemRead dpa s
  | .cxlMemWrite dpa data poison => Sys2Proof.Machine.execCxlMemWrite dpa data poison s
  | .birsp dpa => Sys2Proof.Machine.execBirsp dpa s
  | .hostSnoop => Sys2Proof.Machine.execHostSnoop s
  | .hdmDecoderCommit idx base size ways gran => Sys2Proof.Machine.execHdmDecoderCommit idx base size ways gran s
  | .hdmDecoderUncommit idx => Sys2Proof.Machine.execHdmDecoderUncommit idx s
  | .ideIntegrityFailure => Sys2Proof.Machine.execIdeIntegrityFailure s
  | .cxlHotReset => Sys2Proof.Machine.execCxlHotReset s
  | .functionLevelReset => Sys2Proof.Machine.execFunctionLevelReset s
  | .busMasterEnable => Sys2Proof.Machine.execBusMasterEnable s
  | .d3hotEnter => Sys2Proof.Machine.execD3hotEnter s
  | .d0Enter => Sys2Proof.Machine.execD0Enter s
  | .sqTailWrite c slot v => Sys2Proof.Machine.execSqTailWrite c slot v s
  | .cqHeadWrite c slot v => Sys2Proof.Machine.execCqHeadWrite c slot v s
  | .registerWrite place size v => Sys2Proof.Machine.execRegisterWrite place size v s
  | .heldAccessApply => Sys2Proof.Machine.execHeldAccessApply s
  | .clear => Sys2Proof.Machine.execClear s
  | .deposit => Sys2Proof.Machine.execDeposit s
  | .verify => Sys2Proof.Machine.execVerify s
  | .commit => Sys2Proof.Machine.execCommit s
  | .release => Sys2Proof.Machine.execRelease s
  | .simChunkWrite o size v => Sys2Proof.Machine.execSimChunkWrite o size v s
  | .submit => Sys2Proof.Machine.execSubmit s
  | .claim => Sys2Proof.Machine.execClaim s
  | .transfer => Sys2Proof.Machine.execTransfer s
  | .renounce => Sys2Proof.Machine.execRenounce s
  | .readImage => Sys2Proof.Machine.execReadImage s
  | .readT2 => Sys2Proof.Machine.execReadT2 s
  | .debugToken => Sys2Proof.Machine.execDebugToken s
  | .respRelease => Sys2Proof.Machine.execRespRelease s
  | .tkmReqWrite o size v => Sys2Proof.Machine.execTkmReqWrite o size v s
  | .fullScrubComplete => Sys2Proof.Machine.execFullScrubComplete s
  | .enterRecovery => Sys2Proof.Machine.execEnterRecovery s
  | .fwBegin => Sys2Proof.Machine.execFwBegin s
  | .fwChunk len => Sys2Proof.Machine.execFwChunk len s
  | .fwEnd => Sys2Proof.Machine.execFwEnd s
  | .exitRecovery => Sys2Proof.Machine.execExitRecovery s
  | .debugClose => Sys2Proof.Machine.execDebugClose s
  | .debugCountdownExpiry => Sys2Proof.Machine.execDebugCountdownExpiry s
  | .packBegin => Sys2Proof.Machine.execPackBegin s
  | .packChunk len => Sys2Proof.Machine.execPackChunk len s
  | .packRun => Sys2Proof.Machine.execPackRun s
  | .packRunEnd => Sys2Proof.Machine.execPackRunEnd s
  | .testExit => Sys2Proof.Machine.execTestExit s
  | .svmChunkWrite o size v => Sys2Proof.Machine.execSvmChunkWrite o size v s
  | .ctxCreate c => Sys2Proof.Machine.execCtxCreate c s
  | .ctxDestroy c => Sys2Proof.Machine.execCtxDestroy c s
  | .rangeCreate c idx => Sys2Proof.Machine.execRangeCreate c idx s
  | .rangeDestroy c idx => Sys2Proof.Machine.execRangeDestroy c idx s
  | .rangeChange c idx => Sys2Proof.Machine.execRangeChange c idx s
  | .invalidate c => Sys2Proof.Machine.execInvalidate c s
  | .resolveRetry => Sys2Proof.Machine.execResolveRetry s
  | .resolveEnd => Sys2Proof.Machine.execResolveEnd s
  | .winOpen c idx e => Sys2Proof.Machine.execWinOpen c idx e s
  | .winClose e => Sys2Proof.Machine.execWinClose e s
  | .invalidateDrainEnd => Sys2Proof.Machine.execInvalidateDrainEnd s
  | .rtbFill buf c idx => Sys2Proof.Machine.execRtbFill buf c idx s
  | .deferredFaultRecord => Sys2Proof.Machine.execDeferredFaultRecord s
  | .changeRequest n range perm va => Sys2Proof.Machine.execChangeRequest n range perm va s
  | .zeroFillComplete => Sys2Proof.Machine.execZeroFillComplete s
  | .qCreate c slot q => Sys2Proof.Machine.execQCreate c slot q s
  | .qDestroy q => Sys2Proof.Machine.execQDestroy q s
  | .close q => Sys2Proof.Machine.execClose q s
  | .abort q => Sys2Proof.Machine.execAbort q s
  | .reopen q => Sys2Proof.Machine.execReopen q s
  | .clearOverrun q => Sys2Proof.Machine.execClearOverrun q s
  | .ctxReset => Sys2Proof.Machine.execCtxReset s
  | .descriptorFetch => Sys2Proof.Machine.execDescriptorFetch s
  | .queueStateRead q => Sys2Proof.Machine.execQueueStateRead q s
  | .descriptorReadReturn id raw poison => Sys2Proof.Machine.execDescriptorReadReturn id raw poison s
  | .kernel id => Sys2Proof.Machine.execKernel id s
  | .chainDescriptor id => Sys2Proof.Machine.execChainDescriptor id s
  | .copy id => Sys2Proof.Machine.execCopy id s
  | .copyChunkDone id => Sys2Proof.Machine.execCopyChunkDone id s
  | .collective id => Sys2Proof.Machine.execCollective id s
  | .collectiveStart id => Sys2Proof.Machine.execCollectiveStart id s
  | .phase id => Sys2Proof.Machine.execPhase id s
  | .fence id => Sys2Proof.Machine.execFence id s
  | .wait id => Sys2Proof.Machine.execWait id s
  | .waitReevaluate id => Sys2Proof.Machine.execWaitReevaluate id s
  | .signal id => Sys2Proof.Machine.execSignal id s
  | .checkpoint id entry => Sys2Proof.Machine.execCheckpoint id entry s
  | .timer id => Sys2Proof.Machine.execTimer id s
  | .completionRecordWrite q => Sys2Proof.Machine.execCompletionRecordWrite q s
  | .cellStart grid => Sys2Proof.Machine.execCellStart grid s
  | .splitKCombine grid => Sys2Proof.Machine.execSplitKCombine grid s
  | .combineDone n => Sys2Proof.Machine.execCombineDone n s
  | .moveStart c idx => Sys2Proof.Machine.execMoveStart c idx s
  | .moveCopyDone c idx => Sys2Proof.Machine.execMoveCopyDone c idx s
  | .cellClose b => Sys2Proof.Machine.execCellClose b s
  | .moveClose b => Sys2Proof.Machine.execMoveClose b s
  | .pleCntReset => Sys2Proof.Machine.execPleCntReset s
  | .integerOp n f rd ra b => Sys2Proof.Machine.execIntegerOp n f rd ra b s
  | .integerDivide n signed rem rd ra b => Sys2Proof.Machine.execIntegerDivide n signed rem rd ra b s
  | .branch n b => Sys2Proof.Machine.execBranch n b s
  | .scalarLoad n size signed fp rd ra imm => Sys2Proof.Machine.execScalarLoad n size signed fp rd ra imm s
  | .scalarStore n size fp rb ra imm => Sys2Proof.Machine.execScalarStore n size fp rb ra imm s
  | .scalarFpOp n op => Sys2Proof.Machine.execScalarFpOp n op s
  | .storeDrain n => Sys2Proof.Machine.execStoreDrain n s
  | .ldaqW n rd ra => Sys2Proof.Machine.execLdaqW n rd ra s
  | .ldaqD n rd ra => Sys2Proof.Machine.execLdaqD n rd ra s
  | .strlW n ra rb => Sys2Proof.Machine.execStrlW n ra rb s
  | .strlD n ra rb => Sys2Proof.Machine.execStrlD n ra rb s
  | .amoaddW n rd ra rb => Sys2Proof.Machine.execAmoaddW n rd ra rb s
  | .amoaddD n rd ra rb => Sys2Proof.Machine.execAmoaddD n rd ra rb s
  | .amoswapW n rd ra rb => Sys2Proof.Machine.execAmoswapW n rd ra rb s
  | .amoswapD n rd ra rb => Sys2Proof.Machine.execAmoswapD n rd ra rb s
  | .amocasW n rd ra rb => Sys2Proof.Machine.execAmocasW n rd ra rb s
  | .amocasD n rd ra rb => Sys2Proof.Machine.execAmocasD n rd ra rb s
  | .mfsr n rd sr => Sys2Proof.Machine.execMfsr n rd sr s
  | .mtsr n ra sr => Sys2Proof.Machine.execMtsr n ra sr s
  | .fenceLl n => Sys2Proof.Machine.execFenceLl n s
  | .fenceSs n => Sys2Proof.Machine.execFenceSs n s
  | .fenceFull n => Sys2Proof.Machine.execFenceFull n s
  | .fenceEng n => Sys2Proof.Machine.execFenceEng n s
  | .fenceDev n => Sys2Proof.Machine.execFenceDev n s
  | .isync n => Sys2Proof.Machine.execIsync n s
  | .xret n => Sys2Proof.Machine.execXret n s
  | .halt n => Sys2Proof.Machine.execHalt n s
  | .exceptionTaken n why => Sys2Proof.Machine.execExceptionTaken n why s
  | .abortTaken n => Sys2Proof.Machine.execAbortTaken n s
  | .killTaken n => Sys2Proof.Machine.execKillTaken n s
  | .pmcReset n => Sys2Proof.Machine.execPmcReset n s
  | .setvl n rd ra sew => Sys2Proof.Machine.execSetvl n rd ra sew s
  | .setvli n rd sew imm => Sys2Proof.Machine.execSetvli n rd sew imm s
  | .getvl n rd => Sys2Proof.Machine.execGetvl n rd s
  | .vadd n w => Sys2Proof.Machine.execVadd n w s
  | .vsub n w => Sys2Proof.Machine.execVsub n w s
  | .vmul n w => Sys2Proof.Machine.execVmul n w s
  | .vmulh n w => Sys2Proof.Machine.execVmulh n w s
  | .vmulhu n w => Sys2Proof.Machine.execVmulhu n w s
  | .vmin n w => Sys2Proof.Machine.execVmin n w s
  | .vmax n w => Sys2Proof.Machine.execVmax n w s
  | .vminu n w => Sys2Proof.Machine.execVminu n w s
  | .vmaxu n w => Sys2Proof.Machine.execVmaxu n w s
  | .vand n w => Sys2Proof.Machine.execVand n w s
  | .vor n w => Sys2Proof.Machine.execVor n w s
  | .vxor n w => Sys2Proof.Machine.execVxor n w s
  | .vsll n w => Sys2Proof.Machine.execVsll n w s
  | .vsrl n w => Sys2Proof.Machine.execVsrl n w s
  | .vsra n w => Sys2Proof.Machine.execVsra n w s
  | .vsadd n w => Sys2Proof.Machine.execVsadd n w s
  | .vssub n w => Sys2Proof.Machine.execVssub n w s
  | .vmacc n w => Sys2Proof.Machine.execVmacc n w s
  | .vid n w => Sys2Proof.Machine.execVid n w s
  | .vfadd n w => Sys2Proof.Machine.execVfadd n w s
  | .vfsub n w => Sys2Proof.Machine.execVfsub n w s
  | .vfmul n w => Sys2Proof.Machine.execVfmul n w s
  | .vfdiv n w => Sys2Proof.Machine.execVfdiv n w s
  | .vfsqrt n w => Sys2Proof.Machine.execVfsqrt n w s
  | .vfrec n w => Sys2Proof.Machine.execVfrec n w s
  | .vfrsqrt n w => Sys2Proof.Machine.execVfrsqrt n w s
  | .vfmin n w => Sys2Proof.Machine.execVfmin n w s
  | .vfmax n w => Sys2Proof.Machine.execVfmax n w s
  | .vfabs n w => Sys2Proof.Machine.execVfabs n w s
  | .vfneg n w => Sys2Proof.Machine.execVfneg n w s
  | .vfsgnj n w => Sys2Proof.Machine.execVfsgnj n w s
  | .vfma n w => Sys2Proof.Machine.execVfma n w s
  | .vfms n w => Sys2Proof.Machine.execVfms n w s
  | .vfnma n w => Sys2Proof.Machine.execVfnma n w s
  | .vfnms n w => Sys2Proof.Machine.execVfnms n w s
  | .vfwmul n w => Sys2Proof.Machine.execVfwmul n w s
  | .vfwma n w => Sys2Proof.Machine.execVfwma n w s
  | .vfwadd n w => Sys2Proof.Machine.execVfwadd n w s
  | .vfwaddw n w => Sys2Proof.Machine.execVfwaddw n w s
  | .vdot4I8 n w => Sys2Proof.Machine.execVdot4I8 n w s
  | .vdot2H n w => Sys2Proof.Machine.execVdot2H n w s
  | .vdot4E4m3 n w => Sys2Proof.Machine.execVdot4E4m3 n w s
  | .vdot4E5m2 n w => Sys2Proof.Machine.execVdot4E5m2 n w s
  | .vdot4E4e5 n w => Sys2Proof.Machine.execVdot4E4e5 n w s
  | .vcmpeq n w => Sys2Proof.Machine.execVcmpeq n w s
  | .vcmpne n w => Sys2Proof.Machine.execVcmpne n w s
  | .vcmplt n w => Sys2Proof.Machine.execVcmplt n w s
  | .vcmple n w => Sys2Proof.Machine.execVcmple n w s
  | .vcmpltu n w => Sys2Proof.Machine.execVcmpltu n w s
  | .vcmpleu n w => Sys2Proof.Machine.execVcmpleu n w s
  | .vfcmpeq n w => Sys2Proof.Machine.execVfcmpeq n w s
  | .vfcmpne n w => Sys2Proof.Machine.execVfcmpne n w s
  | .vfcmplt n w => Sys2Proof.Machine.execVfcmplt n w s
  | .vfcmple n w => Sys2Proof.Machine.execVfcmple n w s
  | .vfcmpun n w => Sys2Proof.Machine.execVfcmpun n w s
  | .pAnd n w => Sys2Proof.Machine.execPAnd n w s
  | .pOr n w => Sys2Proof.Machine.execPOr n w s
  | .pXor n w => Sys2Proof.Machine.execPXor n w s
  | .pAndn n w => Sys2Proof.Machine.execPAndn n w s
  | .pNot n w => Sys2Proof.Machine.execPNot n w s
  | .pSet n w => Sys2Proof.Machine.execPSet n w s
  | .pcnt n w => Sys2Proof.Machine.execPcnt n w s
  | .pfirst n w => Sys2Proof.Machine.execPfirst n w s
  | .vredsum n w => Sys2Proof.Machine.execVredsum n w s
  | .vredmin n w => Sys2Proof.Machine.execVredmin n w s
  | .vredmax n w => Sys2Proof.Machine.execVredmax n w s
  | .vredminu n w => Sys2Proof.Machine.execVredminu n w s
  | .vredmaxu n w => Sys2Proof.Machine.execVredmaxu n w s
  | .vfredsum n w => Sys2Proof.Machine.execVfredsum n w s
  | .vfredosum n w => Sys2Proof.Machine.execVfredosum n w s
  | .vfredmin n w => Sys2Proof.Machine.execVfredmin n w s
  | .vfredmax n w => Sys2Proof.Machine.execVfredmax n w s
  | .vscansum n w => Sys2Proof.Machine.execVscansum n w s
  | .vscanmin n w => Sys2Proof.Machine.execVscanmin n w s
  | .vscanmax n w => Sys2Proof.Machine.execVscanmax n w s
  | .vfscansum n w => Sys2Proof.Machine.execVfscansum n w s
  | .vfscanmin n w => Sys2Proof.Machine.execVfscanmin n w s
  | .vfscanmax n w => Sys2Proof.Machine.execVfscanmax n w s
  | .vperm n w => Sys2Proof.Machine.execVperm n w s
  | .vbcaste n w => Sys2Proof.Machine.execVbcaste n w s
  | .vslidedn n w => Sys2Proof.Machine.execVslidedn n w s
  | .vslideup n w => Sys2Proof.Machine.execVslideup n w s
  | .vrev n w => Sys2Proof.Machine.execVrev n w s
  | .vcompress n w => Sys2Proof.Machine.execVcompress n w s
  | .vexpand n w => Sys2Proof.Machine.execVexpand n w s
  | .vectorConversion n w => Sys2Proof.Machine.execVectorConversion n w s
  | .vmv n w => Sys2Proof.Machine.execVmv n w s
  | .vbcast n w => Sys2Proof.Machine.execVbcast n w s
  | .vgetx n w => Sys2Proof.Machine.execVgetx n w s
  | .vgetf n w => Sys2Proof.Machine.execVgetf n w s
  | .vput n w => Sys2Proof.Machine.execVput n w s
  | .vld n w => Sys2Proof.Machine.execVld n w s
  | .vldff n w => Sys2Proof.Machine.execVldff n w s
  | .vst n w => Sys2Proof.Machine.execVst n w s
  | .vlds n w => Sys2Proof.Machine.execVlds n w s
  | .vldsff n w => Sys2Proof.Machine.execVldsff n w s
  | .vgath n w => Sys2Proof.Machine.execVgath n w s
  | .vgathff n w => Sys2Proof.Machine.execVgathff n w s
  | .vsts n w => Sys2Proof.Machine.execVsts n w s
  | .vscat n w => Sys2Proof.Machine.execVscat n w s
  | .mxgo n ra => Sys2Proof.Machine.execMxgo n ra s
  | .mxStationaryLoad n => Sys2Proof.Machine.execMxStationaryLoad n s
  | .mxRowEnter n => Sys2Proof.Machine.execMxRowEnter n s
  | .mxOutputRow n => Sys2Proof.Machine.execMxOutputRow n s
  | .drizzleLimit n => Sys2Proof.Machine.execDrizzleLimit n s
  | .arrayCold n => Sys2Proof.Machine.execArrayCold n s
  | .mxCancel n => Sys2Proof.Machine.execMxCancel n s
  | .mxClose n b => Sys2Proof.Machine.execMxClose n b s
  | .mxAbort n => Sys2Proof.Machine.execMxAbort n s
  | .mxCntReset n => Sys2Proof.Machine.execMxCntReset n s
  | .scload n e member ra => Sys2Proof.Machine.execScload n e member ra s
  | .scgo n e member ra => Sys2Proof.Machine.execScgo n e member ra s
  | .heldStartBegin n e => Sys2Proof.Machine.execHeldStartBegin n e s
  | .nop n e => Sys2Proof.Machine.execNop n e s
  | .haltWord n e => Sys2Proof.Machine.execHaltWord n e s
  | .chain n e => Sys2Proof.Machine.execChain n e s
  | .ldcf n e => Sys2Proof.Machine.execLdcf n e s
  | .dma n e => Sys2Proof.Machine.execDma n e s
  | .waitd n e => Sys2Proof.Machine.execWaitd n e s
  | .waitc n e => Sys2Proof.Machine.execWaitc n e s
  | .lds n e => Sys2Proof.Machine.execLds n e s
  | .ldc n e => Sys2Proof.Machine.execLdc n e s
  | .addss n e => Sys2Proof.Machine.execAddss n e s
  | .addsn n e => Sys2Proof.Machine.execAddsn n e s
  | .movs n e => Sys2Proof.Machine.execMovs n e s
  | .setlen n e => Sys2Proof.Machine.execSetlen n e s
  | .addni n e => Sys2Proof.Machine.execAddni n e s
  | .loop n e => Sys2Proof.Machine.execLoop n e s
  | .chainBeatEnter n e => Sys2Proof.Machine.execChainBeatEnter n e s
  | .stageWrite n e => Sys2Proof.Machine.execStageWrite n e s
  | .terminalWrite n e => Sys2Proof.Machine.execTerminalWrite n e s
  | .dmaTransferDone n e tag => Sys2Proof.Machine.execDmaTransferDone n e tag s
  | .scClose n e b => Sys2Proof.Machine.execScClose n e b s
  | .scAbort n e => Sys2Proof.Machine.execScAbort n e s
  | .scCntReset n e => Sys2Proof.Machine.execScCntReset n e s
  | .sliceRequest r => Sys2Proof.Machine.execSliceRequest r s
  | .controllerAccept idx narrow => Sys2Proof.Machine.execControllerAccept idx narrow s
  | .controllerReadComplete idx narrow k es => Sys2Proof.Machine.execControllerReadComplete idx narrow k es s
  | .controllerWritePerformed idx narrow k es => Sys2Proof.Machine.execControllerWritePerformed idx narrow k es s
  | .patrolScrub idx lower upper => Sys2Proof.Machine.execPatrolScrub idx lower upper s
  | .sramUncorrectable x => Sys2Proof.Machine.execSramUncorrectable x s
  | .retrain idx c => Sys2Proof.Machine.execRetrain idx c s
  | .declareFailed idx c => Sys2Proof.Machine.execDeclareFailed idx c s
  | .exclude idx c => Sys2Proof.Machine.execExclude idx c s
  | .parityError idx c => Sys2Proof.Machine.execParityError idx c s
  | .periodicRetrainTurn idx => Sys2Proof.Machine.execPeriodicRetrainTurn idx s
  | .retrainComplete r => Sys2Proof.Machine.execRetrainComplete r s
  | .retrainTimeout idx => Sys2Proof.Machine.execRetrainTimeout idx s
  | .exclusionSliceCopy => Sys2Proof.Machine.execExclusionSliceCopy s
  | .importEntry e c => Sys2Proof.Machine.execImportEntry e c s
  | .send e => Sys2Proof.Machine.execSend e s
  | .discard e => Sys2Proof.Machine.execDiscard e s
  | .ackEmptied => Sys2Proof.Machine.execAckEmptied s
  | .twinCopyChunk entry => Sys2Proof.Machine.execTwinCopyChunk entry s
  | .twcClose b => Sys2Proof.Machine.execTwcClose b s
  | .twcAbort => Sys2Proof.Machine.execTwcAbort s
  | .cleClose b => Sys2Proof.Machine.execCleClose b s
  | .cleAbort => Sys2Proof.Machine.execCleAbort s
  | .nodeWrite v => Sys2Proof.Machine.execNodeWrite v s
  | .groupWrite g v => Sys2Proof.Machine.execGroupWrite g v s
  | .rankmapWrite g idx v => Sys2Proof.Machine.execRankmapWrite g idx v s
  | .recheck c => Sys2Proof.Machine.execRecheck c s
  | .recheckRunComplete => Sys2Proof.Machine.execRecheckRunComplete s
  | .clearLog => Sys2Proof.Machine.execClearLog s
  | .squallExit => Sys2Proof.Machine.execSquallExit s
  | .svpLoadStage containment others => Sys2Proof.Machine.execSvpLoadStage containment others s
  | .fatalError cause index => Sys2Proof.Machine.execFatalError cause index s
  | .patrolDue n => Sys2Proof.Machine.execPatrolDue n s
  | .patrolTestEnd n pass => Sys2Proof.Machine.execPatrolTestEnd n pass s
  | .patrolDeadline n => Sys2Proof.Machine.execPatrolDeadline n s
  | .powerStateSelect => Sys2Proof.Machine.execPowerStateSelect s
  | .frostEntryComplete => Sys2Proof.Machine.execFrostEntryComplete s
  | .deviceWakeComplete => Sys2Proof.Machine.execDeviceWakeComplete s
  | .islandWakeComplete idx => Sys2Proof.Machine.execIslandWakeComplete idx s
  | .powerMeasure powers => Sys2Proof.Machine.execPowerMeasure powers s
  | .capControl => Sys2Proof.Machine.execCapControl s
  | .voltageSettled k => Sys2Proof.Machine.execVoltageSettled k s
  | .timerArm t micros => Sys2Proof.Machine.execTimerArm t micros s
  | .timerDisarm t => Sys2Proof.Machine.execTimerDisarm t s
  | .timerExpiry idx => Sys2Proof.Machine.execTimerExpiry idx s
  | .monSelWrite kind index => Sys2Proof.Machine.execMonSelWrite kind index s
  | .softReset => Sys2Proof.Machine.execSoftReset s
  | .warmReset => Sys2Proof.Machine.execWarmReset s
  | .coreReset n => Sys2Proof.Machine.execCoreReset n s
  | .partnerSignalLoss p => Sys2Proof.Machine.execPartnerSignalLoss p s
  | .laneLockRegained p => Sys2Proof.Machine.execLaneLockRegained p s
  | .linkCodewordUncorrectable p => Sys2Proof.Machine.execLinkCodewordUncorrectable p s
  | .twnHbInChange => Sys2Proof.Machine.execTwnHbInChange s
  | .bootComplete => Sys2Proof.Machine.execBootComplete s
  | .imageChecksComplete => Sys2Proof.Machine.execImageChecksComplete s
  | .requestChecksComplete => Sys2Proof.Machine.execRequestChecksComplete s
  | .bundleChecksComplete => Sys2Proof.Machine.execBundleChecksComplete s
  | .debugPortAccess a => Sys2Proof.Machine.execDebugPortAccess a s
  | .doeDiscovery => Sys2Proof.Machine.execDoeDiscovery s

end Sys2Proof.Machine
end

