-- ==== Sys2Proof/Safety.lean ====
section
/-!
DEFINITION. What a state of the device must be for a claim about runs to make sense: its sparse memories and tables are
in canonical form, and its files of like units have the sizes of the manual. No run is safe or unsafe by itself: the
manual gives every command an effect, so a run never stops.
-/
namespace Sys2Proof.Machine

/-- A block takes a BAR0 write at once: the host reaches the BAR, the block answers and its island is awake. -/
def State.serves (s : State) (b : Block) : Prop := s.decodes = true ∧ s.answers b = true ∧ s.gated b = false

/-- No change record is pending and no full scrub runs, so that no block refuses commands for either (R84, R116). -/
def State.settled (s : State) : Prop := s.tkm.pending = none ∧ s.tkm.scrubActive = false

/-- A frame arrives in order on a port in a state: its tag verifies and its LSEQ is the next one (R418). -/
def State.arrives (s : State) (h : RxHdr) (st : PortSt) : Prop :=
  h.port < s.ports.length ∧ (s.port h.port).st = st ∧ h.tagOk = true ∧ h.lseq = ((s.port h.port).lastRx + 1) % 2 ^ 32

/-- DRAM, host memory and the byte buffers of the service blocks are in canonical form. -/
def State.memOk (s : State) : Prop :=
  Mem.wf s.dram.bytes = true ∧ Mem.wf s.host.mem = true ∧ Mem.wf s.sim.chunk = true ∧ Mem.wf s.sim.staging = true
    ∧ Mem.wf s.tkm.req = true ∧ Mem.wf s.svm.chunk = true ∧ Mem.wf s.svm.pack = true
    ∧ ∀ b ∈ s.svm.banks, Mem.wf b.bytes = true

/-- The translation tables, rings and queues are in canonical form. -/
def State.tabsOk (s : State) : Prop :=
  Tab.wf Ctx.none s.ctxs = true ∧ Tab.wf FaultRec.none s.xlt.fq = true ∧ Tab.wf StaleRec.none s.xlt.sq = true
    ∧ Tab.wf WinEntry.none s.xlt.win = true ∧ Tab.wf Queue.none s.qmg.queues = true
    ∧ Tab.wf LogRec.none s.flt.log = true

/-- The device has its 64 cores, 16 ports, 8 controllers, 18 islands and 16 timers (Table 1 of 01). -/
def State.sizesOk (s : State) : Prop :=
  s.cores.length = 64 ∧ s.ports.length = 16 ∧ s.mcu.length = 8 ∧ s.pcm.islands.length = 18 ∧ s.pcm.timers.length = 16

/-! ## Translation and the slices -/

/-- Only lines and copies of lines, the marks of sectors, transactions and the translation buffers differ: no byte of
memory, no register of a core, and nothing else of the device. -/
def State.translated (s t : State) : Prop :=
  t = { s with
        dram := { s.dram with
          poison := t.dram.poison
          lost := t.dram.lost
          nsc := t.dram.nsc
          dir := t.dram.dir
          nscClock := t.dram.nscClock
          arrivals := t.dram.arrivals }
        mcu := t.mcu
        cores := t.cores
        xlt := { s.xlt with rtb := t.xlt.rtb, rtbMiss := t.xlt.rtbMiss } }
    ∧ t.cores.length = s.cores.length
    ∧ ∀ k, t.core k = { s.core k with l1 := (t.core k).l1, priv := (t.core k).priv }

/-- Only cores, bytes of DRAM, lines and their marks, transactions and the count of free draws differ: what work on a core
leaves of the rest of the device. -/
def State.worked (s t : State) : Prop :=
  t = { s with
        cores := t.cores
        free := t.free
        mcu := t.mcu
        dram := { s.dram with
          bytes := t.dram.bytes
          poison := t.dram.poison
          lost := t.dram.lost
          nsc := t.dram.nsc
          dir := t.dram.dir
          nscClock := t.dram.nscClock
          arrivals := t.dram.arrivals } }
    ∧ t.cores.length = s.cores.length

/-- Of core k, only what its caches hold differs. -/
def State.cached (s t : State) (k : Nat) : Prop :=
  t.core k = { s.core k with l1 := (t.core k).l1, priv := (t.core k).priv }

/-- R366: each range of a list is held in the buffer, or its entry of the range table reads without poison. -/
def State.tablesGood (buf c : Nat) : List Nat → State → Prop
  | [], _ => True
  | i :: r, s =>
    ((s.xlt.rtb.getD buf []).contains (c * 64 + i) = true ∨ (s.tableRead c i).bad (32 * (64 * c + i)) = false)
      ∧ State.tablesGood buf c r (s.rtbUse buf c i)

/-- R365, R366: the ranges of an access of core n are held in its buffer, or their entries read without poison. A test pack
uses no range table. -/
def State.rangesGood (s : State) (n : Nat) (vas : List Nat) : Prop :=
  (s.core (s.leadOf n)).work = .pack
    ∨ State.tablesGood (n / 8) (s.core (s.leadOf n)).ctx ((s.ctx (s.core (s.leadOf n)).ctx).rangesAt vas) s

/-- The host holds no line of device memory, so that no access waits for it (R334). -/
def State.unheld (s : State) : Prop := ∀ l, s.hostHolds l = false

/-- The sector of an address is not poisoned, DRAM has not lost it, and its channel can be read (R337, R350). -/
def State.sound (s : State) (a : Nat) : Prop :=
  s.chanDead a = false ∧ nsHas s.dram.poison (a / 32) = false ∧ nsHas s.dram.lost (a / 32) = false

/-- The entries of the range table that an access of a context uses lie in sound sectors. -/
def State.ctxSound (s : State) (c : Nat) (vas : List Nat) : Prop := ∀ i ∈ (s.ctx c).rangesAt vas, s.sound (32 * (64 * c + i))

/-- As State.ctxSound, for an access of core n. A test pack uses no range table. -/
def State.entriesSound (s : State) (n : Nat) (vas : List Nat) : Prop :=
  (s.core (s.leadOf n)).work = .pack ∨ s.ctxSound (s.core (s.leadOf n)).ctx vas

/-- The state in which an instruction of `len` bytes at core n's pc takes effect: its words are translated (R365). Steward
level and a test pack use no range table. -/
def State.fetched (s : State) (n len : Nat) : State :=
  if (s.core n).steward = true ∨ (s.core (s.leadOf n)).work = .pack then s
  else s.useRanges (n / 8) (s.core (s.leadOf n)).ctx (vAddrs (s.core n).pc.toNat len)

/-! ## Cores -/

/-- An instruction of `len` bytes is at the head of core n's reorder buffer and nothing stands in its way: the core runs
a program, no exception waits, its words are fetched (at Steward level from the monitor store, R160), no register that
its machine holds is poisoned, and its register files have their sizes (R147, R172). -/
def State.issues (s : State) (n len : Nat) : Prop :=
  n < 64 ∧ s.cores.length = 64 ∧ (s.core n).g.length = 32 ∧ (s.core n).d.length = 32 ∧ (s.core n).pmc.length = 16
    ∧ (s.core n).vec.p.length = 8 ∧ s.executes n = true ∧ (s.core n).deliver = none
    ∧ (s.core n).regPoison = [] ∧ (∀ k ∈ s.machineOf n, (s.core k).regPoison = [])
    ∧ ((s.core n).steward = true
      ∨ ∃ pas, s.coreXlate n .fetch (vAddrs (s.core n).pc.toNat len) = .ok pas
        ∧ (∀ a ∈ pas, ∀ b ∈ addrs (lineOf a) 64, s.bad b = false)
        ∧ s.rangesGood n (vAddrs (s.core n).pc.toNat len))

/-- R169: the counters after an instruction: RETIRED and LONG_RETIRED count it at Job level, the counters of events rise
by what `adds` says, and STEWARD stays at Job level; the counters of cycles and misses are free. -/
def Core.counted (c : Core) (p : List Word) (long : Bool) (adds : Nat → Nat) : Prop :=
  p.length = 16 ∧ p.getD 1 0 = c.pmc.getD 1 0 + (if c.steward then 0 else 1)
    ∧ p.getD 2 0 = c.pmc.getD 2 0 + (if c.steward = false ∧ long = true then 1 else 0)
    ∧ (∀ i ∈ [7, 8, 12, 13, 14], p.getD i 0 = c.pmc.getD i 0 + BitVec.ofNat 64 (adds i))
    ∧ (c.steward = false → p.getD 15 0 = c.pmc.getD 15 0)

/-- Core n commits an instruction whose whole effect is that the core becomes `c`, its counters and what the fetch does to
its caches aside. -/
def State.retires (s t : State) (n : Nat) (c : Core) (long : Bool) (adds : Nat → Nat) : Prop :=
  let u := s.fetched n (if long then 8 else 4)
  s.translated u ∧ t = { u with cores := t.cores, free := t.free } ∧ (∀ k, k ≠ n → t.core k = u.core k)
    ∧ t.core n = { c with pmc := (t.core n).pmc, l1 := (u.core n).l1, priv := (u.core n).priv }
    ∧ (s.core n).counted (t.core n).pmc long adds

/-- As State.retires, for an instruction that reads or writes memory: the bytes of memory and the store buffer are stated
apart, and the caches, marks, lines and transactions of its accesses may differ. -/
def State.retiresMem (s t : State) (n : Nat) (c : Core) (adds : Nat → Nat) : Prop :=
  t = { s with
        cores := t.cores
        free := t.free
        mcu := t.mcu
        dram := { s.dram with
          bytes := t.dram.bytes
          poison := t.dram.poison
          lost := t.dram.lost
          nsc := t.dram.nsc
          dir := t.dram.dir
          nscClock := t.dram.nscClock
          arrivals := t.dram.arrivals }
        xlt := { s.xlt with rtb := t.xlt.rtb, rtbMiss := t.xlt.rtbMiss } }
    ∧ t.cores.length = s.cores.length
    ∧ (∀ k, k ≠ n → t.core k = { s.core k with l1 := (t.core k).l1, priv := (t.core k).priv })
    ∧ t.core n = { c with pmc := (t.core n).pmc, sb := (t.core n).sb, l1 := (t.core n).l1, priv := (t.core n).priv }
    ∧ (s.core n).counted (t.core n).pmc false adds

/-- No event counter rises. -/
def noAdds : Nat → Nat := fun _ => 0

/-- R147: the core with a g register written; g0 discards the write. -/
def Core.withG (c : Core) (rd : BitVec 5) (v : Word) : Core := if rd = 0 then c else { c with g := c.g.set rd.toNat v }

/-- R147: the core with a d register written. -/
def Core.withD (c : Core) (rd : BitVec 5) (v : Word) : Core := { c with d := c.d.set rd.toNat v }

/-- The core with the pc past an instruction of `len` bytes. -/
def Core.past (c : Core) (len : Nat) : Core := { c with pc := c.pc + BitVec.ofNat 64 len }

/-- R156: the value that core n reads at a physical address: the youngest store of its buffer to that byte, else
memory. -/
def State.seen (s : State) (n pa : Nat) : Byte := ((s.core n).sb.reverse.findSome? (fun e => e.at_ pa)).getD (s.rdByte pa)

/-- The store buffer writes no byte twice with one store, and memory is canonical. -/
def State.sbOk (s : State) (n : Nat) : Prop :=
  Mem.wf s.dram.bytes = true ∧ ∀ e ∈ (s.core n).sb, (e.cells.map (·.1)).Nodup ∧ e.poison = false

/-- No unit of the machine of core n has work (R286). -/
def State.unitsIdle (s : State) (n : Nat) : Prop :=
  ∀ k ∈ s.machineOf n, (s.core k).mx.jobs = []
    ∧ ∀ e ∈ (s.core k).sce, e.run = .idle ∧ e.held = none ∧ e.chains = [] ∧ ∀ x ∈ e.tags, x = none

/-! ## Vector machines -/

/-- R172, R173: the vector state of the machine that core n leads is legal: a gang of 1, 2 or 4, and vl within vlmax. -/
def State.vecOk (s : State) (n : Nat) : Prop :=
  Mem.wf (s.core n).vec.v = true ∧ (s.core n).vec.sew ≤ 3
    ∧ (s.gang n = 1 ∨ s.gang n = 2 ∨ s.gang n = 4) ∧ (s.core n).vec.vl ≤ vlmaxOf (s.gang n) (s.core n).vec.sew

/-- A vector instruction commits and changes the vector state alone, to one that meets a condition; GANG_ISSUE counts it
on a gang. -/
def State.vgives (s : State) (n : Nat) (o : Host.Outcome State Fault Refusal) (p : Vec → Prop) : Prop :=
  ∃ t, o = .next t ∧ p (t.core n).vec
    ∧ s.retires t n ({ s.core n with vec := (t.core n).vec }.past 4) false
        (fun i => if i = 12 ∧ s.gang n ≠ 1 then 1 else 0)

/-- As State.vgives, with a change of the scalar core as well. -/
def State.vsets (s : State) (n : Nat) (o : Host.Outcome State Fault Refusal) (c : Core) : Prop :=
  ∃ t, o = .next t ∧ s.retires t n (c.past 4) false (fun i => if i = 12 ∧ s.gang n ≠ 1 then 1 else 0)

/-- R199: the flags after an instruction are those before and those that an active element raises. -/
def Vec.flagsMap (x y : Vec) (pm : BitVec 3) (f : Nat → Nat × BitVec 7) : Prop :=
  ∀ j, y.vxr.getLsbD j = true ↔ x.vxr.getLsbD j = true ∨ ∃ i, x.active pm.toNat i = true ∧ (f i).2.getLsbD j = true

/-- R179: y is x with the active elements of register vd given f's values, the inactive ones kept or zeroed, the tail and
every other register as they were. -/
def Vec.mapped (x y : Vec) (esz : Nat) (vd : BitVec 5) (pm : BitVec 3) (z : Bool) (f : Nat → Nat × BitVec 7) : Prop :=
  y = { x with v := y.v, vxr := y.vxr } ∧ x.flagsMap y pm f
    ∧ (∀ i, i < x.vl → y.el esz vd.toNat i =
        if x.active pm.toNat i then (f i).1 % 2 ^ (8 * esz) else if z then 0 else x.el esz vd.toNat i)
    ∧ ∀ a, a < 16384 * vd.toNat ∨ 16384 * vd.toNat + x.vl * esz ≤ a → y.v.read a = x.v.read a

/-- As Vec.mapped, for a destination pair of a gang g (R189). -/
def Vec.mappedPair (x y : Vec) (g esz : Nat) (vd : BitVec 5) (pm : BitVec 3) (z : Bool) (f : Nat → Nat × BitVec 7) : Prop :=
  y = { x with v := y.v, vxr := y.vxr } ∧ x.flagsMap y pm f
    ∧ (∀ i, i < x.vl → y.elPair g esz vd.toNat i =
        if x.active pm.toNat i then (f i).1 % 2 ^ (8 * esz) else if z then 0 else x.elPair g esz vd.toNat i)
    ∧ ∀ a, (∀ i, i < x.vl → a < 16384 * (pairAt g esz vd.toNat i).1 + (pairAt g esz vd.toNat i).2 * esz
        ∨ 16384 * (pairAt g esz vd.toNat i).1 + (pairAt g esz vd.toNat i).2 * esz + esz ≤ a) → y.v.read a = x.v.read a

/-- R180: y is x with predicate register pd given the bits of f at its active positions and 0 elsewhere; p0 discards
it. -/
def Vec.predSet (x y : Vec) (pd : BitVec 5) (pm : BitVec 3) (f : Nat → Bool) (e : Nat → Nat × BitVec 7) : Prop :=
  y = { x with p := y.p, vxr := y.vxr } ∧ x.flagsMap y pm e ∧ y.p.length = x.p.length
    ∧ (∀ k, k ≠ pd.toNat ∨ k = 0 → y.p.getD k 0 = x.p.getD k 0)
    ∧ (pd ≠ 0 → ∀ i, (y.p.getD pd.toNat 0).getLsbD i = (x.active pm.toNat i && f i))

/-- One step of R192's tree over an array. -/
def treeStep (op : Nat → Nat → Nat × Cond) (vl d : Nat) (t : Nat → Option Nat × Cond) : Nat → Option Nat × Cond :=
  fun i => if i % (2 * d) = 0 ∧ i + d < vl then optOp op (t i) (t (i + d)) else t i

/-- R192's loop from distance d on. -/
def treeLoop (op : Nat → Nat → Nat × Cond) (vl : Nat) : Nat → Nat → (Nat → Option Nat × Cond) → Option Nat × Cond
  | 0, _, t => t 0
  | k + 1, d, t => if d < vl then treeLoop op vl k (2 * d) (treeStep op vl d t) else t 0

/-- One step of R194's scan over arrays of values and segment heads; each position keeps the conditions raised there. -/
def scanLoop (op : Nat → Nat → Nat × Cond) (vl : Nat) :
    Nat → Nat → (Nat → Option Nat × Cond) → (Nat → Bool) → Nat → Option Nat × Cond
  | 0, _, v, _ => v
  | k + 1, d, v, h =>
    if d < vl then
      scanLoop op vl k (2 * d)
        (fun i => if d ≤ i ∧ i < vl ∧ h i = false then
            ((optOp op ((v (i - d)).1, 0) ((v i).1, 0)).1, (v i).2 ||| (optOp op ((v (i - d)).1, 0) ((v i).1, 0)).2)
          else v i)
        (fun i => if d ≤ i ∧ i < vl then h i || h (i - d) else h i)
    else v

/-! ## Stream chain engines -/

/-- R264: engine e of core n runs and reaches the word w: its PC lies in the program memory and its word is not
poisoned. -/
def State.atWord (s : State) (n e : Nat) (w : SeqWord) : Prop :=
  n < 64 ∧ s.cores.length = 64 ∧ e < (s.core n).sce.length ∧ (s.engine n e).run = .running ∧ (s.engine n e).pc ≤ 4095
    ∧ nsHas (s.engine n e).pmPoison (s.engine n e).pc = false
    ∧ SeqWord.decode (Tab.get 0 (s.engine n e).pm (s.engine n e).pc) = some w

/-- Engine e of core n becomes x, and nothing else changes. -/
def State.engineIs (s t : State) (n e : Nat) (x : Sce) : Prop :=
  t = { s with cores := t.cores } ∧ (∀ k, k ≠ n → t.core k = s.core k)
    ∧ t.core n = { s.core n with sce := (s.core n).sce.set e x }

/-- R289: engine e of core n stops at a word with a cause: what Table 19 names reaches the core at its next boundary,
unless an exception waits there already. -/
def State.engineStops (s : State) (n e cause xc pc : Nat) (o : Host.Outcome State Fault Refusal) : Prop :=
  ∃ t, o = .next t ∧ (t.engine n e).run = .idle ∧ (t.engine n e).chains = [] ∧ (t.engine n e).fault = cause
    ∧ (t.engine n e).faultX = xc ∧ (t.engine n e).faultPc = pc ∧ (t.engine n e).pm = (s.engine n e).pm
    ∧ (s.leadOf n < 64 → (s.core (s.leadOf n)).deliver = none → ∃ d, (t.core (s.leadOf n)).deliver = some d ∧ d.cause = xc ∧ d.unit = 4 + e)

/-- R261, R262: core n commits a stream long form that gives engine e of core k the state x. Loads forward from or drain
the store buffer (R153, R154), so DRAM and the buffer may change where what the core sees does not. -/
def State.commitsEngine (s t : State) (n k e : Nat) (x : Sce) : Prop :=
  { s with xlt := { s.xlt with rtb := t.xlt.rtb, rtbMiss := t.xlt.rtbMiss } }.worked t
    ∧ t.engine k e = x ∧ (∀ i j, (i, j) ≠ (k, e) → t.engine i j = s.engine i j)
    ∧ (∀ i, i ≠ n → t.core i = { s.core i with sce := (t.core i).sce, l1 := (t.core i).l1, priv := (t.core i).priv })
    ∧ t.core n = { s.core n with
        pc := (s.core n).pc + 8, pmc := (t.core n).pmc, sb := (t.core n).sb, sce := (t.core n).sce
        l1 := (t.core n).l1, priv := (t.core n).priv }
    ∧ (∀ a, s.sound a → t.seen n a = s.seen n a)

/-! ## Placement -/

/-- Nothing falls due at a placement boundary (R310): no core is marked failed or due for a patrol test. -/
def State.calm (s : State) : Prop := ∀ n, n < 64 → s.pcm.failed.getLsbD n = false ∧ (s.patrol n).due = false

/-- R77, R297: a core as its machine finds it at the start of a cell: reset state, but for its place in the machine and
the CLOSE bits of its units. -/
def Core.fresh (c : Core) : Core :=
  { Core.reset with
    gangRole := c.gangRole
    members := c.members
    spare := c.spare
    mx := { Mx.reset with close := c.mx.close }
    sce := c.sce.map (fun e => { Sce.reset with close := e.close }) }

/-- An address of the scratchpad window of a core (R515). -/
def inSpad (n a : Nat) : Prop := spadBase n ≤ a ∧ a < spadBase n + 0x400000

end Sys2Proof.Machine
end

