-- ==== Sys2Proof/Certificates/Slice0/Obligations.lean ====
section
/-!
DEFINITION. The statements for the provers, in the order of OBLIGATIONS.json.
-/
open Sys2Proof Sys2Proof.Machine

/-- A step of the block; the idle step is the model's choice (notes/assumptions/4.md), and no row has bits
(notes/assumptions/10.md). -/
def Obligations.StepRunsFront : Prop :=
  (∀ (s : State) (c : Instr) (rest : List Instr), s.pending = c :: rest → step s = exec c { s with pending := rest })
  ∧ (∀ s : State, s.pending = [] → ∃ t, step s = .next t
      ∧ t = { s with now := s.now + 1, free := s.free + 1, cores := t.cores, flt := { s.flt with sramCe := t.flt.sramCe } } ∧ t.cores.length = s.cores.length
      ∧ ∀ n, n < s.cores.length → t.core n = { s.core n with pmc := (t.core n).pmc }
        ∧ ((s.core n).ctxValid = false → t.core n = s.core n)
        ∧ ∀ i, i ≠ 0 → (i ≠ 15 ∨ (s.core n).steward = false) → (t.core n).pmc.getD i 0 = (s.core n).pmc.getD i 0)
  ∧ (∀ (s : State) (c : Instr), ∃ t, exec c s = .next t)
  ∧ ∀ (s : State) (nbits w : Nat), decodeTableWord nbits w = none ∧ s.withFetchWord nbits w = s

/-- R16, R462: the parts of the device, whatever runs. -/
def Obligations.StepInvariant : Prop :=
  let inv := fun (s : State) => Mem.wf s.dram.bytes = true ∧ s.cores.length = 64 ∧ s.mcu.length = 8 ∧ s.ports.length = 16
    ∧ s.pcm.islands.length = 18 ∧ s.flt.patrol.length = 64
  ∀ s t : State, inv s → step s = .next t →
    inv t ∧ t.pending = s.pending.tail ∧ t.now = (if s.pending = [] then s.now + 1 else s.now)

/-- R14, R16, R58, R454, R487: State.reset. Registers without a reset value in the manual are zero by
notes/assumptions/6.md, memory by notes/assumptions/5.md. -/
def Obligations.ResetState : Prop :=
  let s := State.reset
  s.pending = [] ∧ s.dev.life = .boot ∧ s.dev.frost = false ∧ s.dev.stateChanged = false ∧ s.dev.faultNew = false
    ∧ s.sim.image = none ∧ s.sim.present = [] ∧ s.sim.ownerFloor = 0 ∧ s.sim.vendorFloor = 0 ∧ s.tkm.ownerKey = none
    ∧ s.tkm.pending = none ∧ s.ctxs = [] ∧ s.qmg.queues = [] ∧ s.qmg.descs = [] ∧ s.cle.groups = [] ∧ s.twc.st = .unpaired
    ∧ s.flt.log = [] ∧ s.flt.nextRid = 1 ∧ s.flt.lost = 0 ∧ s.flt.squall = false
    ∧ (∀ c ∈ s.cores, c.run = .idle ∧ c.work = .none ∧ (∀ w ∈ c.g ++ c.d ++ c.pmc, w = 0) ∧ c.pc = 0 ∧ c.fflags = 0
        ∧ c.steward = false ∧ c.sb = [] ∧ c.mx.jobs = [] ∧ c.mx.close = false
        ∧ ∀ e ∈ c.sce, e.run = .idle ∧ e.close = false ∧ e.pm = [] ∧ e.fault = 0)
    ∧ (∀ p ∈ s.ports, p.st = .down ∧ p.close = false ∧ p.peer = none) ∧ (∀ h ∈ s.host.hdm, h.committed = false)
    ∧ s.ple.cellClose = false ∧ s.ple.moveClose = false ∧ s.cle.close = false ∧ s.twc.close = false ∧ s.dram.bytes = []
    ∧ Mem.wf s.dram.bytes = true ∧ s.cores.length = 64 ∧ s.mcu.length = 8 ∧ s.ports.length = 16
    ∧ s.pcm.islands.length = 18 ∧ s.flt.patrol.length = 64

/-- R41, R44, R56: the staging commands, each with its result and its frame. -/
def Obligations.SimStaging : Prop :=
  ∀ s : State, s.serves .sim → s.settled → Mem.wf s.sim.staging = true → Mem.wf s.sim.chunk = true →
    (s.sim.cmd.busy = false →
      (∃ t, exec .clear s = .next t ∧ t = { s with sim := t.sim } ∧ t.sim.present = []
        ∧ t.sim.staging = s.sim.staging ∧ t.sim.cmd = ⟨false, s.sim.cmd.dropped, true, 1, 0⟩)
      ∧ ((s.dev.life = .unclaimed ∨ s.dev.life = .held ∨ s.dev.life = .service) →
        ((64 ≤ s.sim.chunkLen ∧ s.sim.chunkLen ≤ 4096 ∧ s.sim.chunkLen % 64 = 0 ∧ s.sim.chunkOff % 64 = 0
            ∧ s.sim.chunkOff + s.sim.chunkLen ≤ 65536) →
          ∃ t, exec .deposit s = .next t ∧ t = { s with sim := t.sim }
            ∧ (∀ a, Mem.read t.sim.staging a =
                if s.sim.chunkOff ≤ a ∧ a < s.sim.chunkOff + s.sim.chunkLen then Mem.read s.sim.chunk (a - s.sim.chunkOff)
                else Mem.read s.sim.staging a)
            ∧ (∀ g, g ∈ t.sim.present ↔
                g ∈ s.sim.present ∨ s.sim.chunkOff / 64 ≤ g ∧ g < (s.sim.chunkOff + s.sim.chunkLen) / 64)
            ∧ t.sim.cmd = ⟨false, s.sim.cmd.dropped, true, 2, 0⟩)
        ∧ (¬(64 ≤ s.sim.chunkLen ∧ s.sim.chunkLen ≤ 4096 ∧ s.sim.chunkLen % 64 = 0 ∧ s.sim.chunkOff % 64 = 0
            ∧ s.sim.chunkOff + s.sim.chunkLen ≤ 65536) →
          ∃ t, exec .deposit s = .next t ∧ t = { s with sim := t.sim } ∧ t.sim.staging = s.sim.staging
            ∧ t.sim.present = s.sim.present ∧ t.sim.cmd = ⟨false, s.sim.cmd.dropped, true, 2, 0x12⟩)))
    ∧ ∀ o size v, o < 0x1000 → (size = 4 ∨ size = 8) → o % size = 0 →
        ∃ t, exec (.simChunkWrite o size v) s = .next t ∧ t = { s with sim := { s.sim with chunk := t.sim.chunk } }
          ∧ ∀ a, Mem.read t.sim.chunk a =
              if o ≤ a ∧ a < o + size then BitVec.ofNat 8 (v / 256 ^ (a - o)) else Mem.read s.sim.chunk a

/-- R54, with R43, R47, R50 and R53 to R55: the SIM's checked commands, from their write to DONE. -/
def Obligations.SimVerifyCommitRelease : Prop :=
  ∀ s : State,
    (s.serves .sim → s.settled → s.sim.cmd.busy = false →
      (s.dev.life = .unclaimed ∨ s.dev.life = .held →
        (∃ t, exec .verify s = .next t ∧ t = { s with sim := t.sim } ∧ t.sim.cmd = ⟨true, s.sim.cmd.dropped, s.sim.cmd.done, 3, 0⟩
          ∧ t.sim.run = some .verify ∧ t.sim.image = s.sim.image ∧ t.sim.present = s.sim.present)
        ∧ (∃ t, exec .commit s = .next t ∧ t = { s with sim := t.sim } ∧ t.sim.cmd.busy = true ∧ t.sim.cmd.op = 4
          ∧ t.sim.run = some .commit ∧ t.sim.present = s.sim.present ∧ t.sim.staging = s.sim.staging))
      ∧ (s.dev.life = .service → (s.qmg.descs ≠ [] ∨ ∃ m ∈ s.ple.moves, m.started = true) →
        (∃ t, exec .commit s = .next t ∧ t = { s with sim := t.sim } ∧ t.sim.image = s.sim.image
          ∧ t.sim.present = s.sim.present ∧ t.sim.staging = s.sim.staging ∧ t.sim.cmd = ⟨false, s.sim.cmd.dropped, true, 4, 0x11⟩)
        ∧ (∃ t, exec .release s = .next t ∧ t = { s with sim := t.sim } ∧ t.sim.image = s.sim.image
          ∧ t.sim.cmd = ⟨false, s.sim.cmd.dropped, true, 5, 0x11⟩))
      ∧ (s.dev.life = .service → s.qmg.descs = [] → (∀ m ∈ s.ple.moves, m.started = false) →
        ∃ t, exec .release s = .next t ∧ t.dev.life = .held ∧ t.sim.image = none ∧ t.sim.cmd.busy = true
          ∧ t.sim.run = some .release ∧ t.ctxs = [] ∧ t.qmg.queues = [] ∧ t.dev.twnAliveOut = false))
    ∧ (s.sim.run = some .verify →
      ∃ t, exec .imageChecksComplete s = .next t ∧ t = { s with sim := t.sim } ∧ t.sim.present = s.sim.present
        ∧ t.sim.staging = s.sim.staging ∧ t.sim.image = s.sim.image ∧ t.sim.ownerFloor = s.sim.ownerFloor ∧ t.sim.vendorFloor = s.sim.vendorFloor
        ∧ t.sim.cmd.busy = false ∧ t.sim.cmd.done = true
        ∧ t.sim.cmd.code = match s.simCheck with | .bad c _ _ => c | .ok _ => 0)
    ∧ (s.sim.run = some .commit → ∀ c sec o, s.simCheck = .bad c sec o →
      ∃ t, exec .imageChecksComplete s = .next t ∧ t = { s with sim := t.sim } ∧ t.sim.present = s.sim.present
        ∧ t.sim.staging = s.sim.staging ∧ t.sim.image = s.sim.image ∧ t.sim.ownerFloor = s.sim.ownerFloor
        ∧ t.sim.vendorFloor = s.sim.vendorFloor ∧ t.sim.cmd.code = c ∧ t.sim.section_ = sec ∧ t.sim.fieldOffset = o)
    ∧ (s.sim.run = some .commit → ∀ i, s.simCheck = .ok i →
      ∃ t, exec .imageChecksComplete s = .next t ∧ t.sim.present = [] ∧ t.sim.image = some i
        ∧ t.sim.ownerFloor = (if i.vendor then s.sim.ownerFloor else i.seq)
        ∧ t.sim.vendorFloor = (if i.vendor then i.seq else s.sim.vendorFloor)
        ∧ t.dev.life = (if i.vendor then .test else .service) ∧ t.sim.cmd.code = 0 ∧ t.sim.cmd.busy = false)
    ∧ (s.sim.run = some .release → s.dev.life = .test → s.svm.packRun = none →
      ∃ t, exec .imageChecksComplete s = .next t ∧ t.dev.life = (if s.tkm.ownerKey.isSome then .held else .unclaimed)
        ∧ t.sim.image = none ∧ t.sim.cmd.busy = false)

/-- R46: when an image passes the sequence check. -/
def Obligations.SequenceRule : Prop :=
  (∀ (s : State) (vendor : Bool) (seq : Nat) (dg : Digest),
    s.seqOk vendor seq dg = true ↔
      (if vendor then s.sim.vendorFloor else s.sim.ownerFloor) < seq
      ∨ seq = (if vendor then s.sim.vendorFloor else s.sim.ownerFloor)
        ∧ (if vendor then s.sim.vendorFloor else s.sim.ownerFloor) ≠ 0
        ∧ dg = (if vendor then s.sim.vendorDigest else s.sim.ownerDigest))
    ∧ ∀ (s : State) (i : Image), s.simCheck = .ok i → s.seqOk i.vendor i.seq i.digest = true

/-- R65, R66, R70, R83: the commands of the trust and key manager. -/
def Obligations.TkmCommands : Prop :=
  ∀ s : State, s.serves .tkm →
    (s.tkm.cmd.busy = false →
      (∃ t, exec .submit s = .next t ∧ t = { s with tkm := t.tkm } ∧ t.tkm.ownerKey = s.tkm.ownerKey
        ∧ t.tkm.ownerCtr = s.tkm.ownerCtr ∧ t.tkm.resp = s.tkm.resp
        ∧ t.tkm.reqType = leAt (s.tkm.req.readBytes 0 8192) 4 2
        ∧ (if s.reqEarly (s.tkm.req.readBytes 0 8192) = 0 then
            t.tkm.cmd.busy = true ∧ t.tkm.checking = some (s.tkm.req.readBytes 0 8192)
          else t.tkm.cmd = ⟨false, s.tkm.cmd.dropped, true, 1, s.reqEarly (s.tkm.req.readBytes 0 8192)⟩)
        ∧ (s.tkm.req.readLe 4 2 = 1 → exec .claim s = .next t)
        ∧ (s.tkm.req.readLe 4 2 = 2 → exec .transfer s = .next t)
        ∧ (s.tkm.req.readLe 4 2 = 3 → exec .renounce s = .next t)
        ∧ (s.tkm.req.readLe 4 2 = 4 → exec .readImage s = .next t)
        ∧ (s.tkm.req.readLe 4 2 = 5 → exec .readT2 s = .next t)
        ∧ (s.tkm.req.readLe 4 2 = 6 → exec .debugToken s = .next t))
      ∧ (leAt (s.tkm.req.readBytes 0 8192) 0 4 ≠ 0x4E574F51 →
        ∃ t, exec .submit s = .next t ∧ t.tkm.cmd = ⟨false, s.tkm.cmd.dropped, true, 1, 1⟩)
      ∧ ∃ t, exec .respRelease s = .next t ∧ t = { s with tkm := t.tkm } ∧ t.tkm.resp = [] ∧ t.tkm.cmd.done = true
          ∧ t.tkm.ownerCtr = s.tkm.ownerCtr)
    ∧ (s.tkm.cmd.busy = true →
      ∃ t, exec .submit s = .next t ∧ exec .respRelease s = .next t
        ∧ t = { s with tkm := { s.tkm with cmd := { s.tkm.cmd with dropped := true } } })
    ∧ (Mem.wf s.tkm.req = true → ∀ o size v, o < 0x2000 → (size = 4 ∨ size = 8) → o % size = 0 →
      ∃ t, exec (.tkmReqWrite o size v) s = .next t ∧ t = { s with tkm := { s.tkm with req := t.tkm.req } }
        ∧ ∀ a, Mem.read t.tkm.req a =
            if o ≤ a ∧ a < o + size then BitVec.ofNat 8 (v / 256 ^ (a - o)) else Mem.read s.tkm.req a)

/-- R66 to R68, R80, R82: what a request's checks lead to. -/
def Obligations.RequestChecks : Prop :=
  ∀ (s : State) (r : List Byte), s.tkm.checking = some r → s.tkm.scrubActive = false →
    (s.reqCode r ≠ 0 →
      ∃ t, exec .requestChecksComplete s = .next t ∧ t = { s with tkm := t.tkm } ∧ t.tkm.ownerKey = s.tkm.ownerKey
        ∧ t.tkm.ownerCtr = s.tkm.ownerCtr ∧ t.tkm.resp = s.tkm.resp ∧ t.tkm.pending = s.tkm.pending
        ∧ t.tkm.cmd = ⟨false, s.tkm.cmd.dropped, true, 1, s.reqCode r⟩)
    ∧ (s.reqCode r = 0 →
      (leAt r 4 2 = 1 ∨ leAt r 4 2 = 2 ∨ leAt r 4 2 = 3 →
        ∃ t, exec .requestChecksComplete s = .next t ∧ t.dev.life = .recovery ∧ t.tkm.scrubActive = true
          ∧ t.tkm.scrubCause = 1 ∧ t.tkm.ownerKey = s.tkm.ownerKey ∧ t.sim.present = [] ∧ t.dram = s.dram
          ∧ t.tkm.pending = some (if leAt r 4 2 = 1 then .claim (sliceAt r 0x40 2592)
              else if leAt r 4 2 = 2 then .transfer (sliceAt r 0x40 2592) else .renounce))
      ∧ (leAt r 4 2 = 4 ∨ leAt r 4 2 = 5 →
        ∃ t, exec .requestChecksComplete s = .next t ∧ t.dev.life = s.dev.life ∧ t.tkm.ownerCtr = leAt r 0x10 8
          ∧ t.tkm.pending = s.tkm.pending ∧ t.tkm.cmd = ⟨false, s.tkm.cmd.dropped, true, 1, 0⟩ ∧ t.dram = s.dram
          ∧ t.tkm.resp.take 4 = leBytes 4 0x50535251)
      ∧ (leAt r 4 2 = 6 →
        ∃ t, exec .requestChecksComplete s = .next t ∧ t.dev = s.dev ∧ t.tkm.scrubActive = true ∧ t.tkm.scrubCause = 2
          ∧ (∃ d sc h, t.tkm.pending = some (.dbgOpen d sc h (leAt r 0x10 8))) ∧ t.svm = s.svm))

/-- R67, R79, R80, R82, R113, R116: what a full scrub leaves, by the pending record. -/
def Obligations.FullScrub : Prop :=
  ∀ s : State, s.tkm.scrubActive = true →
    (∀ k, (s.tkm.pending = some (.claim k) ∨ s.tkm.pending = some (.transfer k)) →
      ∃ t, exec .fullScrubComplete s = .next t ∧ t.dram.bytes = [] ∧ t.dram.poison = [] ∧ t.sim.staging = []
        ∧ t.tkm.ownerKey = some k ∧ t.tkm.ownerCtr = 0 ∧ t.sim.ownerFloor = 0 ∧ t.sim.ownerDigest = 0
        ∧ t.sim.vendorFloor = s.sim.vendorFloor ∧ t.flt.log = [] ∧ t.flt.tail = t.flt.head ∧ t.tkm.pending = none
        ∧ t.tkm.scrubActive = false ∧ t.dev.life = .held)
    ∧ (s.tkm.pending = some .renounce →
      ∃ t, exec .fullScrubComplete s = .next t ∧ t.dram.bytes = [] ∧ t.tkm.ownerKey = none ∧ t.tkm.ownerCtr = 0
        ∧ t.sim.ownerFloor = 0 ∧ t.flt.log = [] ∧ t.tkm.pending = none ∧ t.dev.life = .unclaimed)
    ∧ (∀ d sc h ctr, s.tkm.pending = some (.dbgOpen d sc h ctr) →
      ∃ t, exec .fullScrubComplete s = .next t ∧ t.dram.bytes = [] ∧ t.tkm.pending = some .session
        ∧ t.svm.dbg = some ⟨s.now + d * 1000000, sc, h, 0, 0⟩ ∧ t.svm.aliasSeed = none ∧ t.dev.dbgOpen = true
        ∧ t.spdm.sessions = [] ∧ t.tkm.ownerCtr = ctr ∧ t.tkm.ownerKey = s.tkm.ownerKey
        ∧ t.sim.ownerFloor = s.sim.ownerFloor ∧ ∀ k, (Tab.get LogRec.none t.flt.log k).data = [])
    ∧ (s.tkm.pending = some .session → s.dev.life = .recovery →
      ∃ t, exec .fullScrubComplete s = .next t ∧ t.dram.bytes = [] ∧ t.tkm.pending = none ∧ t.tkm.scrubActive = false
        ∧ t.tkm.ownerKey = s.tkm.ownerKey ∧ t.sim.ownerFloor = s.sim.ownerFloor
        ∧ t.dev.life = if s.tkm.ownerKey.isSome then .held else .unclaimed)

/-- R114, R116: unlocking and ending a debug session. -/
def Obligations.DebugSession : Prop :=
  ∀ (s : State) (d : DbgSession), s.svm.dbg = some d →
    (s.now < d.endsAt → exec .debugCountdownExpiry s = .next s)
    ∧ (d.endsAt ≤ s.now → ∃ t, exec .debugCountdownExpiry s = .next t ∧ t.svm.dbg = none ∧ t.dev.dbgOpen = false ∧ t.dev.frost = false
      ∧ t.tkm.scrubActive = true ∧ t.tkm.scrubCause = 3 ∧ t.ctxs = [] ∧ t.qmg.queues = [] ∧ t.qmg.descs = [])
    ∧ (s.serves .svm → s.svm.cmd.busy = false → s.tkm.pending = some .session →
      ∃ t, exec .debugClose s = .next t ∧ t.svm.dbg = none ∧ t.dev.dbgOpen = false ∧ t.tkm.scrubActive = true
        ∧ t.tkm.scrubCause = 3 ∧ t.ctxs = [] ∧ t.qmg.descs = [])
    ∧ (s.dev.life ≠ .off → ∀ secret,
      (Config.sha3 secret = d.secretHash →
        ∃ t, exec (.dbgUnlock secret) s = .next t ∧ t.svm.dbg = some { d with granted := d.scope } ∧ t.tap.ir = .dbgUnlock
          ∧ t.dram = s.dram ∧ t.tkm = s.tkm)
      ∧ (Config.sha3 secret ≠ d.secretHash → d.wrong < 7 →
        ∃ t, exec (.dbgUnlock secret) s = .next t ∧ t.svm.dbg = some { d with wrong := d.wrong + 1 } ∧ t.tkm = s.tkm)
      ∧ (Config.sha3 secret ≠ d.secretHash → 7 ≤ d.wrong →
        ∃ t, exec (.dbgUnlock secret) s = .next t ∧ t.svm.dbg = none ∧ t.tkm.scrubActive = true ∧ t.dev.dbgOpen = false))

/-- R107 to R109, R117: the firmware commands. -/
def Obligations.FirmwareUpdate : Prop :=
  ∀ s : State, s.svm.banks.length = 2 → s.svm.bank < 2 →
    (s.serves .svm → s.svm.cmd.busy = false → s.tkm.pending = none →
      (s.dev.life = .unclaimed ∨ s.dev.life = .held →
        ∃ t, exec .enterRecovery s = .next t ∧ t.dev.life = .recovery ∧ t.sim.present = [] ∧ t.svm.cmd.code = 0
          ∧ t.svm.cmd.done = true ∧ t.svm.banks = s.svm.banks)
      ∧ (s.dev.life = .recovery →
        (∃ t, exec .fwBegin s = .next t ∧ t = { s with svm := t.svm } ∧ t.svm.fill = 0 ∧ t.svm.fwBegun = true
          ∧ t.svm.bankValid (1 - s.svm.bank) = false ∧ t.svm.bankMem s.svm.bank = s.svm.bankMem s.svm.bank
          ∧ t.svm.bankValid s.svm.bank = s.svm.bankValid s.svm.bank ∧ t.svm.cmd.code = 0)
        ∧ (s.svm.fwBegun = true → ∀ len,
          (len < 64 ∨ 4096 < len ∧ len < 8192 ∨ len < 8192 ∧ len % 64 ≠ 0 →
            ∃ t, exec (.fwChunk len) s = .next t ∧ t = { s with svm := t.svm } ∧ t.svm.cmd.code = 2
              ∧ t.svm.banks = s.svm.banks ∧ t.svm.fill = s.svm.fill)
          ∧ (64 ≤ len → len ≤ 4096 → len % 64 = 0 → 4194304 < s.svm.fill + len →
            ∃ t, exec (.fwChunk len) s = .next t ∧ t = { s with svm := t.svm } ∧ t.svm.cmd.code = 3
              ∧ t.svm.banks = s.svm.banks ∧ t.svm.fill = s.svm.fill)
          ∧ (64 ≤ len → len ≤ 4096 → len % 64 = 0 → s.svm.fill + len ≤ 4194304 →
              Mem.wf (s.svm.bankMem (1 - s.svm.bank)) = true →
            ∃ t, exec (.fwChunk len) s = .next t ∧ t = { s with svm := t.svm } ∧ t.svm.cmd.code = 0
              ∧ t.svm.fill = s.svm.fill + len ∧ t.svm.bankMem s.svm.bank = s.svm.bankMem s.svm.bank
              ∧ ∀ a, Mem.read (t.svm.bankMem (1 - s.svm.bank)) a =
                  if s.svm.fill ≤ a ∧ a < s.svm.fill + len then Mem.read s.svm.chunk (a - s.svm.fill)
                  else Mem.read (s.svm.bankMem (1 - s.svm.bank)) a))
        ∧ (s.svm.fwBegun = true → ∃ t, exec .fwEnd s = .next t ∧ t = { s with svm := t.svm } ∧ t.svm.cmd.busy = true
            ∧ t.svm.run = some .fwEnd ∧ t.svm.banks = s.svm.banks)
        ∧ ∃ t, exec .exitRecovery s = .next t ∧ t.dev.life = .boot ∧ t.sim.image = none ∧ t.sim.ownerFloor = s.sim.ownerFloor
            ∧ t.tkm.ownerKey = s.tkm.ownerKey))
    ∧ (s.svm.run = some .fwEnd →
      ∃ t, exec .bundleChecksComplete s = .next t ∧ t = { s with svm := t.svm } ∧ t.svm.cmd.busy = false
        ∧ t.svm.cmd.code = s.svm.bundleCode (s.svm.bankMem (1 - s.svm.bank)) s.svm.fill
        ∧ t.svm.bankValid (1 - s.svm.bank) = (s.svm.bankValid (1 - s.svm.bank)
            || decide (s.svm.bundleCode (s.svm.bankMem (1 - s.svm.bank)) s.svm.fill = 0))
        ∧ t.svm.bankMem (1 - s.svm.bank) = s.svm.bankMem (1 - s.svm.bank))
    ∧ (s.serves .svm → Mem.wf s.svm.chunk = true → ∀ o size v, o < 0x1000 → (size = 4 ∨ size = 8) → o % size = 0 →
      ∃ t, exec (.svmChunkWrite o size v) s = .next t ∧ t = { s with svm := { s.svm with chunk := t.svm.chunk } }
        ∧ ∀ a, Mem.read t.svm.chunk a =
            if o ≤ a ∧ a < o + size then BitVec.ofNat 8 (v / 256 ^ (a - o)) else Mem.read s.svm.chunk a)

/-- R110, R111: the instructions of the test access port. -/
def Obligations.TapInstructions : Prop :=
  ∀ s : State, s.dev.life ≠ .off →
    exec .bypass s = .next { s with tap := { s.tap with ir := .bypass } }
    ∧ exec .idcode s = .next { s with tap := ⟨.idcode, 0x17A215CB⟩ }
    ∧ exec .samplePreload s = .next { s with tap := { s.tap with ir := .samplePreload } }
    ∧ exec .extest s = .next { s with tap := { s.tap with ir := if s.dev.life = .service then .bypass else .extest } }
    ∧ exec .extestPulse s = .next { s with tap := { s.tap with ir := if s.dev.life = .service then .bypass else .extestPulse } }
    ∧ exec .extestTrain s = .next { s with tap := { s.tap with ir := if s.dev.life = .service then .bypass else .extestTrain } }
    ∧ exec .clamp s = .next { s with tap := { s.tap with ir := if s.dev.life = .service then .bypass else .clamp } }
    ∧ exec .highz s = .next { s with tap := { s.tap with ir := if s.dev.life = .service then .bypass else .highz } }

/-- R92, R100, R101, R115: the SPDM responder; the spelling of the answers is the model's choice (notes/assumptions/43.md). -/
def Obligations.SpdmResponder : Prop :=
  ∀ s : State, s.configured = true →
    (s.romOnly = true →
      ∃ t, exec .getVersion s = .next t ∧ exec .keyExchange s = .next t ∧ exec .unsupportedRequest s = .next t
        ∧ t = { s with host := t.host } ∧ t.host.answer = [] ∧ t.host.answerCode = 3)
    ∧ (s.romOnly = false →
      (∃ t, exec .getVersion s = .next t ∧ t = { s with host := t.host } ∧ t.host.answer = [1, 4] ∧ t.host.answerCode = 0)
      ∧ (∃ t, exec .getCapabilities s = .next t ∧ t = { s with host := t.host } ∧ t.host.answer = [0xFF] ∧ t.host.answerCode = 0)
      ∧ (∀ all, ∃ t, exec (.negotiateAlgorithms all) s = .next t ∧ t = { s with host := t.host }
          ∧ t.host.answerCode = (if all then 0 else 1) ∧ t.host.answer = if all then [0x0F] else [])
      ∧ (∃ t u, exec .getCertificate s = .next t ∧ exec .getDigests s = .next u ∧ t = { s with host := t.host }
          ∧ u = { s with host := u.host } ∧ t.host.answer = s.chain ∧ t.host.answerCode = 0
          ∧ u.host.answer = 0x01 :: digestBytes (Config.sha3 s.chain) ∧ u.host.answerCode = 0)
      ∧ (∃ t, exec .unsupportedRequest s = .next t ∧ t = { s with host := t.host } ∧ t.host.answerCode = 7)
      ∧ (∀ i, 1 ≤ i → i ≤ 32 → ∃ t, exec (.getMeasurements i false) s = .next t ∧ t = { s with host := t.host }
          ∧ t.host.answer = digestBytes (s.svm.slots.getD (i - 1) 0) ∧ t.host.answerCode = 0)
      ∧ (∀ k, s.svm.aliasSeed = some k →
        (∀ all, ∃ t, exec (.challenge all) s = .next t ∧ t.host.answerCode = 0 ∧ t = { s with host := t.host, spdm := t.spdm }
          ∧ t.spdm.sessions = s.spdm.sessions
          ∧ t.host.answer.take 64 = digestBytes (Config.sha3 (s.measured (if all then 32 else 4))))
        ∧ ∃ t, exec .keyExchange s = .next t ∧ t.host.answerCode = 0 ∧ t = { s with host := t.host, spdm := t.spdm }
          ∧ t.spdm.sessions = s.spdm.sessions ++ [⟨s.spdm.nextSession, false, 0⟩])
      ∧ (s.svm.aliasSeed = none →
        ∃ t, exec .keyExchange s = .next t ∧ exec (.challenge true) s = .next t ∧ t = { s with host := t.host }
          ∧ t.host.answerCode = 5)
      ∧ (∀ x ∈ s.spdm.sessions, ∀ id, id = x.id →
        (∃ t, exec (.finish id) s = .next t ∧ t = { s with host := t.host, spdm := t.spdm }
          ∧ (∀ y ∈ t.spdm.sessions, y.id = id → y.finished = true) ∧ t.spdm.sessions.length = s.spdm.sessions.length
          ∧ t.host.ideKeyed = true)
        ∧ (∃ t, exec (.keyUpdate id) s = .next t ∧ t = { s with host := t.host, spdm := t.spdm }
          ∧ { x with updates := x.updates + 1 } ∈ t.spdm.sessions)
        ∧ (∃ t, exec (.heartbeat id) s = .next t ∧ t = { s with host := t.host } ∧ t.host.answerCode = 0)
        ∧ ∃ t, exec (.endSession id) s = .next t ∧ t = { s with host := t.host, spdm := t.spdm }
          ∧ ∀ y ∈ t.spdm.sessions, y.id ≠ id))

/-- R146 to R149: integer, branch and floating-point instructions; the list of operations is PRESUMED
(notes/assumptions/24.md). -/
def Obligations.ScalarCompute : Prop :=
  ∀ (s : State) (n : Nat), s.issues n 4 →
    (∀ rd ra b, ∀ x ∈ ([(.add, fun u v => u + v), (.sub, fun u v => u - v), (.and, fun u v => u &&& v), (.or, fun u v => u ||| v),
        (.xor, fun u v => u ^^^ v), (.sll, fun u v => u <<< (v.toNat % 64)), (.srl, fun u v => u >>> (v.toNat % 64)),
        (.sra, fun u v => u.sshiftRight (v.toNat % 64)), (.seq, fun u v => if u = v then 1 else 0),
        (.slt, fun u v => if u.slt v then 1 else 0), (.sltu, fun u v => if u.ult v then 1 else 0), (.mul, fun u v => u * v),
        (.mulh, fun u v => ((u.signExtend 128 * v.signExtend 128) >>> 64).setWidth 64),
        (.mulhu, fun u v => ((u.setWidth 128 * v.setWidth 128) >>> 64).setWidth 64)] :
          List (IntFn × (Word → Word → Word))),
      ∃ t, exec (.integerOp n x.1 rd ra b) s = .next t
        ∧ s.retires t n (((s.core n).withG rd (x.2 ((s.core n).rg ra) ((s.core n).opnd b))).past 4) false noAdds)
    ∧ (∀ signed rem rd ra b, ∃ t, exec (.integerDivide n signed rem rd ra b) s = .next t
        ∧ s.retires t n (((s.core n).withG rd
            (let u := (s.core n).rg ra
             let v := (s.core n).opnd b
             if v = 0 then (if rem then u else BitVec.allOnes 64)
             else if signed = true ∧ u = BitVec.intMin 64 ∧ v = BitVec.allOnes 64 then (if rem then 0 else u)
             else if signed then (if rem then u.srem v else u.sdiv v)
             else if rem then u % v else u / v)).past 4) false noAdds)
    ∧ (∀ ra rb w, ∀ x ∈ ([(.eq ra rb w, decide ((s.core n).rg ra = (s.core n).rg rb)),
        (.ne ra rb w, decide ((s.core n).rg ra ≠ (s.core n).rg rb)), (.lt ra rb w, ((s.core n).rg ra).slt ((s.core n).rg rb)),
        (.ge ra rb w, ((s.core n).rg rb).sle ((s.core n).rg ra)), (.ltu ra rb w, ((s.core n).rg ra).ult ((s.core n).rg rb)),
        (.geu ra rb w, ((s.core n).rg rb).ule ((s.core n).rg ra))] : List (BrOp × Bool)),
      ∃ t, exec (.branch n x.1) s = .next t
        ∧ s.retires t n { s.core n with pc := if x.2 then (s.core n).pc + 4 * w else (s.core n).pc + 4 } false noAdds)
    ∧ (∀ rd w, ∃ t, exec (.branch n (.jump rd w)) s = .next t
        ∧ s.retires t n { (s.core n).withG rd ((s.core n).pc + 4) with pc := (s.core n).pc + 4 * w } false noAdds)
    ∧ (∀ rd ra o, ∃ t, exec (.branch n (.jumpReg rd ra o)) s = .next t
        ∧ s.retires t n { (s.core n).withG rd ((s.core n).pc + 4) with pc := ((s.core n).rg ra + o) &&& ~~~3#64 } false noAdds)
    ∧ (∀ f dbl rd ra rb rc, ∃ (t : State) (v : Nat) (e : Cond), exec (.scalarFpOp n (.arith f dbl rd ra rb rc)) s = .next t
        ∧ (v, e) = fpEl (scalarFn f) (if dbl then .fp64 else .fp32) (if (s.core n).frm = 4 then .rne else rmOfFrm (s.core n).frm)
            ((s.core n).fpIn dbl ra) ((s.core n).fpIn dbl rb) ((s.core n).fpIn dbl rc)
        ∧ s.retires t n { (((s.core n).withD rd (BitVec.ofNat 64 v)).past 4) with fflags := (s.core n).fflags ||| e } false noAdds)
    ∧ (∀ f dbl rd ra rb, ∃ (t : State) (v : Bool) (e : Cond), exec (.scalarFpOp n (.compare f dbl rd ra rb)) s = .next t
        ∧ (v, e) = fpCmp (scalarCmp f) (if dbl then .fp64 else .fp32) ((s.core n).fpIn dbl ra) ((s.core n).fpIn dbl rb)
        ∧ s.retires t n { (((s.core n).withG rd (if v then 1 else 0)).past 4) with fflags := (s.core n).fflags ||| e } false noAdds)
    ∧ (∀ (src dst : BitVec 4) sat rd ra,
        (∀ a b, NumFmt.ofCode src.toNat = some a → NumFmt.ofCode dst.toNat = some b → convPairOk a b = true →
          ∃ (t : State) (v : Nat) (e : Cond), exec (.scalarFpOp n (.convert src dst sat rd ra)) s = .next t
            ∧ (v, e) = a.convert b (if (s.core n).frm = 4 ∧ srDst b then
                .sr (srBits ((s.core n).rg 30) (((s.core n).rg 31 >>> 48).setWidth 16) (((s.core n).rg 31).toNat % 2 ^ 48))
                else if (s.core n).frm = 4 then .rne else rmOfFrm (s.core n).frm) sat
                ((if a.isInt then (s.core n).rg ra else (s.core n).rd ra).toNat % 2 ^ a.bits)
            ∧ ∃ w : Word, w.toNat % 2 ^ b.bits = v % 2 ^ b.bits ∧ (b.isInt = false → 32 ≤ b.bits → w = BitVec.ofNat 64 v)
              ∧ s.retires t n { ((if b.isInt then (s.core n).withG rd w else (s.core n).withD rd w).past 4) with
                  fflags := (s.core n).fflags ||| e } false noAdds)
        ∧ ((∀ a b, NumFmt.ofCode src.toNat = some a → NumFmt.ofCode dst.toNat = some b → convPairOk a b = false) →
          exec (.scalarFpOp n (.convert src dst sat rd ra)) s = exec (.exceptionTaken n .illegal) s))

/-- R152 to R157, R159: scalar memory instructions. What a core sees at a byte is State.seen (R156). That XADDR names the
address of an alignment fault is the model's reading (notes/assumptions/46.md). -/
def Obligations.ScalarMemory : Prop :=
  ∀ (s : State) (n : Nat),
    (s.sbOk n → n < 64 → s.cores.length = 64 →
      ((s.core n).sb = [] → exec (.storeDrain n) s = .next s)
      ∧ ∀ e r, (s.core n).sb = e :: r →
          (s.heldLines (s.coreWaits (e.cells.map (·.1))) ≠ [] → exec (.storeDrain n) s =
            .next ((s.heldLines (s.coreWaits (e.cells.map (·.1)))).foldl State.recallHost s))
          ∧ (s.heldLines (s.coreWaits (e.cells.map (·.1))) = [] → ∃ t, exec (.storeDrain n) s = .next t
            ∧ t = { s with cores := t.cores, mcu := t.mcu, dram := { s.dram with
                bytes := t.dram.bytes, poison := t.dram.poison, lost := t.dram.lost, nsc := t.dram.nsc, dir := t.dram.dir,
                nscClock := t.dram.nscClock, arrivals := t.dram.arrivals } }
            ∧ t.core n = { s.core n with sb := r, l1 := (t.core n).l1, priv := (t.core n).priv }
            ∧ (∀ k, k ≠ n → t.core k = { s.core k with l1 := (t.core k).l1, priv := (t.core k).priv })
            ∧ (∀ a, s.sound a → t.rdByte a = (e.at_ a).getD (s.rdByte a))
            ∧ ∀ a, e.at_ a = none → t.rdByte a = s.rdByte a))
    ∧ (s.issues n 4 → s.sbOk n → s.unheld →
      let old := fun (pas : List Nat) => leNat (pas.map (s.seen n))
      let loads := fun (o : Host.Outcome State Fault Refusal) (va len : Nat) (c : Nat → Word → Core) =>
        ∀ pas, s.coreXlate n .read (vAddrs va len) = .ok pas → s.entriesSound n (vAddrs va len) →
            (∀ a ∈ pas, s.sound a) →
          let hit := (s.core n).sb.reverse.find? (fun e => pas.any (fun a => (e.at_ a).isSome))
          let fwd := match hit with | some e => pas.all (fun a => (e.at_ a).isSome) | none => false
          ∃ (t : State) (w : Word), o = .next t ∧ w.toNat % 2 ^ (8 * len) = old pas
            ∧ s.retiresMem t n ((c (old pas) w).past 4)
                (fun i => if i = 8 then bnat fwd else if i = 7 then bnat (hit.isSome && !fwd) else 0)
            ∧ (∀ a, s.sound a → t.seen n a = s.seen n a)
            ∧ ((hit.isSome && !fwd) = false → t.dram.bytes = s.dram.bytes ∧ (t.core n).sb = (s.core n).sb)
      let stores := fun (o : Host.Outcome State Fault Refusal) (va len : Nat) (w : Word) =>
        ∀ pas, s.coreXlate n .write (vAddrs va len) = .ok pas → s.entriesSound n (vAddrs va len) → pas.Nodup →
          ∃ t, o = .next t ∧ s.retiresMem t n ((s.core n).past 4) noAdds
            ∧ (∀ (j a : Nat), pas[j]? = some a → t.seen n a = BitVec.ofNat 8 (w.toNat / 256 ^ j))
            ∧ (∀ a, a ∉ pas → s.sound a → t.seen n a = s.seen n a)
            ∧ ((s.core n).sb.length < 48 → t.dram.bytes = s.dram.bytes
              ∧ ∃ e, (t.core n).sb = (s.core n).sb ++ [e] ∧ e.vaddr = va ∧ e.size = len ∧ e.cells.map (·.1) = pas)
      let atom := fun (o : Host.Outcome State Fault Refusal) (len : Nat) (rd ra : BitVec 5) (f : Nat → Option Nat) =>
        let va := ((s.core n).rg ra).toNat
        ∀ pas q, va % len = 0 → s.coreXlate n .read (vAddrs va len) = .ok pas → s.coreXlate n .write (vAddrs va len) = .ok q →
            s.entriesSound n (vAddrs va len) → (∀ a ∈ pas, s.sound a) → pas.Nodup →
          ∃ (t : State) (w : Word), o = .next t ∧ w.toNat % 2 ^ (8 * len) = old pas
            ∧ s.retiresMem t n (((s.core n).withG rd w).past 4) noAdds ∧ (t.core n).sb = []
            ∧ (∀ (j a : Nat), pas[j]? = some a →
                t.rdByte a = match f (old pas) with | some v => BitVec.ofNat 8 (v / 256 ^ j) | none => s.seen n a)
            ∧ ∀ a, a ∉ pas → s.sound a → t.rdByte a = s.seen n a
      let misaligned := fun (o : Host.Outcome State Fault Refusal) (len : Nat) (ra : BitVec 5) =>
        ((s.core n).rg ra).toNat % len ≠ 0 →
          ∃ t, o = .next t ∧ (t.core n).xcause = 3 ∧ (t.core n).xpc = (s.core n).pc ∧ (t.core n).xaddr = (s.core n).rg ra
            ∧ (t.core n).g = (s.core n).g ∧ (t.core n).d = (s.core n).d
      (∀ (size : BitVec 2) signed fp rd ra (imm : BitVec 16),
        loads (exec (.scalarLoad n size signed fp rd ra imm) s) ((s.core n).rg ra + imm.signExtend 64).toNat (2 ^ size.toNat)
          (fun v w => if fp then (s.core n).withD rd (if size.toNat < 2 then w else BitVec.ofNat 64 v)
            else (s.core n).withG rd (if signed then BitVec.ofInt 64 (sextInt (8 * 2 ^ size.toNat) v) else BitVec.ofNat 64 v)))
      ∧ (∀ (size : BitVec 2) fp rb ra (imm : BitVec 16),
        stores (exec (.scalarStore n size fp rb ra imm) s) ((s.core n).rg ra + imm.signExtend 64).toNat (2 ^ size.toNat)
          (if fp then (s.core n).rd rb else (s.core n).rg rb))
      ∧ ∀ rd ra rb,
        let va := ((s.core n).rg ra).toNat
        let b4 := ((s.core n).rg rb).toNat % 2 ^ 32
        let b8 := ((s.core n).rg rb).toNat
        let c4 := ((s.core n).rg rd).toNat % 2 ^ 32
        let c8 := ((s.core n).rg rd).toNat
        (va % 4 = 0 → loads (exec (.ldaqW n rd ra) s) va 4 (fun _ w => (s.core n).withG rd w))
        ∧ (va % 8 = 0 → loads (exec (.ldaqD n rd ra) s) va 8 (fun _ w => (s.core n).withG rd w))
        ∧ (va % 4 = 0 → stores (exec (.strlW n ra rb) s) va 4 ((s.core n).rg rb))
        ∧ (va % 8 = 0 → stores (exec (.strlD n ra rb) s) va 8 ((s.core n).rg rb))
        ∧ atom (exec (.amoaddW n rd ra rb) s) 4 rd ra (fun o => some ((o + b4) % 2 ^ 32))
        ∧ atom (exec (.amoaddD n rd ra rb) s) 8 rd ra (fun o => some ((o + b8) % 2 ^ 64))
        ∧ atom (exec (.amoswapW n rd ra rb) s) 4 rd ra (fun _ => some b4)
        ∧ atom (exec (.amoswapD n rd ra rb) s) 8 rd ra (fun _ => some b8)
        ∧ atom (exec (.amocasW n rd ra rb) s) 4 rd ra (fun o => if o = c4 then some b4 else none)
        ∧ atom (exec (.amocasD n rd ra rb) s) 8 rd ra (fun o => if o = c8 then some b8 else none)
        ∧ misaligned (exec (.ldaqW n rd ra) s) 4 ra ∧ misaligned (exec (.ldaqD n rd ra) s) 8 ra
        ∧ misaligned (exec (.strlW n ra rb) s) 4 ra ∧ misaligned (exec (.strlD n ra rb) s) 8 ra
        ∧ misaligned (exec (.amoaddW n rd ra rb) s) 4 ra ∧ misaligned (exec (.amoaddD n rd ra rb) s) 8 ra
        ∧ misaligned (exec (.amoswapW n rd ra rb) s) 4 ra ∧ misaligned (exec (.amoswapD n rd ra rb) s) 8 ra
        ∧ misaligned (exec (.amocasW n rd ra rb) s) 4 ra ∧ misaligned (exec (.amocasD n rd ra rb) s) 8 ra)

/-- R151, R158, R166, R169. What MTSR of a read-only number and of an FRM code above 4 does is the model's reading
(notes/assumptions/47.md). -/
def Obligations.SystemRegisters : Prop :=
  ∀ (s : State) (n : Nat), s.issues n 4 →
    let c := s.core n
    let gang : Nat := if (s.machineOf n).length = 2 then 1 else if (s.machineOf n).length = 4 then 2 else 0
    (∀ rd, ∀ x ∈ ([(1, c.fflags.setWidth 64), (2, c.frm.setWidth 64), (3, c.vec.vxr.setWidth 64), (0x10, BitVec.ofNat 64 c.ctx),
        (0x11, BitVec.ofNat 64 (n + 256 * gang))] : List (BitVec 12 × Word)),
      ∃ t, exec (.mfsr n rd x.1) s = .next t ∧ s.retires t n ((c.withG rd x.2).past 4) false noAdds)
    ∧ (∀ rd i, i < 16 → ∃ t, exec (.mfsr n rd (BitVec.ofNat 12 (0x100 + i))) s = .next t
        ∧ s.retires t n ((c.withG rd (c.pmc.getD i 0)).past 4) false noAdds)
    ∧ (∀ rd ra, ∀ x ∈ ([(0x800, c.xcause, fun v => { c with xcause := v }), (0x801, c.xpc, fun v => { c with xpc := v }),
        (0x802, c.xaddr, fun v => { c with xaddr := v }), (0x803, c.xinfo, fun v => { c with xinfo := v }),
        (0x804, c.sscratch, fun v => { c with sscratch := v })] : List (BitVec 12 × Word × (Word → Core))),
      (c.steward = true →
        (∃ t, exec (.mfsr n rd x.1) s = .next t ∧ s.retires t n ((c.withG rd x.2.1).past 4) false noAdds)
        ∧ ∃ t, exec (.mtsr n ra x.1) s = .next t ∧ s.retires t n ((x.2.2 (c.rg ra)).past 4) false noAdds)
      ∧ (c.steward = false → exec (.mfsr n rd x.1) s = exec (.exceptionTaken n .privilege) s
        ∧ exec (.mtsr n ra x.1) s = exec (.exceptionTaken n .privilege) s))
    ∧ (∀ ra,
      (∃ t, exec (.mtsr n ra 1) s = .next t ∧ s.retires t n ({ c with fflags := (c.rg ra).setWidth 5 }.past 4) false noAdds)
      ∧ (((c.rg ra).setWidth 3 : BitVec 3).toNat ≤ 4 → ∃ t, exec (.mtsr n ra 2) s = .next t
          ∧ s.retires t n ({ c with frm := (c.rg ra).setWidth 3 }.past 4) false noAdds)
      ∧ (4 < ((c.rg ra).setWidth 3 : BitVec 3).toNat → exec (.mtsr n ra 2) s = exec (.exceptionTaken n .illegal) s)
      ∧ (∃ t, exec (.mtsr n ra 3) s = .next t
          ∧ s.retires t n ({ c with vec := { c.vec with vxr := (c.rg ra).setWidth 7 } }.past 4) false noAdds)
      ∧ ∀ k : BitVec 12, (k = 0x10 ∨ k = 0x11 ∨ 0x100 ≤ k.toNat ∧ k.toNat < 0x110) →
          ∃ t, exec (.mtsr n ra k) s = .next t ∧ s.retires t n (c.past 4) false noAdds)
    ∧ (∀ rd ra (k : BitVec 12), k = 0 ∨ 3 < k.toNat ∧ k.toNat < 0x10 ∨ 0x11 < k.toNat ∧ k.toNat < 0x100
          ∨ 0x10F < k.toNat ∧ k.toNat < 0x800 ∨ 0x804 < k.toNat →
        exec (.mfsr n rd k) s = exec (.exceptionTaken n .illegal) s ∧ exec (.mtsr n ra k) s = exec (.exceptionTaken n .illegal) s)
    ∧ (∃ t, exec (.fenceLl n) s = .next t ∧ s.retires t n (c.past 4) false noAdds)
    ∧ (∃ t, exec (.fenceSs n) s = .next t ∧ s.retires t n (c.past 4) false noAdds)
    ∧ (s.sbOk n → s.unheld →
      let drains := fun (o : Host.Outcome State Fault Refusal) (adds : Nat → Nat) =>
        ∃ t, o = .next t ∧ s.retiresMem t n (c.past 4) adds ∧ (t.core n).sb = []
          ∧ ∀ a, s.sound a → t.rdByte a = s.seen n a
      drains (exec (.fenceFull n) s) noAdds
      ∧ drains (exec (.isync n) s) (fun i => if i = 14 then 1 else 0)
      ∧ (s.unitsIdle n → drains (exec (.fenceEng n) s) noAdds ∧ (s.host.bisnp = [] → drains (exec (.fenceDev n) s) noAdds))
      ∧ (¬s.unitsIdle n → exec (.fenceEng n) s = .next (s.fetched n 4) ∧ exec (.fenceDev n) s = .next (s.fetched n 4))
      ∧ (s.unitsIdle n → s.host.bisnp ≠ [] → ∃ t, exec (.fenceDev n) s = .next t ∧ t.host = s.host ∧ (t.core n).sb = []
          ∧ t.core n = { c with sb := [], l1 := (t.core n).l1, priv := (t.core n).priv }
          ∧ ∀ a, s.sound a → t.rdByte a = s.seen n a))

/-- R161, R162, R164, R170, R286. -/
def Obligations.CoreExceptions : Prop :=
  ∀ (s : State) (n : Nat),
    let c := s.core n
    let taken := fun (o : Host.Outcome State Fault Refusal) (cause : Word) =>
      ∃ t, o = .next t ∧ (t.core n).xcause = cause ∧ (t.core n).xpc = c.pc ∧ (t.core n).xaddr = 0 ∧ (t.core n).xinfo = 0
        ∧ (t.core n).g = c.g ∧ (t.core n).d = c.d ∧ (t.core n).vec = c.vec ∧ (t.core n).fflags = c.fflags
        ∧ (t.core n).frm = c.frm ∧ (t.core n).sscratch = c.sscratch ∧ t.host.mem = s.host.mem ∧ t.xlt.win = s.xlt.win
        ∧ ((∀ k ∈ s.machineOf n, (s.core k).mx.jobs = []) → s.unheld → (t.core n).deliver = none ∧ (t.core n).run = .idle)
    (s.issues n 4 →
      taken (exec (.exceptionTaken n .illegal) s) 1
      ∧ (c.steward = false → taken (exec (.exceptionTaken n .privilege) s) 2
        ∧ exec (.xret n) s = exec (.exceptionTaken n .privilege) s)
      ∧ (c.steward = true → exec (.exceptionTaken n .privilege) s = .next s
        ∧ ∃ t, exec (.xret n) s = .next t ∧ s.retires t n { c with steward := false, pc := c.xpc } false noAdds)
      ∧ (¬s.unitsIdle n → exec (.halt n) s = .next (s.fetched n 4))
      ∧ (s.unitsIdle n → s.sbOk n → s.unheld → ∃ t, exec (.halt n) s = .next t ∧ (t.core n).run = .idle ∧ (t.core n).ctxValid = false
        ∧ ((t.core n).work = .none ∨ (t.core n).work = .patrol) ∧ (t.core n).sb = [] ∧ (t.core n).steward = false
        ∧ (t.core n).g = c.g ∧ (t.core n).d = c.d ∧ (t.core n).vec = c.vec ∧ (t.core n).pmc = List.replicate 16 0
        ∧ t.host.mem = s.host.mem ∧ t.xlt.win = s.xlt.win ∧ ∀ a, s.sound a → t.rdByte a = s.seen n a))
    ∧ (c.deliver = none →
      exec (.exceptionTaken n .delivered) s = .next s ∧ exec (.abortTaken n) s = .next s ∧ exec (.killTaken n) s = .next s)
    ∧ (n < 64 → s.cores.length = 64 → c.ending = false → c.work ≠ .none →
      (∀ d, c.deliver = some d →
        (d.cause = 7 → d.addr = 0 → d.info = 0 → taken (exec (.abortTaken n) s) 7 ∧ exec (.killTaken n) s = .next s)
        ∧ (d.cause = 8 → d.addr = 0 → d.info = 0 → taken (exec (.killTaken n) s) 8 ∧ exec (.abortTaken n) s = .next s)
        ∧ (d.cause = 3 ∨ d.cause = 5 → ∃ t, exec (.exceptionTaken n .delivered) s = .next t
          ∧ (t.core n).xcause = BitVec.ofNat 64 d.cause ∧ (t.core n).xpc = c.pc ∧ (t.core n).xaddr = d.addr
          ∧ (t.core n).xinfo = d.info ∧ (t.core n).g = c.g ∧ (t.core n).d = c.d)))
    ∧ (n < 64 → s.cores.length = 64 → s.serves (.core n) →
      ∃ t, exec (.pmcReset n) s = .next t ∧ t = { s with cores := t.cores } ∧ t.core n = { c with pmc := List.replicate 16 0 }
        ∧ ∀ k, k ≠ n → t.core k = s.core k)

/-- R176: the configuration instructions. -/
def Obligations.VectorConfig : Prop :=
  ∀ (s : State) (n : Nat), s.issues n 4 →
    let c := s.core n
    (∀ rd ra (sew : BitVec 2),
      let vl := min (c.rg ra).toNat (4096 * s.gang n / 2 ^ sew.toNat)
      s.vsets n (exec (.setvl n rd ra sew) s)
        ({ c with vec := { c.vec with vl := vl, sew := sew.toNat } }.withG rd (BitVec.ofNat 64 vl)))
    ∧ (∀ rd (sew : BitVec 2) (imm : BitVec 12),
      let vl := min imm.toNat (4096 * s.gang n / 2 ^ sew.toNat)
      s.vsets n (exec (.setvli n rd sew imm) s)
        ({ c with vec := { c.vec with vl := vl, sew := sew.toNat } }.withG rd (BitVec.ofNat 64 vl)))
    ∧ ∀ rd, s.vecOk n → ∃ v : Word, s.vsets n (exec (.getvl n rd) s) (c.withG rd v)
        ∧ (v.setWidth 15).toNat = c.vec.vl ∧ ((v >>> 16).setWidth 2).toNat = c.vec.sew
        ∧ ((v >>> 32).setWidth 15).toNat = 4096 * s.gang n / 2 ^ c.vec.sew
        ∧ ∀ i, i = 15 ∨ 18 ≤ i ∧ i < 32 ∨ 47 ≤ i → v.getLsbD i = false

/-- R179, R182, R184, R186, R195, R198. -/
def Obligations.VectorInteger : Prop :=
  (∀ w : BitVec 32,
    (majorOf w < 0x20 ∨ 0x2F < majorOf w ∨ majorOf w = 0x2A ∨ majorOf w = 0x2B → ∀ i : Instr, i.inVector w = false)
    ∧ (majorOf w = 0x21 →
      (0x12 < fnOf w → ∀ i : Instr, i.inVector w = false)
      ∧ ∀ (n : Nat) (x : VecWord), ((Instr.vadd n x).inVector w = true ↔ fnOf w = 0x00 ∧ x = .of w)
        ∧ ((Instr.vmin n x).inVector w = true ↔ fnOf w = 0x05 ∧ x = .of w)
        ∧ ((Instr.vid n x).inVector w = true ↔ fnOf w = 0x12 ∧ x = .of w)))
  ∧ ∀ (s : State) (n : Nat) (w : VecWord), s.issues n 4 → s.vecOk n →
    let c := s.core n
    let x := c.vec
    let esz := 2 ^ x.sew
    let b := 8 * esz
    let a := fun i => x.el esz w.va.toNat i
    let ill := exec (.exceptionTaken n .illegal) s
    let ew := fun (o : Host.Outcome State Fault Refusal) (f : Nat → Nat × BitVec 7) =>
      s.vgives n o (fun y => x.mapped y esz w.vd w.pm w.z f)
    let int := fun (o : Host.Outcome State Fault Refusal) (f : BitVec b → BitVec b → BitVec b → BitVec b) =>
      (w.alt = true → o = ill) ∧ (w.alt = false → ew o (fun i =>
        ((f (BitVec.ofNat b (a i)) (BitVec.ofNat b (if w.s then (c.rg w.vb).toNat else x.el esz w.vb.toNat i))
          (BitVec.ofNat b (x.el esz w.vd.toNat i))).toNat, 0)))
    let sat := fun (o : Host.Outcome State Fault Refusal) (f : Int → Int → Int) =>
      (w.alt = true → o = ill) ∧ (w.alt = false → ew o (fun i =>
        let e := f (BitVec.ofNat b (a i)).toInt
          (BitVec.ofNat b (if w.s then (c.rg w.vb).toNat else x.el esz w.vb.toNat i)).toInt
        ((BitVec.ofInt b (max (-(2 ^ (b - 1) : Int)) (min (2 ^ (b - 1) - 1) e))).toNat,
          if e < -(2 ^ (b - 1) : Int) ∨ (2 ^ (b - 1) : Int) ≤ e then 32 else 0)))
    let perm := fun (o : Host.Outcome State Fault Refusal) (ok : Bool) (f : Nat → Nat × BitVec 7) =>
      (ok = false → o = ill) ∧ (ok = true → ew o f)
    let at_ := fun (k : Nat) => if k < x.vl then (a k, (0 : BitVec 7)) else (0, 64)
    let k := (c.rg w.vb).toNat
    let d := k % 2 ^ b
    int (exec (.vadd n w) s) (fun p q _ => p + q) ∧ int (exec (.vsub n w) s) (fun p q _ => p - q)
    ∧ int (exec (.vmul n w) s) (fun p q _ => p * q)
    ∧ int (exec (.vmulh n w) s) (fun p q _ => ((p.signExtend (2 * b) * q.signExtend (2 * b)) >>> b).setWidth b)
    ∧ int (exec (.vmulhu n w) s) (fun p q _ => ((p.setWidth (2 * b) * q.setWidth (2 * b)) >>> b).setWidth b)
    ∧ int (exec (.vmin n w) s) (fun p q _ => if q.slt p then q else p)
    ∧ int (exec (.vmax n w) s) (fun p q _ => if p.slt q then q else p)
    ∧ int (exec (.vminu n w) s) (fun p q _ => if q.ult p then q else p)
    ∧ int (exec (.vmaxu n w) s) (fun p q _ => if p.ult q then q else p)
    ∧ int (exec (.vand n w) s) (fun p q _ => p &&& q) ∧ int (exec (.vor n w) s) (fun p q _ => p ||| q)
    ∧ int (exec (.vxor n w) s) (fun p q _ => p ^^^ q) ∧ int (exec (.vsll n w) s) (fun p q _ => p <<< (q.toNat % b))
    ∧ int (exec (.vsrl n w) s) (fun p q _ => p >>> (q.toNat % b))
    ∧ int (exec (.vsra n w) s) (fun p q _ => p.sshiftRight (q.toNat % b))
    ∧ sat (exec (.vsadd n w) s) (fun p q => p + q) ∧ sat (exec (.vssub n w) s) (fun p q => p - q)
    ∧ int (exec (.vmacc n w) s) (fun p q d => d + p * q)
    ∧ perm (exec (.vid n w) s) (!w.alt && decide (w.va = 0) && decide (w.vb = 0)) (fun i => (i, 0))
    ∧ perm (exec (.vperm n w) s) (!w.alt && !w.s) (fun i => at_ (x.el esz w.vb.toNat i))
    ∧ perm (exec (.vbcaste n w) s) (!w.alt && w.s) (fun _ => at_ d)
    ∧ perm (exec (.vslidedn n w) s) (!w.alt && w.s) (fun i => (if i + d < x.vl then a (i + d) else 0, 0))
    ∧ perm (exec (.vslideup n w) s) (!w.alt && w.s) (fun i => (if d ≤ i then a (i - d) else x.el esz w.vd.toNat i, 0))
    ∧ perm (exec (.vrev n w) s) (!w.alt && !w.s && decide (w.vb = 0)) (fun i => (a (x.vl - 1 - i), 0))
    ∧ perm (exec (.vexpand n w) s) (!w.alt && !w.s && decide (w.vb = 0))
        (fun i => (a ((List.range i).countP (x.active w.pm.toNat)), 0))
    ∧ perm (exec (.vmv n w) s) (!w.alt) (fun i => (a i, 0))
    ∧ perm (exec (.vbcast n w) s) (!w.alt && w.s) (fun _ => (k, 0))
    ∧ (if w.alt || w.s || w.z || decide (w.vb ≠ 0) then exec (.vcompress n w) s = ill
      else s.vgives n (exec (.vcompress n w) s) (fun y => x.mapped y esz w.vd 0 false (fun i =>
        ((((List.range x.vl).filter (x.active w.pm.toNat)).map a).getD i 0, 0))))
    ∧ (if w.alt || w.z || decide (w.pm ≠ 0) then exec (.vgetx n w) s = ill ∧ exec (.vgetf n w) s = ill
      else
        let c1 : Core := { c with vec := { x with vxr := x.vxr ||| (at_ k).2 } }
        s.vsets n (exec (.vgetx n w) s) (c1.withG w.vd (BitVec.ofNat 64 (at_ k).1))
        ∧ s.vsets n (exec (.vgetf n w) s) (c1.withD w.vd (BitVec.ofNat 64 (at_ k).1)))
    ∧ (if w.z || decide (w.pm ≠ 0) then exec (.vput n w) s = ill
      else s.vgives n (exec (.vput n w) s) (fun y => y = { x with v := y.v }
        ∧ (x.vl ≤ k → y.v = x.v)
        ∧ (k < x.vl → y.el esz w.vd.toNat k = (if w.alt then c.rd w.va else c.rg w.va).toNat % 2 ^ b
          ∧ ∀ p, p < 16384 * w.vd.toNat + k * esz ∨ 16384 * w.vd.toNat + k * esz + esz ≤ p → y.v.read p = x.v.read p)))

/-- R183, R184, R187 to R189, R196, R197. -/
def Obligations.VectorFloat : Prop :=
  ∀ (s : State) (n : Nat), s.issues n 4 → s.vecOk n →
    let c := s.core n
    let x := c.vec
    let esz := 2 ^ x.sew
    let ill := exec (.exceptionTaken n .illegal) s
    let rm : Rm := if c.frm = 4 then .rne else rmOfFrm c.frm
    (∀ w : VecWord,
      let F : FpFmt := if x.sew = 1 then (if w.alt then .bf16 else .fp16) else if x.sew = 2 then .fp32 else .fp64
      let bOf := fun (sz : Nat) (r : Word) i => if w.s then r.toNat % 2 ^ (8 * sz) else x.el sz w.vb.toNat i
      let fp := fun (o : Host.Outcome State Fault Refusal) (unary : Bool) (f : Nat → Nat → Nat → Nat × Cond) =>
        if x.sew = 0 ∨ (w.alt = true ∧ x.sew ≠ 1) ∨ (unary = true ∧ (w.vb ≠ 0 ∨ w.s = true)) then o = ill
        else s.vgives n o (fun y => x.mapped y esz w.vd w.pm w.z (fun i =>
          let r := f (x.el esz w.va.toNat i) (bOf esz (c.rd w.vb) i) (x.el esz w.vd.toNat i)
          (r.1, r.2.setWidth 7)))
      let dot := fun (o : Host.Outcome State Fault Refusal) (fn : VDotFn) =>
        if x.sew ≠ 2 ∨ (w.alt = true ∧ fn ≠ .h) then o = ill
        else s.vgives n o (fun y => x.mapped y 4 w.vd w.pm w.z (fun i =>
          let r := vDotEl fn w.alt (x.el 4 w.va.toNat i) (bOf 4 (if fn = .i8 then c.rg w.vb else c.rd w.vb) i) (x.el 4 w.vd.toNat i)
          (r.1, r.2.setWidth 7)))
      let wide := fun (o : Host.Outcome State Fault Refusal) (pa : Bool) (f : FpFmt → Nat → Nat → Nat → Nat × Cond) =>
        if (x.sew ≠ 1 ∧ x.sew ≠ 2) ∨ (w.alt = true ∧ x.sew = 2) ∨ w.vd.getLsbD 0 = true ∨ (pa = true ∧ w.va.getLsbD 0 = true)
        then o = ill
        else s.vgives n o (fun y => x.mappedPair y (s.gang n) (2 * esz) w.vd w.pm w.z (fun i =>
          let r := f (if x.sew = 1 then .fp32 else .fp64)
            (if pa then x.elPair (s.gang n) (2 * esz) w.va.toNat i else x.el esz w.va.toNat i) (bOf esz (c.rd w.vb) i)
            (x.elPair (s.gang n) (2 * esz) w.vd.toNat i)
          (r.1, r.2.setWidth 7)))
      fp (exec (.vfadd n w) s) false (fun a b _ => F.sum rm false [F.decode a, F.decode b])
      ∧ fp (exec (.vfsub n w) s) false (fun a b _ => F.sum rm false [F.decode a, (F.decode b).neg])
      ∧ fp (exec (.vfmul n w) s) false (fun a b _ => F.mul rm (F.decode a) (F.decode b))
      ∧ fp (exec (.vfdiv n w) s) false (fun a b _ => F.div rm (F.decode a) (F.decode b) a b)
      ∧ fp (exec (.vfsqrt n w) s) true (fun a _ _ => F.sqrt rm (F.decode a))
      ∧ fp (exec (.vfrec n w) s) true (fun a _ _ => F.recip rm (F.decode a))
      ∧ fp (exec (.vfrsqrt n w) s) true (fun a _ _ => F.rsqrt rm (F.decode a))
      ∧ fp (exec (.vfmin n w) s) false (fun a b _ => F.minMax false a b)
      ∧ fp (exec (.vfmax n w) s) false (fun a b _ => F.minMax true a b)
      ∧ fp (exec (.vfabs n w) s) true (fun a _ _ => (fpWithSign F a false, 0))
      ∧ fp (exec (.vfneg n w) s) true (fun a _ _ => (fpWithSign F a (!a.testBit (8 * esz - 1)), 0))
      ∧ fp (exec (.vfsgnj n w) s) false (fun a b _ => (fpWithSign F a (b.testBit (8 * esz - 1)), 0))
      ∧ fp (exec (.vfma n w) s) false (fun a b d => F.sum rm true [(F.decode a).mul (F.decode b), F.decode d])
      ∧ fp (exec (.vfms n w) s) false (fun a b d => F.sum rm true [(F.decode a).mul (F.decode b), (F.decode d).neg])
      ∧ fp (exec (.vfnma n w) s) false (fun a b d => F.sum rm true [((F.decode a).mul (F.decode b)).neg, F.decode d])
      ∧ fp (exec (.vfnms n w) s) false (fun a b d => F.sum rm true [((F.decode a).mul (F.decode b)).neg, (F.decode d).neg])
      ∧ wide (exec (.vfwmul n w) s) false (fun W a b _ => W.mul rm (F.decode a) (F.decode b))
      ∧ wide (exec (.vfwma n w) s) false (fun W a b d => W.sum rm true [(F.decode a).mul (F.decode b), W.decode d])
      ∧ wide (exec (.vfwadd n w) s) false (fun W a b _ => W.sum rm false [F.decode a, F.decode b])
      ∧ wide (exec (.vfwaddw n w) s) true (fun W a b _ => W.sum rm false [W.decode a, F.decode b])
      ∧ dot (exec (.vdot4I8 n w) s) .i8 ∧ dot (exec (.vdot2H n w) s) .h ∧ dot (exec (.vdot4E4m3 n w) s) .e4m3
      ∧ dot (exec (.vdot4E5m2 n w) s) .e5m2 ∧ dot (exec (.vdot4E4e5 n w) s) .e4e5)
    ∧ ∀ w : ConvWord,
      (∀ a b, NumFmt.ofCode w.src.toNat = some a → NumFmt.ofCode w.dst.toNat = some b →
        let f := fun (i : Nat) =>
          let r := a.convert b (if w.sr then
              .sr (srBits (c.rg 30) ((c.rg 31 >>> 48).setWidth 16) ((c.rg 31).toNat % 2 ^ 48 + i)) else rm)
            w.sat (x.el (a.bits / 8) w.va.toNat i)
          (r.1, r.2.setWidth 7)
        if convPairOk a b = false ∨ w.rsv ≠ 0 ∨ 8 * esz ≠ a.bits ∨ (w.sr = true ∧ srDst b = false)
            ∨ (a.bits < b.bits ∧ w.vd.getLsbD 0 = true) then exec (.vectorConversion n w) s = ill
        else if a.bits < b.bits then
          s.vgives n (exec (.vectorConversion n w) s) (fun y => x.mappedPair y (s.gang n) (b.bits / 8) w.vd w.pm w.z f)
        else s.vgives n (exec (.vectorConversion n w) s) (fun y => x.mapped y (b.bits / 8) w.vd w.pm w.z f))
      ∧ (NumFmt.ofCode w.src.toNat = none ∨ NumFmt.ofCode w.dst.toNat = none → exec (.vectorConversion n w) s = ill)

/-- R180, R190 to R194. -/
def Obligations.VectorReduce : Prop :=
  ∀ (s : State) (n : Nat) (w : VecWord), s.issues n 4 → s.vecOk n →
    let c := s.core n
    let x := c.vec
    let esz := 2 ^ x.sew
    let b := 8 * esz
    let ill := exec (.exceptionTaken n .illegal) s
    let rm : Rm := if c.frm = 4 then .rne else rmOfFrm c.frm
    let F : FpFmt := if x.sew = 1 then (if w.alt then .bf16 else .fp16) else if x.sew = 2 then .fp32 else .fp64
    let badFp : Prop := x.sew = 0 ∨ (w.alt = true ∧ x.sew ≠ 1)
    let av := fun i => x.el esz w.va.toNat i
    let bi := fun i => if w.s then (c.rg w.vb).toNat % 2 ^ b else x.el esz w.vb.toNat i
    let bf := fun i => if w.s then (c.rd w.vb).toNat % 2 ^ b else x.el esz w.vb.toNat i
    let act := x.active w.pm.toNat
    let sgn := fun (v : Nat) => (BitVec.ofNat b v).toInt
    let noE : Nat → Nat × BitVec 7 := fun _ => (0, 0)
    let cmp := fun (o : Host.Outcome State Fault Refusal) (f : Nat → Nat → Bool) =>
      if w.alt = true ∨ 8 ≤ w.vd.toNat then o = ill
      else s.vgives n o (fun y => x.predSet y w.vd w.pm (fun i => f (av i) (bi i)) noE)
    let nan := fun i => (F.decode (av i)).isNan || (F.decode (bf i)).isNan
    let fcmp := fun (o : Host.Outcome State Fault Refusal) (f : FpVal → FpVal → Bool) (un : Bool) =>
      if badFp ∨ 8 ≤ w.vd.toNat then o = ill
      else s.vgives n o (fun y => x.predSet y w.vd w.pm
        (fun i => if nan i then un else f (F.decode (av i)) (F.decode (bf i))) (fun i => (0, if nan i then 16 else 0)))
    let plog := fun (o : Host.Outcome State Fault Refusal) (ok : Bool) (f : Bool → Bool → Bool) =>
      if w.alt = true ∨ w.s = true ∨ 8 ≤ w.vd.toNat ∨ 8 ≤ w.va.toNat ∨ 8 ≤ w.vb.toNat ∨ ok = false then o = ill
      else s.vgives n o (fun y => x.predSet y w.vd w.pm (fun i => f (x.pbit w.va.toNat i) (x.pbit w.vb.toNat i)) noE)
    let pbad : Prop := w.alt = true ∨ w.s = true ∨ w.z = true ∨ w.vb ≠ 0 ∨ 8 ≤ w.va.toNat
    let hitAt := fun i => act i && x.pbit w.va.toNat i
    let term := fun i => if act i then (some (av i), (0 : Cond)) else (none, 0)
    let deNan := fun (t : Option Nat × Cond) =>
      match t.1 with
      | some v => if (F.decode v).isNan then (some F.nanBits, t.2 ||| (16 : Cond)) else t
      | none => t
    let one := fun (y : Vec) (v : Nat) (e : Cond) =>
      y = { x with v := y.v, vxr := x.vxr ||| e.setWidth 7 } ∧ y.el esz w.vd.toNat 0 = v % 2 ^ b
        ∧ ∀ p, p < 16384 * w.vd.toNat ∨ 16384 * w.vd.toNat + esz ≤ p → y.v.read p = x.v.read p
    let redI := fun (o : Host.Outcome State Fault Refusal) (f : Nat → Nat → Nat) =>
      if w.alt = true ∨ w.z = true then o = ill
      else s.vgives n o (fun y => one y (((List.range x.vl).filter act).foldl (fun r i => f r (av i)) (bi 0)) 0)
    let redF := fun (o : Host.Outcome State Fault Refusal) (op : Nat → Nat → Nat × Cond) =>
      if badFp ∨ w.z = true then o = ill
      else s.vgives n o (fun y =>
        let r := optOp op (deNan (some (bf 0), 0)) (if x.vl = 0 then (none, 0) else treeLoop op x.vl x.vl 1 (fun i => deNan (term i)))
        one y (r.1.getD 0) r.2)
    let scan := fun (o : Host.Outcome State Fault Refusal) (bad : Prop) (at_ : Nat → Option Nat × Cond)
        (op : Nat → Nat → Nat × Cond) (ident : Nat) =>
      (bad ∨ w.z = true ∨ 8 ≤ w.vb.toNat → o = ill)
      ∧ (¬(bad ∨ w.z = true ∨ 8 ≤ w.vb.toNat) → s.vgives n o (fun y =>
        let v := scanLoop op x.vl x.vl 1 at_ (fun i => decide (i = 0) || x.pbit w.vb.toNat i)
        x.mapped y esz w.vd 0 false (fun i => ((v i).1.getD ident, (v i).2.setWidth 7))))
    cmp (exec (.vcmpeq n w) s) (fun p q => decide (p = q)) ∧ cmp (exec (.vcmpne n w) s) (fun p q => decide (p ≠ q))
    ∧ cmp (exec (.vcmplt n w) s) (fun p q => decide (sgn p < sgn q)) ∧ cmp (exec (.vcmple n w) s) (fun p q => decide (sgn p ≤ sgn q))
    ∧ cmp (exec (.vcmpltu n w) s) (fun p q => decide (p < q)) ∧ cmp (exec (.vcmpleu n w) s) (fun p q => decide (p ≤ q))
    ∧ fcmp (exec (.vfcmpeq n w) s) FpVal.eq false ∧ fcmp (exec (.vfcmpne n w) s) (fun p q => !p.eq q) true
    ∧ fcmp (exec (.vfcmplt n w) s) FpVal.lt false ∧ fcmp (exec (.vfcmple n w) s) (fun p q => p.lt q || p.eq q) false
    ∧ fcmp (exec (.vfcmpun n w) s) (fun _ _ => false) true
    ∧ plog (exec (.pAnd n w) s) true (fun p q => p && q) ∧ plog (exec (.pOr n w) s) true (fun p q => p || q)
    ∧ plog (exec (.pXor n w) s) true (fun p q => p != q) ∧ plog (exec (.pAndn n w) s) true (fun p q => p && !q)
    ∧ plog (exec (.pNot n w) s) (decide (w.vb = 0)) (fun p _ => !p)
    ∧ plog (exec (.pSet n w) s) (decide (w.va = 0) && decide (w.vb = 0)) (fun _ _ => true)
    ∧ (pbad → exec (.pcnt n w) s = ill ∧ exec (.pfirst n w) s = ill)
    ∧ (¬pbad → s.vsets n (exec (.pcnt n w) s) (c.withG w.vd (BitVec.ofNat 64 ((List.range x.vl).countP hitAt)))
      ∧ ∃ k, s.vsets n (exec (.pfirst n w) s) (c.withG w.vd (BitVec.ofNat 64 k)) ∧ k ≤ x.vl
        ∧ (∀ i, i < k → hitAt i = false) ∧ (k < x.vl → hitAt k = true))
    ∧ redI (exec (.vredsum n w) s) (fun p q => (p + q) % 2 ^ b)
    ∧ redI (exec (.vredmin n w) s) (fun p q => if sgn q < sgn p then q else p)
    ∧ redI (exec (.vredmax n w) s) (fun p q => if sgn p < sgn q then q else p)
    ∧ redI (exec (.vredminu n w) s) min ∧ redI (exec (.vredmaxu n w) s) max
    ∧ redF (exec (.vfredsum n w) s) (fun p q => F.sum rm false [F.decode p, F.decode q])
    ∧ redF (exec (.vfredmin n w) s) (F.minMax false) ∧ redF (exec (.vfredmax n w) s) (F.minMax true)
    ∧ (if badFp ∨ w.z = true then exec (.vfredosum n w) s = ill
      else s.vgives n (exec (.vfredosum n w) s) (fun y =>
        let r := ((List.range x.vl).filter act).foldl (fun (r : Nat × Cond) i =>
          let a := deNan (some (av i), 0)
          let q := F.sum rm false [F.decode r.1, F.decode (a.1.getD 0)]
          (q.1, r.2 ||| a.2 ||| q.2)) ((deNan (some (bf 0), 0)).1.getD 0, (deNan (some (bf 0), 0)).2)
        one y r.1 r.2))
    ∧ scan (exec (.vscansum n w) s) (w.alt = true) term (fun p q => ((p + q) % 2 ^ b, 0)) 0
    ∧ scan (exec (.vscanmin n w) s) (w.alt = true) term (fun p q => (if sgn q < sgn p then q else p, 0)) (2 ^ (b - 1) - 1)
    ∧ scan (exec (.vscanmax n w) s) (w.alt = true) term (fun p q => (if sgn p < sgn q then q else p, 0)) (2 ^ (b - 1))
    ∧ scan (exec (.vfscansum n w) s) badFp (fun i => deNan (term i)) (fun p q => F.sum rm false [F.decode p, F.decode q]) 0
    ∧ scan (exec (.vfscanmin n w) s) badFp (fun i => deNan (term i)) (F.minMax false) (F.infBits false)
    ∧ scan (exec (.vfscanmax n w) s) badFp (fun i => deNan (term i)) (F.minMax true) (F.infBits true)

/-- R208, R209, R211, R216, R219, R220, R223. -/
def Obligations.VectorMemory : Prop :=
  (∀ (w : BitVec 32) (n : Nat) (x : MemWord),
    let f : MemWord := ⟨w.extractLsb' 21 5, w.extractLsb' 16 5, w.extractLsb' 11 5, w.extractLsb' 8 3, w.getLsbD 7,
      w.extractLsb' 3 2, w.getLsbD 2, decide (w.extractLsb' 0 2 ≠ 0)⟩
    ((Instr.vldff n x).inVector w = true ↔ majorOf w = 0x2C ∧ w.getLsbD 6 = true
        ∧ x = { f with mbz := f.mbz || w.getLsbD 5 })
    ∧ ((Instr.vlds n x).inVector w = true ↔ majorOf w = 0x2E ∧ w.getLsbD 5 = false ∧ w.getLsbD 6 = false ∧ x = f)
    ∧ ((Instr.vgathff n x).inVector w = true ↔ majorOf w = 0x2E ∧ w.getLsbD 5 = true ∧ w.getLsbD 6 = true ∧ x = f)
    ∧ ((Instr.vscat n x).inVector w = true ↔ majorOf w = 0x2F ∧ w.getLsbD 5 = true
        ∧ x = { f with mbz := f.mbz || w.getLsbD 6 }))
  ∧ ∀ (s : State) (n : Nat) (w : MemWord), s.issues n 4 → s.vecOk n → s.sbOk n → s.unheld →
    let c := s.core n
    let x := c.vec
    let esz := 2 ^ x.sew
    let act := x.active w.pm.toNat
    let base := (c.rg w.ra).toNat
    let unit := fun i => (base + i * esz) % 2 ^ 64
    let strided := fun (i : Nat) => (c.rg w.ra + BitVec.ofNat 64 i * c.rg w.rb).toNat
    let indexed := fun i => (base + x.el esz w.rb.toNat i * 2 ^ w.scale.toNat) % 2 ^ 64
    let okU : Bool := !w.mbz && decide (w.rb = 0) && decide (w.scale = 0)
    let okS : Bool := !w.mbz && decide (w.scale = 0)
    let okI : Bool := !w.mbz
    let adds := fun (k i : Nat) => if i = 7 then k else if i = 12 ∧ s.gang n ≠ 1 then 1 else 0
    let fails := fun (need : Need) (ad : Nat → Nat) (i cause va r : Nat) =>
      act i = true ∧ s.coreXlate n need (vAddrs (ad i) esz) = .fault cause va r
    let reads := fun (ad : Nat → Nat) (pas : Nat → List Nat) (i : Nat) =>
      s.coreXlate n .read (vAddrs (ad i) esz) = .ok (pas i) ∧ s.entriesSound n (vAddrs (ad i) esz) ∧ ∀ a ∈ pas i, s.sound a
    let load := fun (o : Host.Outcome State Fault Refusal) (ff ok : Bool) (ad : Nat → Nat) =>
      (ok = false → o = exec (.exceptionTaken n .illegal) s)
      ∧ (ok = true → ∀ pas : Nat → List Nat,
        ((∀ i, act i = true → reads ad pas i) → ∃ t k, o = .next t ∧ k ≤ 1
          ∧ s.retiresMem t n ({ c with vec := (t.core n).vec }.past 4) (adds k)
          ∧ x.mapped (t.core n).vec esz w.vd w.pm w.z (fun i => (leNat ((pas i).map (s.seen n)), 0))
          ∧ ∀ a, s.sound a → t.seen n a = s.seen n a)
        ∧ ∀ i cause va r, fails .read ad i cause va r → (∀ j, j < i → act j = true → reads ad pas j) →
          ((ff = true ∧ ∃ j, j < i ∧ act j = true) → ∃ t k, o = .next t ∧ k ≤ 1
            ∧ s.retiresMem t n ({ c with vec := (t.core n).vec }.past 4) (adds k)
            ∧ Vec.mapped { x with vl := i } (t.core n).vec esz w.vd w.pm w.z (fun i => (leNat ((pas i).map (s.seen n)), 0))
            ∧ ∀ a, s.sound a → t.seen n a = s.seen n a)
          ∧ (¬(ff = true ∧ ∃ j, j < i ∧ act j = true) → ∃ t, o = .next t ∧ (t.core n).vec = x
            ∧ (t.core n).xcause = BitVec.ofNat 64 cause ∧ (t.core n).xpc = c.pc ∧ (t.core n).xaddr = BitVec.ofNat 64 va))
    let store := fun (o : Host.Outcome State Fault Refusal) (ok : Bool) (ad : Nat → Nat) =>
      (ok = false ∨ w.z = true → o = exec (.exceptionTaken n .illegal) s)
      ∧ (ok = true → w.z = false → ∀ pas : Nat → List Nat,
        ((∀ i, act i = true → s.coreXlate n .write (vAddrs (ad i) esz) = .ok (pas i) ∧ (pas i).Nodup
            ∧ s.entriesSound n (vAddrs (ad i) esz)) →
          ∃ t, o = .next t ∧ s.retiresMem t n (c.past 4) (adds 0) ∧ (t.core n).sb = []
            ∧ (∀ (i j a : Nat), act i = true → (pas i)[j]? = some a → (∀ k, i < k → act k = true → a ∉ pas k) →
                s.sound a → t.rdByte a = BitVec.ofNat 8 (x.el esz w.vd.toNat i / 256 ^ j))
            ∧ ∀ a, (∀ i, act i = true → a ∉ pas i) → s.sound a → t.rdByte a = s.seen n a)
        ∧ ∀ i cause va r, fails .write ad i cause va r →
            (∀ j, j < i → act j = true → s.coreXlate n .write (vAddrs (ad j) esz) = .ok (pas j)) →
          ∃ t, o = .next t ∧ (t.core n).vec = x ∧ (t.core n).xcause = BitVec.ofNat 64 cause ∧ (t.core n).xpc = c.pc
            ∧ (t.core n).xaddr = BitVec.ofNat 64 va ∧ (cause = 4 → t.dram.bytes = s.dram.bytes ∧ (t.core n).sb = c.sb))
    load (exec (.vld n w) s) false okU unit ∧ load (exec (.vldff n w) s) true okU unit
    ∧ load (exec (.vlds n w) s) false okS strided ∧ load (exec (.vldsff n w) s) true okS strided
    ∧ load (exec (.vgath n w) s) false okI indexed ∧ load (exec (.vgathff n w) s) true okI indexed
    ∧ store (exec (.vst n w) s) okU unit ∧ store (exec (.vsts n w) s) okS strided ∧ store (exec (.vscat n w) s) okI indexed

/-- R228 to R230, R233, R235, R239 to R241, R244, R247, R253, R254. A row is one command (notes/assumptions/74.md). -/
def Obligations.MatrixProduct : Prop :=
  ∀ (s : State) (n : Nat), n < 64 → s.cores.length = 64 → s.leadOf n < 64 → s.unheld →
    let m := (s.core n).mx
    let lead := s.leadOf n
    ((∀ k ∈ s.machineOf n, s.mxStep1 k = none) → s.mxGo n = s)
    ∧ (∀ ra : BitVec 5, s.issues n 8 → s.sbOk n →
      let va := ((s.core n).rg ra).toNat
      let o := exec (.mxgo n ra) s
      let block := fun (va len : Nat) (bs : List Byte) => ∃ pas, s.coreXlate n .read (vAddrs va len) = .ok pas
        ∧ s.entriesSound n (vAddrs va len) ∧ (∀ a ∈ pas, s.sound a) ∧ bs = pas.map (s.seen n)
      ∀ raw ext, va % 64 = 0 → block va 128 raw →
        ((MxD.parse raw).op = 2 ∧ (MxD.parse raw).pair % 64 = 0 → block (MxD.parse raw).pair 64 ext) →
        (¬((MxD.parse raw).op = 2 ∧ (MxD.parse raw).pair % 64 = 0) → ext = []) →
        let d := MxD.parse raw
        let e := if d.op = 2 then some (MxExt.parse ext) else none
        let legal := d.ok (s.machineOf n).length e (s.spadBytes n)
        let full := ∃ k ∈ s.machineOf n, 4 ≤ (s.core k).mx.jobs.length ∨ (s.core k).mx.close = true
        (legal = false → ∃ t, o = .next t ∧ (t.core n).xcause = 1 ∧ (t.core n).xpc = (s.core n).pc ∧ (t.core n).xaddr = 0)
        ∧ (legal = true → (∀ x ∈ d.extents e, (s.coreCtx n).extent (s.reachOf n) (if x.2.2 then .write else .read) x.1 x.2.1 = .ok ()) →
            s.entriesSound n ((d.extents e).map (·.1)) →
          (full → ∃ t, o = .next t ∧ (t.core n).pc = (s.core n).pc ∧ ∀ k, (t.core k).mx = (s.core k).mx)
          ∧ (¬full → ∃ t, o = .next t ∧ (t.core n).pc = (s.core n).pc + 8
            ∧ ((∀ k ∈ s.machineOf n, (s.core k).mx.jobs = []) → d.op = 1 → d.k ≠ 0 → (s.machineOf n).Nodup → (∀ k ∈ s.machineOf n, k < 64) →
              ∀ (i k : Nat), (s.machineOf n)[i]? = some k → memberTiles (ceilDiv d.n 32) (s.machineOf n).length i ≠ 0 →
                ∃ j, (t.core k).mx.jobs = [j] ∧ j.raw = raw ∧ j.member = i ∧ j.gang = (s.machineOf n).length ∧ j.m0 = 0
                  ∧ j.mN = d.m ∧ j.n0 = 0 ∧ j.nN = d.n ∧ j.k0 = 0 ∧ j.partialBase = none ∧ j.phase = .load ∧ j.pass = 0
                  ∧ j.kc = 0 ∧ j.nt = 0 ∧ j.stop = false ∧ j.carry = [] ∧ (t.core k).mx.z = (s.core k).mx.z
                  ∧ ∀ cb, mxCombo d.a.fmt d.b.fmt d.inf = some cb → j.kN = ceilDiv d.k cb.kt))))
    ∧ (m.jobs = [] → exec (.mxStationaryLoad n) s = .next s ∧ exec (.mxRowEnter n) s = .next s ∧ exec (.mxOutputRow n) s = .next s)
    ∧ (∀ j r, m.jobs = j :: r →
      let v := j.view
      let d := MxD.parse j.raw
      let w := v.acc.bytes
      let elt := fun (spad : Bool) (x : MxOperand) (cols i k : Nat) =>
        let pas := fun (vas : List Nat) => if spad then vas.map (spadBase lead + ·) else s.heldPas n .read vas
        x.value (x.pick i k (leNat (s.rdAt (pas (vAddrs (x.addr i k) x.esz)))))
          (if x.isBx then leNat (s.rdAt (pas [x.scaleAddr cols i k % 2 ^ 64])) else 127)
      let acc := fun (t i c : Nat) => v.zoff + (t * v.mt + i / 32) * (1024 * w) + w * (32 * (i % 32) + c)
      let col := fun (t : Nat) => v.n0 + 32 * ((j.pass * v.ng + t) * j.gang + j.member)
      let poisoned := fun (o : Host.Outcome State Fault Refusal) => ∃ t, o = .next t
        ∧ ((s.core lead).ending = false → (s.core lead).deliver = none →
          (∀ k ∈ s.machineOf n, k < 64 → (t.core k).mx.jobs = []) ∧ ∃ x, (t.core lead).deliver = some x ∧ x.cause = 6 ∧ x.unit = 3)
      Mem.wf m.z = true →
      (let first := j.kc = j.k0 ∧ j.nt = 0
       let o := exec (.mxStationaryLoad n) s
       let ready := j.phase = .load ∧ j.stop = false ∧ (first → s.mxPassReady n j v = true)
       let reads := (if first then (s.mxInit n j v).2 else []) ++ (s.mxTile n j v).flatMap (·.2)
       (¬ready → o = .next s)
       ∧ (ready → (∃ a ∈ reads, s.bad a = true) → poisoned o)
       ∧ (ready → (∀ a ∈ reads, s.bad a = false) →
          ∃ (t : State) (T : List FpVal) (cyc : Nat), o = .next t ∧ s.worked t ∧ t.dram.bytes = s.dram.bytes
            ∧ (∀ k, k ≠ n → k ≠ lead → s.cached t k)
            ∧ (t.core n).mx.jobs = { j with tile := T, phase := .stream, row := 0 } :: r
            ∧ T.length = v.kt * 32
            ∧ (∀ k c, k < v.kt → c < 32 → T.getD (32 * k + c) FpVal.zero =
                if j.kc * v.kt + k < v.k ∧ col j.nt + c < v.nN then elt false v.b v.bcols (j.kc * v.kt + k) (col j.nt + c)
                else FpVal.zero)
            ∧ (t.core n).mx.cold = false ∧ (t.core n).mx.drizzling = false ∧ cyc ≤ s.drizzleLimit
            ∧ (t.core lead).mx.stall = (s.core lead).mx.stall
                + (if first ∧ j.pass = 0 ∧ j.blk = 0 ∧ j.second = false ∧ m.cold = true then 96 else 32)
            ∧ (t.core lead).mx.drizzle = (s.core lead).mx.drizzle + (if m.drizzling then BitVec.ofNat 64 cyc else 0)
            ∧ (¬first ∨ d.init = 2 → (t.core n).mx.z = m.z ∧ (t.core n).mx.zPoison = m.zPoison)
            ∧ (first → d.init ≠ 2 → ∀ p i c, p < v.tiles j.pass → i < 32 * v.mt → c < 32 →
                (t.core n).mx.z.readLe (acc p i c) w =
                  if d.init = 1 ∧ j.partialBase = none ∧ v.m0 + i < v.mN ∧ col p + c < v.nN then
                    leNat (s.rdAt (s.heldPas n .read (vAddrs (d.c.addr (v.m0 + i) (col p + c)) w)))
                  else 0)))
      ∧ (let o := exec (.mxRowEnter n) s
         let i := v.m0 + j.row
         let row := fun (k : Nat) => if i < v.mN ∧ j.kc * v.kt + k < v.k then elt v.aSpad v.a v.acols (i - v.ar) (j.kc * v.kt + k) else FpVal.zero
         let live := if i < v.mN then (List.range (min 32 (v.nN - col j.nt))).map (v.accAddr j.nt j.row) else []
         let reads := (s.mxRow n j v).flatMap (·.2)
         (j.phase ≠ .stream → o = .next s)
         ∧ (j.phase = .stream → (∃ a ∈ reads, s.bad a = true) ∨ m.zBad live = true → poisoned o)
         ∧ (j.phase = .stream → (∀ a ∈ reads, s.bad a = false) → m.zBad live = false →
            ∃ (u : State) (seq : Nat → Nat → Nat × Cond), o = .next (u.mxGo n) ∧ s.worked u ∧ u.dram.bytes = s.dram.bytes
              ∧ (∀ k, k ≠ n → k ≠ lead → s.cached u k)
              ∧ (∀ c, seq c 0 = (m.z.readLe (acc j.nt j.row c) w, 0))
              ∧ (∀ c q, seq c (q + 1) =
                  let x := v.acc.fp.sum .rne true (v.acc.fp.decode (seq c q).1 ::
                    (List.range v.dot).map (fun k => (row (v.dot * q + k)).mul (j.tile.getD (32 * (v.dot * q + k) + c) FpVal.zero)))
                  (x.1, (seq c q).2 ||| x.2))
              ∧ (∀ c, c < 32 → (u.core n).mx.z.readLe (acc j.nt j.row c) w = (seq c (v.kt / v.dot)).1 % 256 ^ w)
              ∧ (∀ a, (∀ c, c < 32 → a < acc j.nt j.row c ∨ acc j.nt j.row c + w ≤ a) → (u.core n).mx.z.read a = m.z.read a)
              ∧ (∃ j', (u.core n).mx.jobs = j' :: r ∧ j' =
                  { (if j.row + 1 < 32 * v.mt then { j with row := j.row + 1 }
                     else if j.nt + 1 < v.tiles j.pass then { j with nt := j.nt + 1, row := 0, phase := .load }
                     else if j.kc + 1 < v.kN then { j with kc := j.kc + 1, nt := 0, row := 0, phase := .load }
                     else { j with row := 0, phase := .output }) with flags := j'.flags }
                ∧ ((u.core n).mx.drizzling = true ↔ m.drizzling = true
                    ∨ (j'.phase = .output ∧ s.mxNextLoads n = false ∧ s.drizzleLimit ≠ 0))
                ∧ ∀ b, j'.flags.getLsbD b = true ↔ j.flags.getLsbD b = true ∨ i < v.mN
                    ∧ ∃ c, c < 32 ∧ col j.nt + c < v.nN ∧ (seq c (v.kt / v.dot)).2.getLsbD b = true)))
      ∧ (let o := exec (.mxOutputRow n) s
         let rows := v.oN - v.o0
         let t0 := j.row / rows
         let m0 := v.o0 + j.row % rows
         let nt := j.tileNo v t0
         let cols := min 32 (v.nN - col t0)
         let ready := j.phase = .output ∧ rows ≠ 0 ∧ s.mxTileReady n j v nt = true
         let zbad := s.mxZBad n j v m0 (addrs (col t0) cols)
         (¬ready → o = .next s)
         ∧ (ready → zbad = true → poisoned o)
         ∧ (ready → zbad = false →
            ∃ (u : State) (fl : Cond) (un : Nat), o = .next (u.mxGo n) ∧ s.worked u
              ∧ (∀ k, k ≠ n → k ≠ lead → s.cached u k)
              ∧ (u.core n).mx.z = m.z
              ∧ (u.core n).mx.jobs = { j with row := j.row + 1, flags := j.flags ||| fl, under := j.under + un } :: r
              ∧ (u.core lead).mx.flags = (s.core lead).mx.flags ||| fl
              ∧ (u.core lead).mx.underflow = (s.core lead).mx.underflow + BitVec.ofNat 64 un
              ∧ (d.op = 1 → d.keep = false → 1 ≤ j.gang → j.member < j.gang → (s.machineOf n).getD j.member n = n →
                  j.row < v.tiles j.pass * rows → Mem.wf s.dram.bytes = true → ∀ f, d.c.fmt = some f → f.isBx = false →
                let i := j.row % rows
                let el := fun (c : Nat) => v.acc.convert f (s.mxRm d m0 (col t0 + c)) d.sat (m.z.readLe (acc t0 i c) w)
                let bytes := match j.partialBase with
                  | none => (List.range cols).flatMap (fun c => leBytes f.bytes (el c).1)
                  | some _ => (List.range cols).flatMap (fun c => leBytes w (m.z.readLe (acc t0 i c) w))
                let base := match j.partialBase with
                  | none => d.c.addr m0 (col t0)
                  | some b => b + w * (m0 * d.n + col t0)
                let pas := s.heldPas n .write (vAddrs base bytes.length)
                pas.Nodup →
                  (∀ (q a : Nat) (x : Byte), pas[q]? = some a → bytes[q]? = some x → s.chanDead a = false → u.rdByte a = x)
                  ∧ ∀ a, a ∉ pas → u.rdByte a = s.rdByte a)
              ∧ (s.machineOf n = [n] → r = [] → d.op = 1 → d.keep = false → j.gang = 1 → j.partialBase = none → j.stop = false →
                  (s.core n).ending = false → (∀ g i, (s.core n).work ≠ .product g i) →
                  v.tiles j.pass * rows = j.row + 1 → j.pass + 1 = v.passes → Mem.wf s.dram.bytes = true →
                ∃ t, o = .next t ∧ (t.core n).mx.jobs = [] ∧ (t.core n).mx.desc = m.desc + 1
                  ∧ (t.core n).mx.spills = m.spills + BitVec.ofNat 32 j.pass
                  ∧ (d.status ≠ 0 →
                    let sp := s.heldPas n .write (vAddrs d.status 16)
                    let rec_ := leBytes 1 1 ++ leBytes 1 (j.flags ||| fl).toNat ++ [0, 0] ++ leBytes 4 j.pass ++ leBytes 4 (j.under + un) ++ [0, 0, 0, 0]
                    sp.Nodup → ∀ (q a : Nat) (x : Byte), sp[q]? = some a → rec_[q]? = some x → s.chanDead a = false → t.rdByte a = x)))))
    ∧ (∃ t, exec (.drizzleLimit n) s = .next t ∧ (m.drizzling = false → t = s)
        ∧ (m.drizzling = true → t = { s with cores := t.cores } ∧ (t.core n).mx.drizzling = false
          ∧ (t.core lead).mx.drizzle = (s.core lead).mx.drizzle + BitVec.ofNat 64 s.drizzleLimit))
    ∧ (∃ t, exec (.arrayCold n) s = .next t ∧ (m.drizzling = true ∨ (∃ j ∈ m.jobs, j.phase = .stream)
            ∨ (∃ j r, m.jobs = j :: r ∧ j.phase = .output ∧ s.mxNextLoads n = true) → t = s)
        ∧ (m.drizzling = false → (∀ j ∈ m.jobs, j.phase ≠ .stream) →
            (∀ j r, m.jobs = j :: r → j.phase = .output → s.mxNextLoads n = false) →
          t = { s with cores := t.cores } ∧ t.core n = { s.core n with mx := { m with cold := true } } ∧ ∀ k, k ≠ n → t.core k = s.core k))
    ∧ ((s.core lead).ending = false → Mem.wf m.z = true →
        let gone := fun (j : MxJob) => j.stop && (decide (j.phase = .load) || decide (j.phase = .chain))
        let slot := fun (j : MxJob) (a : Nat) => (MxD.parse j.raw).zbase * 4096 ≤ a ∧ a < ((MxD.parse j.raw).zbase + (MxD.parse j.raw).zcount) * 4096
        ∃ u, exec (.mxCancel n) s = .next (u.mxGo n) ∧ (u.core n).mx.jobs = m.jobs.filter (fun j => !gone j)
          ∧ (∀ a, (u.core n).mx.z.read a = if ∃ j ∈ m.jobs, gone j = true ∧ slot j a then 0 else m.z.read a)
          ∧ ((∀ j ∈ m.jobs, gone j = false) → u = s))
    ∧ (s.serves (.core n) → (∀ g i, (s.core lead).work ≠ .product g i) →
        (∀ b, ∃ t, exec (.mxClose n b) s = .next t ∧ t = { s with cores := t.cores }
          ∧ t.core n = { s.core n with mx := { m with close := b } } ∧ ∀ k, k ≠ n → t.core k = s.core k)
        ∧ (∃ t, exec (.mxCntReset n) s = .next t ∧ t = { s with cores := t.cores } ∧ (∀ k, k ≠ n → t.core k = s.core k)
          ∧ t.core n = { s.core n with mx := { m with desc := 0, stall := 0, drizzle := 0, underflow := 0, spills := 0 } })
        ∧ ∃ t, exec (.mxAbort n) s = .next t ∧ (t.core n).mx.drizzling = false ∧ (t.core n).mx.z = m.z
          ∧ (t.core n).mx.jobs = m.jobs.map (fun (j : MxJob) => { j with stop := true })
          ∧ ((s.core lead).work ≠ .none → (s.core lead).work ≠ .patrol → (s.core lead).deliver = none →
              ∃ x, (t.core lead).deliver = some x ∧ x.cause = 7))

/-- R260 to R262, R264 to R269, R289, R291, R293. -/
def Obligations.StreamProgram : Prop :=
  let begun := fun (x : Sce) (b : Nat × List Nat × List Nat × List Nat) (pair : Bool) => { x with
    run := .running, pc := b.1, s := b.2.1, n := b.2.2.1, lc := b.2.2.2, act := List.replicate 4 false, len := 0
    loads := [], fault := 0, held := none, pair := pair }
  (∀ (p w : BitVec 32) (n : Nat) (e : Bool) (member : BitVec 2) (ra : BitVec 5),
    let word := majorOf p = 0x3F ∧ (p.extractLsb' 22 4).toNat = (if e then 2 else 1) ∧ p.extractLsb' 14 2 = member
      ∧ p.extractLsb' 0 14 = 0 ∧ w.extractLsb' 27 5 = ra ∧ w.extractLsb' 0 27 = 0
    ((Instr.scload n e member ra).inStream p w = true ↔ word ∧ (p.extractLsb' 16 6).toNat = 1)
    ∧ ((Instr.scgo n e member ra).inStream p w = true ↔ word ∧ (p.extractLsb' 16 6).toNat = 2))
  ∧ (∀ (s : State) (n : Nat) (e : Bool) (member : BitVec 2) (ra : BitVec 5), s.issues n 8 → s.sbOk n → s.unheld →
    let va := ((s.core n).rg ra).toNat
    let ill := fun (o : Host.Outcome State Fault Refusal) =>
      ∃ t, o = .next t ∧ (t.core n).xcause = 1 ∧ (t.core n).xpc = (s.core n).pc ∧ (t.core n).xaddr = 0
    let block := fun (va len : Nat) (bs : List Byte) => ∃ pas, s.coreXlate n .read (vAddrs va len) = .ok pas
      ∧ s.entriesSound n (vAddrs va len) ∧ (∀ a ∈ pas, s.sound a) ∧ bs = pas.map (s.seen n)
    ((s.machineOf n)[member.toNat]? = none → ill (exec (.scload n e member ra) s) ∧ ill (exec (.scgo n e member ra) s))
    ∧ ∀ k, (s.machineOf n)[member.toNat]? = some k → k < 64 → (s.core k).sce.length = 2 →
      let x := s.engine k (bnat e)
      (∀ raw, va % 16 = 0 → block va 16 raw →
        (loadBlock raw = none → ill (exec (.scload n e member ra) s))
        ∧ ∀ src dst cnt, loadBlock raw = some (src, dst, cnt) → (s.coreCtx n).extent (s.reachOf n) .read src (2 * cnt) = .ok () →
            (x.quiet = false ∨ x.close = true → exec (.scload n e member ra) s = .next (s.fetched n 8))
            ∧ ∀ ws, x.quiet = true → x.close = false → block src (2 * cnt) ws →
                ((∀ i, i < cnt → leAt ws (2 * i) 2 < 2 ^ 14) → Tab.wf 0 x.pm = true →
                  ∃ t y, exec (.scload n e member ra) s = .next t ∧ s.commitsEngine t n k (bnat e) y
                    ∧ y = { x with pm := y.pm, pmPoison := y.pmPoison }
                    ∧ (∀ i, i < cnt → Tab.get 0 y.pm (dst + i) = leAt ws (2 * i) 2)
                    ∧ ∀ a, a < dst ∨ dst + cnt ≤ a → Tab.get 0 y.pm a = Tab.get 0 x.pm a)
                ∧ ((∃ i, i < cnt ∧ 2 ^ 14 ≤ leAt ws (2 * i) 2) → ill (exec (.scload n e member ra) s)))
      ∧ ∀ raw, va % 64 = 0 → block va 64 raw →
        (startBlock raw = none → ill (exec (.scgo n e member ra) s))
        ∧ ∀ b, startBlock raw = some b →
          (x.held ≠ none ∨ x.close = true ∨ s.pairNames k (bnat e) = true → exec (.scgo n e member ra) s = .next (s.fetched n 8))
          ∧ (x.held = none → x.close = false → s.pairNames k (bnat e) = false →
            ∃ t, exec (.scgo n e member ra) s = .next t ∧ s.commitsEngine t n k (bnat e)
              (if x.quiet then begun x b false else { x with held := some ⟨b.1, b.2.1, b.2.2.1, b.2.2.2, false⟩ })))
  ∧ (∀ (s : State) (n : Nat) (e : Bool), n < 64 → s.cores.length = 64 → (s.core n).sce.length = 2 →
      let x := s.engine n (bnat e)
      (x.held = none ∨ x.run ≠ .idle ∨ x.chains ≠ [] ∨ (∃ d ∈ x.tags, d ≠ none) → exec (.heldStartBegin n e) s = .next s)
      ∧ ∀ st, x.held = some st → x.run = .idle → x.chains = [] → (∀ d ∈ x.tags, d = none) →
          ∃ t, exec (.heldStartBegin n e) s = .next t ∧ s.engineIs t n (bnat e) (begun x (st.entry, st.s, st.n, st.lc) st.pair))
  ∧ (∀ (x : Sce) (last next : Nat) (new : List PendLoad),
      let ends := fun (k : Nat) => x.act.getD k false = true ∧ x.le.getD k 0 = last
      let c := fun (k : Nat) => x.lc.getD k 0
      ((∀ k, k < 4 → ¬ends k) → x.wordDone last next new =
        { (x.loads.filter (fun l => decide (l.left ≤ 1))).foldl Sce.land { x with pc := next } with
          loads := (x.loads.filter (fun l => decide (2 ≤ l.left))).map (fun (l : PendLoad) => { l with left := l.left - 1 }) ++ new })
      ∧ (∀ k, k < 4 → ends k → (∀ i, k < i → i < 4 → ¬ends i) →
        (c k = 1 → x.wordDone last next new =
          ({ x with act := x.act.set k false, lc := x.lc.set k 0 } : Sce).wordDone last next new)
        ∧ (c k ≠ 1 → c k < 2 ^ 16 → x.wordDone last next new =
          { ({ x with act := [], lc := x.lc.set k ((c k + 65535) % 65536) } : Sce).wordDone last (x.ls.getD k 0) new with
            act := x.act }))
      ∧ ∀ i v r, x.land ⟨r, .s i, v, Slot.zero⟩ = { x with s := x.s.set i v }
          ∧ x.land ⟨r, .n i, v, Slot.zero⟩ = { x with n := x.n.set i v }
          ∧ x.land ⟨r, .lc i, v, Slot.zero⟩ = { x with lc := x.lc.set i v }
          ∧ ∀ f, x.land ⟨r, .slot i, v, f⟩ = { x with cf := x.cf.set i f })
  ∧ (∀ (s : State) (n : Nat) (e : Bool) (w : SeqWord), s.atWord n (bnat e) w →
      let x := s.engine n (bnat e)
      let gives := fun (o : Host.Outcome State Fault Refusal) (y : Sce) => ∃ t, o = .next t ∧ s.engineIs t n (bnat e) y
      let word := fun (y : Sce) => y.wordDone x.pc (x.pc + 1) []
      let loads := fun (o : Host.Outcome State Fault Refusal) (off len : Nat) (dst : LoadDst) (v : List Byte → Nat) (slot : List Byte → Slot) =>
        (off % len ≠ 0 → s.engineStops n (bnat e) 4 3 x.pc o)
        ∧ (off % len = 0 → s.spadBytes n < off + len → s.engineStops n (bnat e) 3 5 x.pc o)
        ∧ (off % len = 0 → off + len ≤ s.spadBytes n →
            (s.spadBad n off len ≠ none → s.engineStops n (bnat e) 7 6 x.pc o)
            ∧ (s.spadBad n off len = none →
              gives o (x.wordDone x.pc (x.pc + 1) [⟨3, dst, v (s.spadRead n off len), slot (s.spadRead n off len)⟩])))
      match w with
      | .nop => gives (exec (.nop n e) s) (word x)
      | .addss d a => gives (exec (.addss n e) s) (word { x with s := x.s.set d ((x.s.getD d 0 + x.s.getD a 0) % 2 ^ 24) })
      | .addsn d a => gives (exec (.addsn n e) s) (word { x with s := x.s.set d ((x.s.getD d 0 + x.n.getD a 0) % 2 ^ 24) })
      | .movs d a => gives (exec (.movs n e) s) (word { x with s := x.s.set d (x.s.getD a 0) })
      | .setlen a => gives (exec (.setlen n e) s) (word { x with len := x.n.getD a 0 })
      | .addni d i => gives (exec (.addni n e) s)
          (word { x with n := x.n.set d ((((x.n.getD d 0 : Nat) : Int) + i) % 16777216).toNat })
      | .loop k b =>
        (4095 < x.pc + b → s.engineStops n (bnat e) 1 1 x.pc (exec (.loop n e) s))
        ∧ (x.pc + b ≤ 4095 →
          (x.lc.getD k 0 = 0 → gives (exec (.loop n e) s)
            (({ x with act := x.act.set k false } : Sce).wordDone x.pc (x.pc + b + 1) []))
          ∧ (x.lc.getD k 0 ≠ 0 → gives (exec (.loop n e) s)
            (word { x with ls := x.ls.set k (x.pc + 1), le := x.le.set k (x.pc + b), act := x.act.set k true })))
      | .lds d a i => loads (exec (.lds n e) s) ((x.s.getD a 0 + 4 * i) % 2 ^ 24) 4 (.s d) (fun b => leNat b % 2 ^ 24) (fun _ => Slot.zero)
      | .ldc t a i => loads (exec (.ldc n e) s) ((x.s.getD a 0 + 4 * i) % 2 ^ 24) 4 (if t < 4 then .n t else .lc (t - 4))
          (fun b => leNat b % (if t < 4 then 2 ^ 24 else 2 ^ 16)) (fun _ => Slot.zero)
      | .ldcf slot a => loads (exec (.ldcf n e) s) (x.s.getD a 0) 64 (.slot slot) (fun _ => 0) Slot.parse
      | .waitd t => (x.tags.getD t none = none → gives (exec (.waitd n e) s) (word x))
          ∧ (x.tags.getD t none ≠ none → exec (.waitd n e) s = .next s)
      | .waitc => (x.chains = [] → gives (exec (.waitc n e) s) (word x)) ∧ (x.chains ≠ [] → exec (.waitc n e) s = .next s)
      | .halt =>
        let y : Sce := { x.loads.foldl Sce.land x with
          loads := [], run := .idle, pair := false, pc := x.pc + 1, act := List.replicate 4 false }
        (x.chains ≠ [] ∨ (∃ d ∈ x.tags, d ≠ none) → exec (.haltWord n e) s = .next s)
        ∧ (x.chains = [] → (∀ d ∈ x.tags, d = none) →
          (x.pair = false → s.chainCell n (bnat e) = false → (∀ k ∈ s.machineOf n, (s.core k).mx.jobs = []) →
            gives (exec (.haltWord n e) s) y)
          ∧ (x.pair = false → s.chainCell n (bnat e) = true → (s.core n).deliver = none → s.leadOf n = n →
            ∃ t, exec (.haltWord n e) s = .next t ∧ (t.core n).run = .idle ∧ (t.core n).ctxValid = false
              ∧ (t.engine n (bnat e)) = y ∧ ((t.core n).work = .none ∨ (t.core n).work = .patrol)))
      | _ => True)
  ∧ (∀ (s : State) (n : Nat) (e : Bool), n < 64 → s.cores.length = 64 → (s.core n).sce.length = 2 →
      let x := s.engine n (bnat e)
      x.run = .running →
      (x.pc ≤ 4095 → nsHas x.pmPoison x.pc = false → SeqWord.decode (Tab.get 0 x.pm x.pc) = none →
        s.engineStops n (bnat e) 1 1 x.pc (exec (.nop n e) s))
      ∧ (x.pc ≤ 4095 → nsHas x.pmPoison x.pc = true → s.engineStops n (bnat e) 7 6 x.pc (exec (.nop n e) s)))
  ∧ ∀ (s : State) (n e : Nat), s.cores.length = 64 → n < 64 → e < 2 → (s.core n).sce.length = 2 → s.serves (.core n) →
      let x := s.engine n e
      (∃ t, exec (.scCntReset n e) s = .next t ∧ ((∀ k ∈ s.machineOf n, (s.core k).mx.jobs = []) →
        x.close = true ∨ s.chainWaits n e = false →
        s.engineIs t n e { x with nChains := 0, nBeats := 0, nStall := 0, nUnder := 0 }))
      ∧ (∀ b, ∃ t, exec (.scClose n e b) s = .next t ∧ ((∀ k ∈ s.machineOf n, (s.core k).mx.jobs = []) →
          b = true ∨ s.chainWaits n e = false → s.engineIs t n e { x with close := b }))
      ∧ ∃ t, exec (.scAbort n e) s = .next t ∧ ((∀ k ∈ s.machineOf n, (s.core k).mx.jobs = []) →
          x.close = true ∨ s.chainWaits n e = false →
          (∀ i, (t.engine n e).tags.getD i none = none) ∧ (t.engine n e).run = .idle ∧ (t.engine n e).chains = []
          ∧ (t.engine n e).held = none ∧ (t.engine n e).len = 0 ∧ (t.engine n e).pm = x.pm ∧ (t.engine n e).flags = x.flags
          ∧ (t.engine n e).fault = x.fault ∧ (t.engine n e).nChains = x.nChains ∧ (t.engine n e).close = x.close
          ∧ (s.leadOf n < 64 → (s.core (s.leadOf n)).work ≠ .none → (s.core (s.leadOf n)).work ≠ .patrol → (s.core (s.leadOf n)).deliver = none →
              ∃ d, (t.core (s.leadOf n)).deliver = some d ∧ d.cause = 7))

/-- R264, R270 to R272, R274, R277 to R280, R283, R284, R290. That a beat is one command, and a group one word, is the
model's (notes/assumptions/73.md). -/
def Obligations.StreamChains : Prop :=
  (∀ (c : Slot) (stages ss : List Nat) (len spad : Nat), chainCheck c stages ss len spad = 0 →
    let last := stOp (stages.getLastD 0)
    (∀ j ∈ chainInputs stages, (len ≠ 0 → (chainIn c ss len j).1 + (chainIn c ss len j).2.1 ≤ spad)
      ∧ (chainIn c ss len j).1 % max 1 ((chainIn c ss len j).2.2 / 8) = 0 ∧ inFmtOk c.wf64 (c.inFmt j) = true)
    ∧ (∀ o ∈ chainOut c last ss len, (len ≠ 0 → o.1 + o.2.1 ≤ spad) ∧ o.1 % max 1 (o.2.2 / 8) = 0
      ∧ ∀ j ∈ chainInputs stages, len ≠ 0 → overlaps o (chainIn c ss len j) = true →
          o.1 = (chainIn c ss len j).1 ∧ o.2.2 = (chainIn c ss len j).2.2)
    ∧ (∀ (q w : Nat), stages[q]? = some w → stKnown (stOp w) = true ∧ (stTerminal (stOp w) = true → q + 1 = stages.length)
        ∧ (4 ≤ stSa w → stSa w - 3 ≤ q))
    ∧ (stTerminal last = false → ∃ (q w : Nat), stages[q]? = some w ∧ Machine.stM w = true ∧ ∀ (p v : Nat), stages[p]? = some v → Machine.stM v = true → p = q))
  ∧ (∀ (s : State) (n : Nat) (e : Bool) (nst slot : Nat) (adv : Bool), s.atWord n (bnat e) (.chain nst slot adv) →
      let x := s.engine n (bnat e)
      let o := exec (.chain n e) s
      let word := fun (i : Nat) => Tab.get 0 x.pm (x.pc + 1 + i)
      let stages := (List.range nst).map (fun i => word i % 4096)
      let c := x.cf.getD slot Slot.zero
      let clear := x.pc + nst ≤ 4095 ∧ ∀ k, k < 4 → x.act.getD k false = true → ¬(x.pc ≤ x.le.getD k 0 ∧ x.le.getD k 0 < x.pc + nst)
      let whole := clear ∧ (∀ i, i < nst → nsHas x.pmPoison (x.pc + 1 + i) = false) ∧ ∀ i, i < nst → bits (word i) 12 2 = 3
      let chk := chainCheck c stages (x.s.take 5) x.len (s.spadBytes n)
      (¬clear → s.engineStops n (bnat e) 1 1 x.pc o)
      ∧ (whole → (∃ r ∈ x.chains, r.entered = 0) → o = .next s)
      ∧ (whole → (∀ r ∈ x.chains, r.entered ≠ 0) →
        (chk = 2 → s.engineStops n (bnat e) 2 1 x.pc o) ∧ (chk = 3 → s.engineStops n (bnat e) 3 5 x.pc o)
        ∧ (chk = 4 → s.engineStops n (bnat e) 4 3 x.pc o)
        ∧ (chk = 0 → x.s.length = 8 → ∃ (t : State) (y : Sce), o = .next t
            ∧ s.engineIs t n (bnat e) (y.wordDone (x.pc + nst) (x.pc + nst + 1) [])
            ∧ y = { x with s := y.s, cf := y.cf, chains := y.chains, nextChain := y.nextChain, nChains := y.nChains }
            ∧ (if x.len = 0 then y.chains = x.chains ∧ y.nChains = x.nChains + 1 ∧ y.nextChain = x.nextChain
              else y.chains = x.chains ++ [⟨x.nextChain, x.len, x.s.take 5, c, stages, 0, [0, 0, 0], [], [], [], x.pc⟩]
                ∧ y.nChains = x.nChains ∧ y.nextChain = x.nextChain + 1)
            ∧ (adv = false → y.s = x.s ∧ y.cf = x.cf)
            ∧ (adv = true → (∀ j, j < 5 → y.s.getD j 0 = (x.s.getD j 0 + c.pitch.getD j 0) % 2 ^ 24)
              ∧ (∀ j, 5 ≤ j → y.s.getD j 0 = x.s.getD j 0)
              ∧ y.cf = x.cf.set slot { c with idxBase := (c.idxBase + c.idxPitch) % 2 ^ 48 }))))
  ∧ (∀ (s : State) (n : Nat) (e : Bool), n < 64 → s.cores.length = 64 → (s.core n).sce.length = 2 →
      let x := s.engine n (bnat e)
      let o := exec (.chainBeatEnter n e) s
      ((∀ r ∈ x.chains, r.beats ≤ r.entered) → o = .next s)
      ∧ ∀ i r, x.chains[i]? = some r → r.entered < r.beats → (∀ (j : Nat) (c : ChainRun), j < i → x.chains[j]? = some c → c.beats ≤ c.entered) →
        let b := r.entered
        let c := r.slot
        let nl := c.beat
        let live := min nl (r.len - b * nl)
        let busy := r.entered = 0 ∧ ∃ (j : Nat) (d : ChainRun) (w : ChainWrite), j < i ∧ x.chains[j]? = some d ∧ w ∈ d.pend
          ∧ ∃ k ∈ chainInputs r.stages, overlaps w.ext (chainIn c r.s r.len k) = true
        (busy → o = .next s)
        ∧ (¬busy → (∃ p ∈ r.reads b, s.spadBad n p.1 p.2 ≠ none) → s.engineStops n (bnat e) 7 6 r.pc o)
        ∧ (¬busy → (∀ p ∈ r.reads b, s.spadBad n p.1 p.2 = none) →
            (∀ (q w : Nat), r.stages[q]? = some w → (4 ≤ stSa w → stSa w - 3 ≤ q)
              ∧ (stUnary (stOp w) = false → 4 ≤ stSb w → stSb w - 3 ≤ q)) →
          ∃ (t : State) (r' : ChainRun) (f : Cond) (u stall : Word) (val : Nat → Nat → Lane) (cond : Nat → Nat → Cond), o = .next t
            ∧ t = { s with cores := t.cores, free := t.free } ∧ (∀ k, k ≠ n → t.core k = s.core k)
            ∧ t.core n = { s.core n with sce := (s.core n).sce.set (bnat e) { x with
                chains := x.chains.set i r', flags := x.flags ||| f, nBeats := x.nBeats + 1, nUnder := x.nUnder + u, nStall := stall } }
            ∧ r'.entered = b + 1 ∧ r'.id = r.id ∧ r'.len = r.len ∧ r'.s = r.s ∧ r'.slot = c ∧ r'.stages = r.stages ∧ r'.pc = r.pc
            ∧ (let wide := fun (j i : Nat) => match NumFmt.ofCode (c.inFmt j) with
                | some m => m.convert c.wf .rne false (leNat (s.spadRead n (r.inOff j i).1 (r.inOff j i).2))
                | none => (0, 0)
              let el := fun (j i : Nat) => (wide j i).1
              let inp := fun (j k : Nat) => if r.len ≤ b * nl + k then 0
                else if c.inBc j then (if b = 0 then el j 0 else r.bcast.getD j 0) else el j (b * nl + k)
              let stage := fun (q : Nat) => r.stages.getD q 0
              let src := fun (q code k : Nat) => if code < 3 then ((inp code k, false) : Lane) else if code = 3 then (c.k, false)
                else
                  let d := code - 3
                  let sp := stSpan (stOp (stage (q - d)))
                  if sp ≤ d then val (q - d) k
                  else if b < 4 * (sp - d) then (0, false)
                  else ((r.hist.getD (4 * (sp - d) - 1) []).getD (q - d) []).getD k (0, false)
              let last := stage (r.stages.length - 1)
              let term := stTerminal (stOp last)
              let nst := if term then r.stages.length - 1 else r.stages.length
              let seed := if c.seedDef then (match s.sim.image with | some m => m.srSeed | none => 0) else c.seed
              let out := fun (g : NumFmt) (i v : Nat) => c.wf.convert g
                ((Rm.ofCode c.rm (srBits seed c.stream ((c.idxBase + i) % 2 ^ 48))).getD .rne) c.sat v
              let sz := fmtSize c.o
              (∀ q k, q < nst → k < nl → (val q k, cond q k) =
                stageEl (stOp (stage q)) c.wf.fp c.k (src q (stSa (stage q)) k) (src q (stSb (stage q)) k))
              ∧ (∀ q k, q < nst → k < nl → ((r'.hist.getD 0 []).getD q []).getD k (0, false) = val q k)
              ∧ (∀ m, m < 7 → r'.hist.getD (m + 1) [] = r.hist.getD m [])
              ∧ (0 < r.stages.length → term = false → r'.row = r.row ∧
                (∀ q g, q < nst → Machine.stM (stage q) = true → (∀ p, p < q → Machine.stM (stage p) = false) → NumFmt.ofCode c.o = some g →
                  r'.pend = r.pend ++ [⟨b, false, r.s.getD 2 0 + b * nl * sz,
                    (List.range live).flatMap (fun k => leBytes sz (out g (b * nl + k) (val q k).1).1)⟩]
                  ∧ ∀ m, f.getLsbD m = true ↔ ∃ k, k < live ∧ ((out g (b * nl + k) (val q k).1).2.getLsbD m = true
                      ∨ (∃ p, p < nst ∧ (cond p k).getLsbD m = true)
                      ∨ ∃ j ∈ chainInputs r.stages,
                          (if c.inBc j then b = 0 ∧ (wide j 0).2.getLsbD m = true else (wide j (b * nl + k)).2.getLsbD m = true))))
              ∧ (term = true → r'.row = r.row ++ (List.range live).map (fun k => (src nst (stSa last) k).1)
                ∧ (stOp last ≠ 0x1C → b + 1 < r.beats → r'.pend = r.pend)
                ∧ ∀ g, r.beats ≤ b + 1 → NumFmt.ofCode c.o = some g →
                  (∀ p ∈ ([(0x18, .sum), (0x19, .max), (0x1A, .min)] : List (Nat × RedFn)), stOp last = p.1 →
                    r'.pend = r.pend ++ [⟨b, true, r.s.getD 2 0, leBytes sz (out g 0 ((treeLoop (redFp p.2 c.wf.fp .rne)
                      r'.row.length r'.row.length 1 (fun i => (r'.row[i]?, 0))).1.getD 0)).1⟩])
                  ∧ (stOp last = 0x1B → r'.row.length + c.topk < 2 ^ 32 →
                    let ext := fun (p : Nat) => (r'.row.getD p (c.wf.fp.infBits true), p)
                    ∃ pos : Nat → Nat, r'.pend = r.pend ++ [
                        ⟨b, true, r.s.getD 2 0, (List.range c.topk).flatMap (fun m => leBytes sz (out g m (ext (pos m)).1).1)⟩,
                        ⟨b, true, r.s.getD 3 0, (List.range c.topk).flatMap (fun m => leBytes 4 (pos m))⟩]
                      ∧ (∀ m, m < c.topk → pos m < max r'.row.length c.topk)
                      ∧ (∀ m m', m < m' → m' < c.topk → topBefore c.wf.fp (ext (pos m)) (ext (pos m')) = true)
                      ∧ ∀ p, p < max r'.row.length c.topk → (∀ m, m < c.topk → pos m ≠ p) →
                          ∀ m, m < c.topk → topBefore c.wf.fp (ext (pos m)) (ext p) = true))))
      ∧ (∀ y ∈ ([(exec (.stageWrite n e) s, false), (exec (.terminalWrite n e) s, true)] :
            List (Host.Outcome State Fault Refusal × Bool)),
          ((∀ r ∈ x.chains, ∀ w ∈ r.pend, w.terminal ≠ y.2) → y.1 = .next s)
          ∧ ∀ i r w rest, x.chains[i]? = some r → r.pend = w :: rest → (∃ v ∈ r.pend, v.terminal = y.2) →
              (∀ (j : Nat) (c : ChainRun), j < i → x.chains[j]? = some c → ∀ v ∈ c.pend, v.terminal ≠ y.2) →
            let ws := r.pend.takeWhile (fun v => decide (v.beat = w.beat))
            let later := ∃ (j : Nat) (c : ChainRun), j < i ∧ x.chains[j]? = some c
              ∧ ∃ u ∈ c.pend, ∃ v ∈ ws, overlaps u.ext v.ext = true
            let fin := fun (c : ChainRun) => decide (c.beats ≤ c.entered) && c.pend.isEmpty
            let cs := x.chains.set i { r with pend := r.pend.drop ws.length }
            let inW := fun (v : ChainWrite) (a : Nat) => spadBase n + v.off ≤ a ∧ a < spadBase n + v.off + v.bytes.length
            (later → y.1 = .next s)
            ∧ (¬later → Mem.wf s.dram.bytes = true → ∃ t, y.1 = .next t
                ∧ t = { s with cores := t.cores, dram := { s.dram with bytes := t.dram.bytes, poison := t.dram.poison, lost := t.dram.lost } }
                ∧ (∀ k, k ≠ n → t.core k = s.core k)
                ∧ t.core n = { s.core n with sce := (s.core n).sce.set (bnat e) { x with
                    chains := cs.filter (fun c => !fin c), nChains := x.nChains + BitVec.ofNat 64 (cs.countP fin) } }
                ∧ (∀ a, (∀ v ∈ ws, ¬inW v a) → t.rdByte a = s.rdByte a)
                ∧ ∀ v ∈ ws, ∀ (j : Nat) (h : Byte), v.bytes[j]? = some h →
                    (∀ u ∈ ws, u ≠ v → ¬inW u (spadBase n + v.off + j)) → t.rdByte (spadBase n + v.off + j) = h))
      ∧ (∀ a tag, s.atWord n (bnat e) (.dma a tag) →
          let off := x.s.getD a 0
          let raw := s.spadRead n off 32
          let d := DmaD.parse raw
          let o := exec (.dma n e) s
          (x.tags.getD tag none ≠ none → o = .next s)
          ∧ (x.tags.getD tag none = none → off % 32 = 0 → off + 32 ≤ s.spadBytes n → s.spadBad n off 32 = none →
            (s.spadBytes n < d.spoff + d.spLen → s.engineStops n (bnat e) 3 5 x.pc o)
            ∧ (d.spoff + d.spLen ≤ s.spadBytes n → d.ok = false → s.engineStops n (bnat e) 2 1 x.pc o)
            ∧ (d.spoff + d.spLen ≤ s.spadBytes n → d.ok = true →
                (s.coreCtx n).extent (s.reachOf n) (if d.toDram then .write else .read) d.vaddr d.vLen = .ok () →
                s.entriesSound n [d.vaddr] →
              ∃ u t, o = .next t ∧ s.translated u ∧ u.engineIs t n (bnat e)
                (({ x with tags := x.tags.set tag (some raw) } : Sce).wordDone x.pc (x.pc + 1) []))))
      ∧ ∀ tag : BitVec 2,
          (x.tags.getD tag.toNat none = none → exec (.dmaTransferDone n e tag) s = .next s)
          ∧ ∀ raw, x.tags.getD tag.toNat none = some raw → Mem.wf s.dram.bytes = true →
              let d := DmaD.parse raw
              let ps := (List.range d.rows).flatMap (fun r => (List.range d.rowBytes).map (fun k =>
                ((d.vaddr + r * d.vpitch + k) % 2 ^ 64, d.spoff + r * d.spitch + k)))
              let mem := s.heldPas n (if d.toDram then .write else .read) (ps.map (·.1))
              let sp := ps.map (fun p => spadBase n + p.2)
              let src := if d.toDram then sp else mem
              let dst := if d.toDram then mem else sp
              s.unheld → mem.length = ps.length → dst.Nodup →
              ∃ t, exec (.dmaTransferDone n e tag) s = .next t
                ∧ s.worked t ∧ (∀ k, k ≠ n → s.cached t k)
                ∧ t.core n = { s.core n with
                    sce := (s.core n).sce.set (bnat e) { x with tags := x.tags.set tag.toNat none }
                    l1 := (t.core n).l1, priv := (t.core n).priv }
                ∧ (∀ (j a b : Nat), src[j]? = some a → dst[j]? = some b → s.chanDead b = false →
                    t.rdByte b = s.rdByte a ∧ (s.bad a = true → t.bad b = true))
                ∧ ∀ a, a ∉ dst → t.rdByte a = s.rdByte a)

/-- R294 to R296, R302, R397. -/
def Obligations.GridChecks : Prop :=
  (∀ (s : State) (id : Nat) (d : Desc), s.desc? id = some d → s.canStart d = true →
    let run : Desc := { d with st := .running }
    let addr := d.fld 0x10 8
    (d.type = tyKernel →
      (addr % 64 ≠ 0 → s.gridOf id d.ctx addr (fun r => r) = .stop stPerm)
      ∧ (∀ pas, addr % 64 = 0 → (s.ctx d.ctx).extent .other .read addr 64 = .ok () →
          s.xlateSpan d.ctx .other .read addr 64 = .ok pas → (∀ a ∈ pas, s.bad a = false) →
          let b := s.rdAt pas
          (gridBlockOk b = false → s.gridOf id d.ctx addr (fun r => r) = .stop stPerm)
          ∧ (gridBlockOk b = true → leAt b 0 1 = 1 → leAt b 0x30 8 = 0 →
              (s.ctx d.ctx).extent .other .fetch (leAt b 0x10 8) 4 = .ok () →
            let size := if leAt b 2 1 ≠ 0 then leAt b 2 1 else
              match s.sim.image with | some i => i.gang.foldl max 1 | none => 1
            let fits := fun (m : VecMachine) => m.members.length = size
              ∧ (s.ctx d.ctx).scratch.1 ≤ size * s.spadBytes (m.members.headD 0)
            ((∃ m ∈ s.ple.vms, fits m) → ∃ g, s.gridOf id d.ctx addr (fun r => r) = .ok g ∧ g.kind = .program
              ∧ g.desc = id ∧ g.ctx = d.ctx ∧ g.block = b ∧ g.gm = leAt b 8 2 ∧ g.gn = leAt b 0xA 2 ∧ g.ks = 1
              ∧ g.gang = leAt b 2 1 ∧ g.hint = leAt b 3 1 ∧ g.vmMax = leAt b 4 2 ∧ g.next = 0 ∧ g.running = []
              ∧ g.ended = [] ∧ g.stopping = false)
            ∧ ((∀ m ∈ s.ple.vms, ¬fits m) → s.gridOf id d.ctx addr (fun r => r) = .stop stLimit)))
      ∧ ∃ t, exec (.kernel id) s = .next t ∧
        match s.gridOf id d.ctx addr (fun r => r) with
        | .ok g => s.ctxSound d.ctx ((g.blocksRead addr).flatMap (fun b => vAddrs b.1 b.2)) →
            { s with ple := t.ple, qmg := t.qmg, xlt := { s.xlt with rtb := t.xlt.rtb, rtbMiss := t.xlt.rtbMiss } }.worked t
            ∧ t.dram.bytes = s.dram.bytes ∧ (∀ k, s.cached t k)
            ∧ t.desc? id = some { run with ready := true } ∧ t.ple.grids = s.ple.grids ++ [g]
            ∧ t.ple.vms = s.ple.vms ∧ t.ple.cells = s.ple.cells
            ∧ (g.kind = .product → t.ple.lastKs = g.ks ∧ t.ple.lastGm = g.gm ∧ t.ple.lastGn = g.gn)
            ∧ (g.kind ≠ .product → t.ple.pins = s.ple.pins)
        | .stop st => t.cores = s.cores ∧ t.dram = s.dram ∧ t.ple = s.ple
            ∧ ∃ e, t.desc? id = some e ∧ e.st = .ended ∧ e.status = pickStatus (d.marks ++ [st])
        | .xlate _ _ => t.cores = s.cores ∧ t.dram = s.dram ∧ t.ple = s.ple ∧ t.desc? id = some { run with waiting := true }
        | .wait => t.cores = s.cores ∧ t.dram = s.dram ∧ t.ple = s.ple ∧ t.desc? id = some run
        | .poison _ => (s.ctx d.ctx).live = true → Tab.wf Ctx.none s.ctxs = true → (t.ctx d.ctx).killed = true)
    ∧ (d.type = tyChain → ∃ t g, exec (.chainDescriptor id) s = .next t ∧ t = { s with ple := t.ple, qmg := t.qmg }
        ∧ t.desc? id = some { run with ready := true } ∧ t.ple = { s.ple with grids := s.ple.grids ++ [g] }
        ∧ g.kind = .chain ∧ g.desc = id ∧ g.ctx = d.ctx ∧ g.load = d.fld 0x10 8 ∧ g.startAt = d.fld 0x18 8
        ∧ g.engine = d.fld 0x22 1 ∧ g.hint = d.fld 0x23 1 ∧ g.vmMax = d.fld 0x24 2 ∧ g.gm = d.fld 0x20 2 ∧ g.gn = 1
        ∧ g.next = 0 ∧ g.running = [] ∧ g.stopping = false))
  ∧ ∀ (d : MxD) (acc : NumFmt) (ks v : Nat),
      let tm := ceilDiv d.m (gridUnits d.c).1
      let tn := ceilDiv d.n (gridUnits d.c).2
      let gn := fun (gm : Nat) => min tn (v / (gm * ks))
      let cand := fun (gm : Nat) => 1 ≤ gm ∧ gm ≤ min v tm ∧ gn gm ≠ 0 ∧ gridCapOk d acc gm = true
      let area := fun (gm : Nat) => ceilDiv tm gm * ceilDiv tn (gn gm)
      (gridAuto d acc ks v = none ↔ ∀ gm, ¬cand gm)
      ∧ ∀ a b, gridAuto d acc ks v = some (a, b) → cand a ∧ b = gn a ∧ ∀ gm, cand gm →
          area a < area gm ∨ area a = area gm ∧ (a + gn a < gm + gn gm ∨ a + gn a = gm + gn gm ∧ a ≤ gm)

/-- R77, R297, R299, R305, R309, R482. -/
def Obligations.CellStart : Prop :=
  ∀ (s : State) (id : Nat) (g : Grid), s.grid? id = some g → s.cores.length = 64 →
    let starts := fun (m : VecMachine) => ∃ rest, m.members = m.members.headD 0 :: rest ∧ m.members.Nodup
      ∧ (∀ k ∈ m.members, k < 64 ∧ s.machineOf k = m.members)
    let fresh := fun (t : State) (m : VecMachine) (w : Work) (f : Core → Core) =>
      { s with ple := t.ple, ctxs := t.ctxs, flt := t.flt, xlt := { s.xlt with rtb := t.xlt.rtb, rtbMiss := t.xlt.rtbMiss } }.worked t
      ∧ t.core (m.members.headD 0) = f { (s.core (m.members.headD 0)).fresh with
          run := .running, ctxValid := true, ctx := g.ctx, work := w, desc := id }
      ∧ (∀ k ∈ m.members, k ≠ m.members.headD 0 → t.core k = { (s.core k).fresh with
          run := .running, ctxValid := true, ctx := g.ctx, desc := id })
      ∧ (∀ k, k ∉ m.members → s.cached t k)
      ∧ ∀ a, ((∃ k ∈ m.members, inSpad k a) → t.rdByte a = 0) ∧ ((∀ k ∈ m.members, ¬inSpad k a) → t.rdByte a = s.rdByte a)
    (s.calm →
      (s.cellDue g = false → exec (.cellStart id) s = .next s)
      ∧ (s.cellDue g = true →
        (s.pickVm g g.next = .later → exec (.cellStart id) s = .next s)
        ∧ (s.pickVm g g.next = .unfit → id ≠ 0 → ∃ t, exec (.cellStart id) s = .next t ∧ t.ple.cells = s.ple.cells
            ∧ ∀ h, t.grid? id = some h → h.stopping = true)
        ∧ ∀ m, s.pickVm g g.next = .run m →
          ((∃ k ∈ m.members, (s.island (k / 8)).st ≠ .running) → s.pcm.islands.length = 18 → (∀ k ∈ m.members, k < 64) →
            ∃ t, exec (.cellStart id) s = .next t ∧ t = { s with pcm := { s.pcm with islands := t.pcm.islands } }
              ∧ ∀ k ∈ m.members, (s.island (k / 8)).st = .lull ∨ (s.island (k / 8)).st = .calm ∨ (s.island (k / 8)).st = .off →
                  (t.island (k / 8)).waking = true)
          ∧ ((∀ k ∈ m.members, (s.island (k / 8)).st = .running) →
            ∃ t, exec (.cellStart id) s = .next t ∧ t.ple.cells = s.ple.cells + 1
              ∧ (g.kind = .program → starts m → Mem.wf s.dram.bytes = true →
                let lead := m.members.headD 0
                fresh t m (.cell id g.next) (fun c => { c with
                  g := (t.core lead).g, pc := BitVec.ofNat 64 (leAt g.block 0x10 8) })
                ∧ (t.core lead).rg 1 = BitVec.ofNat 64 (leAt g.block 0x18 8)
                ∧ (t.core lead).rg 2 = BitVec.ofNat 64 (g.next / g.gn) ∧ (t.core lead).rg 3 = BitVec.ofNat 64 (g.next % g.gn)
                ∧ (t.core lead).rg 4 = BitVec.ofNat 64 g.gm ∧ (t.core lead).rg 5 = BitVec.ofNat 64 g.gn
                ∧ (t.core lead).rg 6 = BitVec.ofNat 64 (s.ctx g.ctx).scratch.2 ∧ (∀ r, 6 < r.toNat → (t.core lead).rg r = 0)
                ∧ t.grid? id = some { g with next := g.next + 1, running := g.running ++ [(g.next, lead)] })
              ∧ (g.kind = .product → starts m → Mem.wf s.dram.bytes = true → (s.core (m.members.headD 0)).mx.close = true →
                s.ctxSound g.ctx (((MxD.parse g.mraw).extents none).map (·.1)) →
                fresh t m (.product id g.next) (fun c => c))))
      )
    ∧ (g.ready = [] ∨ s.working = false ∨ g.stopping = true → exec (.splitKCombine id) s = .next s)
    ∧ (∀ w r m, g.ready = w :: r → s.working = true → g.stopping = false →
        s.chooseVm g (w * g.ks) (s.ple.vms.filter (fun m => s.vmFree m && s.recheckOk g m)) = some m →
        (∀ k ∈ m.members, (s.island (k / 8)).st = .running) → starts m → Mem.wf s.dram.bytes = true →
      ∃ t, exec (.splitKCombine id) s = .next t ∧ fresh t m (.combine id w) (fun c => c) ∧ t.ple.cells = s.ple.cells
        ∧ t.grid? id = some { g with ready := r, combining := g.combining ++ [(w, m.members.headD 0)] })
    ∧ ∀ n w, n < 64 → (s.core n).work = .combine id w → (s.core n).ending = false → (s.core n).deliver = none → s.unheld →
        (s.core n).sb = [] → s.badOf ((s.combineEls n g w).flatMap (fun r => r.flatMap (·.2.2))) = none →
        (MxD.parse g.mraw).status = 0 → Mem.wf s.dram.bytes = true →
      (∃ t, exec (.combineDone n) s = .next t ∧ (t.core n).run = .idle ∧ (t.core n).ctxValid = false
        ∧ (t.core n).work ≠ .combine id w
        ∧ ∀ a, (∀ o ∈ s.combineOuts n g w, a ∉ o.cells.map (·.1)) → t.rdByte a = s.rdByte a)
      ∧ ∀ acc i j, 0 < g.ks →
        let add := fun (p q : Nat) => acc.fp.sum .rne true [acc.fp.decode p, acc.fp.decode q]
        let part := fun k => leNat (s.rdAt (s.heldPas n .read
          (vAddrs (leAt g.block 0x20 8 + acc.bytes * ((k * (MxD.parse g.mraw).m + i) * (MxD.parse g.mraw).n + j)) acc.bytes)))
        let t := treeLoop add g.ks g.ks 1 (fun k => (some (part k), 0))
        let old := leNat (s.rdAt (s.heldPas n .read (vAddrs ((MxD.parse g.mraw).c.addr i j) acc.bytes)))
        let e := s.combineEl n g (MxD.parse g.mraw) acc i j
        e.1 = (if (MxD.parse g.mraw).init = 1 then (add old (t.1.getD 0)).1 else t.1.getD 0)
        ∧ e.2.1 = (if (MxD.parse g.mraw).init = 1 then t.2 ||| (add old (t.1.getD 0)).2 else t.2)

/-- R312 to R315, R320, R401. -/
def Obligations.PhaseMoves : Prop :=
  (∀ (s : State) (id : Nat) (d : Desc), s.desc? id = some d → s.canStart d = true → d.type = tyPhase → d.marks = [] →
    let va := d.fld 0x10 8
    let ended := fun (t : State) (st : Nat) => ∃ e, t.desc? id = some e ∧ e.st = .ended ∧ e.status = st
    (va % 8 ≠ 0 → ∃ t, exec (.phase id) s = .next t ∧ ended t stPerm ∧ t.ple = s.ple ∧ t.dram = s.dram ∧ t.ctxs = s.ctxs)
    ∧ ∀ p0 pas, va % 8 = 0 → s.xlateSpan d.ctx .other .read va 8 = .ok p0 → (∀ a ∈ p0, s.sound a) →
        let n := leNat ((s.rdAt p0).take 1)
        s.xlateSpan d.ctx .other .read va (8 + 8 * n) = .ok pas → (∀ a ∈ pas, s.sound a) → 1 ≤ n → n ≤ 64 →
          s.ctxSound d.ctx (vAddrs va (8 + 8 * n)) →
        let es := planEnts (s.rdAt pas) n
        let kept := s.ple.moves.filter (fun m => m.started || decide (m.ctx ≠ d.ctx) || !es.any (fun e => decide (e.range = m.range)))
        let s0 : State := { s with ple := { s.ple with moves := kept } }
        let mv := fun (e : PlanEnt) => e.moves ((s.ctx d.ctx).range e.range)
        (planOk (s.rdAt pas) n = false ∨ es.any (s.planEntBad d.ctx) = true →
          ∃ t, exec (.phase id) s = .next t ∧ ended t stPerm ∧ t.ple = s.ple ∧ t.dram.bytes = s.dram.bytes ∧ t.ctxs = s.ctxs)
        ∧ (planOk (s.rdAt pas) n = true → es.any (s.planEntBad d.ctx) = false →
          (s0.planAlloc d.ctx es = none →
            ∃ t, exec (.phase id) s = .next t ∧ ended t stLimit ∧ t.ple = s.ple ∧ t.dram.bytes = s.dram.bytes ∧ t.ctxs = s.ctxs)
          ∧ ∀ u, s0.planAlloc d.ctx es = some u → ∃ t, exec (.phase id) s = .next t ∧ ended t stOk
            ∧ t.ctxs = s.ctxs ∧ t.dram.bytes = s.dram.bytes ∧ (∀ k, s.cached t k) ∧ t.host.mem = s.host.mem ∧ t.xlt.win = s.xlt.win
            ∧ (∃ e, t.desc? id = some e ∧ e.detail = BitVec.ofNat 64 (es.countP mv))
            ∧ (∀ e ∈ es, mv e = true → ∃ m ∈ t.ple.moves, m.ctx = d.ctx ∧ m.range = e.range ∧ m.cls = e.cls ∧ m.started = false)
            ∧ ∀ m ∈ kept, m ∈ t.ple.moves))
  ∧ (∀ (s : State) (c i : Nat),
      (s.ple.moveClose = true ∨ 2 ≤ s.flt.svpStage ∨ 8 ≤ (s.ple.moves.filter (·.started)).length ∨ s.working = false
          ∨ ((s.ctx c).range i).draining = true →
        exec (.moveStart c i) s = .next s)
      ∧ (∀ m, s.ple.moveClose = false → s.flt.svpStage < 2 → (s.ple.moves.filter (·.started)).length < 8 → s.working = true →
          ((s.ctx c).range i).draining = false →
          s.ple.moves.find? (fun m => decide (m.ctx = c) && decide (m.range = i)) = some m → Tab.wf Ctx.none s.ctxs = true →
        (m.started = false → m.newSegs = [] → s.alloc m.cls m.home (((s.ctx c).range i).len / 65536) = none →
          exec (.moveStart c i) s = .next s)
        ∧ (m.started = true ∨ m.newSegs ≠ [] ∧ (s.dram.filling ≠ [] ∨ (∃ d ∈ s.qmg.descs, s.descNames d c i = true)) →
          exec (.moveStart c i) s = .next s)
        ∧ (m.started = false → m.newSegs ≠ [] → s.dram.filling = [] → (∀ d ∈ s.qmg.descs, s.descNames d c i = false) →
            Tab.wf Range.none (s.ctx c).ranges = true → ((s.ctx c).range i).valid = true →
          ∃ t, exec (.moveStart c i) s = .next t ∧ t = { s with ctxs := t.ctxs, ple := t.ple, xlt := t.xlt, dram := s.dram.setClasses m.newSegs m.cls }
            ∧ (t.ctx c).range i = { (s.ctx c).range i with switching := true }
            ∧ (∀ j, j ≠ i → (t.ctx c).range j = (s.ctx c).range j) ∧ (∀ k, k ≠ c → t.ctx k = s.ctx k)
            ∧ { m with started := true } ∈ t.ple.moves ∧ t.ple.moves.length = s.ple.moves.length
            ∧ t.xlt = { s.xlt with rtb := t.xlt.rtb }))
      ∧ ((∀ m ∈ s.ple.moves, m.ctx = c → m.range = i → m.started = false) → exec (.moveCopyDone c i) s = .next s)
      ∧ ∀ m, s.ple.moves.find? (fun m => decide (m.ctx = c) && decide (m.range = i) && m.started) = some m →
        (s.inUse c [i] = true ∨ s.trainsAt (((s.ctx c).range i).blocks.flatMap (fun b => addrs (b * 65536) 65536)) = true
            ∨ s.trainsAt (({ (s.ctx c).range i with segs := m.newSegs } : Range).blocks.flatMap (fun b => addrs (b * 65536) 65536)) = true →
          exec (.moveCopyDone c i) s = .next s)
        ∧ (s.inUse c [i] = false → Mem.wf s.dram.bytes = true → Tab.wf Ctx.none s.ctxs = true →
            Tab.wf Range.none (s.ctx c).ranges = true →
          let r := (s.ctx c).range i
          let new : Range := { r with segs := m.newSegs, cls := m.cls, home := m.home, switching := false }
          let src := r.blocks.flatMap (fun b => addrs (b * 65536) 65536)
          let dst := new.blocks.flatMap (fun b => addrs (b * 65536) 65536)
          r.valid = true → s.trainsAt src = false → s.trainsAt dst = false → dst.Nodup → (∀ a ∈ dst, s.chanDead a = false ∧ a ∉ src) →
          ∃ t, exec (.moveCopyDone c i) s = .next t
            ∧ t = { s with ctxs := t.ctxs, ple := t.ple, xlt := { s.xlt with rtb := t.xlt.rtb }, dram := t.dram, mcu := t.mcu, cores := t.cores }
            ∧ (∀ k, s.cached t k)
            ∧ (t.ctx c).range i = new ∧ (∀ j, j ≠ i → (t.ctx c).range j = (s.ctx c).range j) ∧ (∀ k, k ≠ c → t.ctx k = s.ctx k)
            ∧ (∀ (j a b : Nat), src[j]? = some a → dst[j]? = some b → t.rdByte b = s.rdByte a)
            ∧ (∀ a, a ∉ dst → t.rdByte a = s.rdByte a) ∧ (∀ b ∈ r.blocks, nsHas t.dram.clean b = false)
            ∧ t.ple.moveBytes = s.ple.moveBytes + BitVec.ofNat 64 r.len ∧ m ∉ t.ple.moves))
  ∧ ∀ s : State, s.serves .ple →
      (∀ b, exec (.cellClose b) s = .next { s with ple := { s.ple with cellClose := b } }
        ∧ exec (.moveClose b) s = .next { s with ple := { s.ple with moveClose := b } })
      ∧ exec .pleCntReset s = .next { s with ple := { s.ple with moveBytes := 0, cells := 0, swaps := 0 } }

/-- R324: the address map is one to one, before and after an exclusion. -/
def Obligations.AddressMap : Prop :=
  (∀ (m : Dram) (pa pb f : Nat), pa < 2 ^ 39 → pb < 2 ^ 39 → f < 256 →
    (mapClass (m.classOf (pa / 2 ^ 24)) pa).ch < 256 ∧ (mapClass (m.classOf (pa / 2 ^ 24)) pa).row < 32768
    ∧ (mapClass (m.classOf (pa / 2 ^ 24)) pa).off < 65536
    ∧ (mapClass (m.classOf (pa / 2 ^ 24)) pa = mapClass (m.classOf (pb / 2 ^ 24)) pb → pa = pb)
    ∧ (pa < 32640 * 2 ^ 24 → pb < 32640 * 2 ^ 24 →
      (exclMap f (mapClass (m.classOf (pa / 2 ^ 24)) pa)).ch ≠ f
      ∧ (exclMap f (mapClass (m.classOf (pa / 2 ^ 24)) pa) = exclMap f (mapClass (m.classOf (pb / 2 ^ 24)) pb) → pa = pb)))
    ∧ (mapClass 0 0x1234567890).ch = 206 ∧ (mapClass 0 0x1234567890).chaddr = 0x12345690
    ∧ (mapClass 2 0x1234567890).ch = 139 ∧ (mapClass 2 0x1234567890).chaddr = 0x1232B390
    ∧ (exclMap 206 (mapClass 0 0x1234567890)).ch = 70 ∧ (exclMap 206 (mapClass 0 0x1234567890)).chaddr = 0x7F925690
    ∧ ∀ spad o p : Nat, 1 ≤ spad → o < spad * 0x80000 →
        spadBank spad o = (o >>> 6) % (8 * spad) ∧ spadRow spad o = (o >>> 6) / (8 * spad)
        ∧ spadBank spad o < 8 * spad ∧ spadRow spad o < 1024
        ∧ (spadBank spad o = spadBank spad p → spadRow spad o = spadRow spad p → o % 64 = p % 64 → o = p)

/-- R326 to R331, R334, R338, R339, R346, R349: from the slice to the controller. -/
def Obligations.SlicesAndControllers : Prop :=
  ∀ s : State, s.mcu.length = 8 → (∀ m ∈ s.mcu, m.ch.length = 32) → Tab.wf DirEntry.none s.dram.dir = true →
      Tab.wf NscLine.none s.dram.nsc = true →
    let kept := fun (t : State) => s.translated t ∧ t.xlt = s.xlt ∧ ∀ a, s.sound a → t.bad a = false
    (∀ r : SliceReq,
      let held := s.heldLines (s.waitsFor r.line (r.excl || r.write) (r.who.narrow || clsAllocates r.who.cls))
      (held ≠ [] →
        ∃ t, exec (.sliceRequest r) s = .next t ∧ t = { s with host := t.host } ∧ ∀ l ∈ held, nsHas t.host.bisnp (256 * l) = true)
      ∧ (held = [] →
        ∃ t, exec (.sliceRequest r) s = .next t ∧ kept t
          ∧ (∀ c, r.core = some c → r.excl = true ∨ r.write = true →
              Tab.get DirEntry.none t.dram.dir r.line = ⟨true, BitVec.ofNat 64 (2 ^ c), false⟩)
          ∧ (∀ c, r.core = some c → c < 64 → r.excl = false → r.write = false →
              (Tab.get DirEntry.none t.dram.dir r.line).sharers.getLsbD c = true)
          ∧ (r.write = false → (Tab.get NscLine.none s.dram.nsc r.line).valid = 0xFF → t.mcu = s.mcu)))
    ∧ (∀ i m, s.mcu[i]? = some m →
      (∀ k x, m.waiting[k]? = some x → x.narrow = true → (∀ j y, j < k → m.waiting[j]? = some y → y.narrow = false) →
        (m.narrow.length < 4096 →
          ∃ t, exec (.controllerAccept i true) s = .next t
            ∧ t = { s with mcu := s.mcu.set i { m with waiting := m.waiting.eraseIdx k, narrow := m.narrow ++ [x] } })
        ∧ (4096 ≤ m.narrow.length → exec (.controllerAccept i true) s = .next s))
      ∧ ((∃ x ∈ m.waiting, x.narrow = false ∧ x.cls < 4) → (∀ x ∈ m.waiting, x.cls < 4) →
        (m.normal.length < 12288 →
          ∃ t k x a, exec (.controllerAccept i false) s = .next t ∧ m.waiting[k]? = some x ∧ x.narrow = false
            ∧ (∀ j y, j < k → m.waiting[j]? = some y → y.narrow = true ∨ y.cls ≠ x.cls)
            ∧ t = { s with
                mcu := s.mcu.set i { m with classArb := a, waiting := m.waiting.eraseIdx k, normal := m.normal ++ [x] } })
        ∧ (12288 ≤ m.normal.length → exec (.controllerAccept i false) s = .next s))
      ∧ ∀ narrow k x, m.txn? narrow k = some x →
        (s.issuable i x = false ∨ s.slotGrant i narrow x = none → ∀ es,
          exec (.controllerReadComplete i narrow k es) s = .next s ∧ exec (.controllerWritePerformed i narrow k es) s = .next s)
        ∧ (x.write = false → s.slotGrant i narrow x ≠ none →
          (∃ t, exec (.controllerReadComplete i narrow k []) s = .next t ∧ kept t)
          ∧ ∀ y syn, y ∈ x.sectors → 32 * y < dramTop → s.chanDead (32 * y) = false →
            (s.copied (32 * y) = false → s.laterWrites x.seq y = [] →
              ∃ t, exec (.controllerReadComplete i narrow k [.uncorrectable y syn]) s = .next t ∧ t.dram.bytes = s.dram.bytes
                ∧ nsHas t.dram.poison y = true ∧ (∀ z, z ≠ y → s.sound (32 * z) → nsHas t.dram.poison z = false) ∧ t.ctxs = s.ctxs
                ∧ (t.stack ((s.chanOf (32 * y)).ch / 32)).ueCount = (s.stack ((s.chanOf (32 * y)).ch / 32)).ueCount + 1)
            ∧ (∃ t, exec (.controllerReadComplete i narrow k [.corrected y syn]) s = .next t ∧ t.dram.bytes = s.dram.bytes
              ∧ (∀ z, s.sound (32 * z) → nsHas t.dram.poison z = false) ∧ t.ctxs = s.ctxs
              ∧ (t.stack ((s.chanOf (32 * y)).ch / 32)).ceCount = (s.stack ((s.chanOf (32 * y)).ch / 32)).ceCount + 1))
        ∧ (x.write = true → s.slotGrant i narrow x ≠ none →
          ((∀ c ∈ s.chansOf x, (s.chan c).st ≠ .retraining) →
            ∃ t, exec (.controllerWritePerformed i narrow k []) s = .next t ∧ t = { s with mcu := t.mcu }
              ∧ t.stack i = { m.dropTxn narrow k with slots := (t.stack i).slots } ∧ ∀ j, j ≠ i → t.stack j = s.stack j)
          ∧ ∀ c p q, s.chansOf x = p ++ c :: q → (∀ d ∈ p, (s.chan d).st ≠ .retraining) → (s.chan c).st = .retraining →
            let w := { x with mask := s.maskOn x c }
            let sum := ((s.chan c).buffered.map Txn.bytes).sum + w.bytes
            ∃ t, exec (.controllerWritePerformed i narrow k []) s = .next t ∧ t = { s with mcu := t.mcu }
              ∧ (sum ≤ 65536 → (t.chan c).buffered = (s.chan c).buffered ++ [w])
              ∧ (65536 < sum → (t.chan c).buffered = (s.chan c).buffered ∧ (t.stack i).txn? narrow k = some x)))

/-- R338, R342, R446: errors found by the patrol scrub and in the device's own arrays. -/
def Obligations.ScrubAndSram : Prop :=
  ∀ s : State, s.mcu.length = 8 → (∀ m ∈ s.mcu, m.ch.length = 32) →
    (∀ i, i < 8 →
      let p := (s.stack i).patrolPos
      let ch := 32 * i + p / 2 ^ 26 % 32
      (s.asleep i = true ∨ (s.chan ch).st = .retraining → ∀ lo up, exec (.patrolScrub i lo up) s = .next s)
      ∧ (s.asleep i = false → (s.chan ch).st ≠ .retraining →
        (∃ t, exec (.patrolScrub i [] []) s = .next t
          ∧ t = { s with mcu := s.mcu.set i { s.stack i with patrolPos := (p + 1) % 2 ^ 31 } })
        ∧ ∀ syn k, s.patrolSector i p = some k → 32 * k < dramTop → s.chanDead (32 * k) = false → s.copied (32 * k) = false →
            s.laterWrites 0 k = [] → ∀ lo up, lo ++ up = [.uncorrectable k syn] →
          ∃ t, exec (.patrolScrub i lo up) s = .next t ∧ t.dram.bytes = s.dram.bytes
          ∧ (∀ z, nsHas t.dram.poison z = (nsHas s.dram.poison z || decide (z = k)))
          ∧ (t.stack ((s.chanOf (32 * k)).ch / 32)).ueCount = (s.stack ((s.chanOf (32 * k)).ch / 32)).ueCount + 1
          ∧ (t.stack i).patrolPos = (p + 1) % 2 ^ 31 ∧ t.cores = s.cores ∧ t.ctxs = s.ctxs))
    ∧ (∀ k, s.inSlice (32 * k) = true →
      ∃ t, exec (.sramUncorrectable (.slice k)) s = .next t ∧ t.dram.bytes = s.dram.bytes ∧ t.cores = s.cores
        ∧ ∀ z, nsHas t.dram.poison z = (nsHas s.dram.poison z || decide (z = k)))
    ∧ (∀ n k, spadBase n / 32 ≤ k → k < spadBase n / 32 + 0x20000 →
      ∃ t, exec (.sramUncorrectable (.localStore n k)) s = .next t ∧ t.dram.bytes = s.dram.bytes ∧ t.cores = s.cores
        ∧ ∀ z, nsHas t.dram.poison z = (nsHas s.dram.poison z || decide (z = k)))
    ∧ (∀ n k, 32 * k < dramTop →
      ∃ t, exec (.sramUncorrectable (.l1d n k)) s = .next t ∧ t.dram.bytes = s.dram.bytes ∧ t.cores = s.cores
        ∧ nsHas t.dram.poison k = true)
    ∧ (∀ n r, n < s.cores.length →
      (∃ t, exec (.sramUncorrectable (.scalarG n r)) s = .next t ∧ t.dram = s.dram
        ∧ t.core n = { s.core n with regPoison := .g r :: (s.core n).regPoison })
      ∧ (∃ t, exec (.sramUncorrectable (.vector n r)) s = .next t ∧ t.dram = s.dram
        ∧ t.core n = { s.core n with regPoison := .v r :: (s.core n).regPoison })
      ∧ (∀ e, e < (s.core n).sce.length → ∃ t, exec (.sramUncorrectable (.program n e r)) s = .next t ∧ t.dram = s.dram
        ∧ (t.engine n e).pm = (s.engine n e).pm ∧ r ∈ (t.engine n e).pmPoison)
      ∧ (∀ e, (s.core n).sb[r]? = some e → ∃ t, exec (.sramUncorrectable (.storeBuffer n r)) s = .next t ∧ t.dram = s.dram
        ∧ (t.core n).sb[r]? = some { e with poison := true } ∧ (t.core n).sb.length = (s.core n).sb.length)
      ∧ ∃ t, exec (.sramUncorrectable (.accumulator n r)) s = .next t ∧ t.dram = s.dram ∧ r ∈ (t.core n).mx.zPoison)
    ∧ (∀ n x, exec (.sramUncorrectable (.icache n)) s = .next s
      ∧ (∃ t, exec (.sramUncorrectable (.staging n)) s = .next t ∧ t.sim.staging = s.sim.staging ∧ n ∈ t.sim.stagingPoison)
      ∧ (∃ t, exec (.sramUncorrectable (.rtb n x)) s = .next t ∧ t = { s with xlt := t.xlt }
        ∧ x ∉ t.xlt.rtb.getD n [] ∧ ∀ y, y ≠ x → (y ∈ t.xlt.rtb.getD n [] ↔ y ∈ s.xlt.rtb.getD n [])))
    ∧ (Tab.wf LogRec.none s.flt.log = true → ∀ k,
      ∃ t, exec (.sramUncorrectable (.logRecord k)) s = .next t ∧ t.flt.lost = s.flt.lost + 1
        ∧ Tab.get LogRec.none t.flt.log k = LogRec.none ∧ t = { s with flt := t.flt })

/-- R350, with R347, R348, R351, R357: retraining from trigger to end. -/
def Obligations.Retraining : Prop :=
  ∀ s : State, s.mcu.length = 8 → (∀ m ∈ s.mcu, m.ch.length = 32) →
    (∀ i c, i < 8 → c < 32 →
      (s.serves (.mcu i) → (s.stack i).cmd.busy = false →
        (s.dev.frost = true →
          ∃ t, exec (.retrain i c) s = .next t ∧ t = { s with mcu := t.mcu } ∧ (t.stack i).cmd = ⟨false, (s.stack i).cmd.dropped, true, 1, 1⟩
            ∧ (t.stack i).ch = (s.stack i).ch)
        ∧ (s.dev.frost = false →
          ((s.chan (32 * i + c)).st ≠ .ready →
            ∃ t, exec (.retrain i c) s = .next t ∧ t = { s with mcu := t.mcu } ∧ (t.stack i).ch = (s.stack i).ch
              ∧ (t.stack i).cmd = ⟨false, (s.stack i).cmd.dropped, true, 1, 2⟩)
          ∧ ((s.chan (32 * i + c)).st = .ready →
            (s.stopped i = true →
              ∃ t, exec (.retrain i c) s = .next t ∧ t = { s with mcu := t.mcu } ∧ (t.stack i).ch = (s.stack i).ch
                ∧ (t.stack i).cmd = ⟨false, (s.stack i).cmd.dropped, true, 1, 3⟩)
            ∧ (s.asleep i = false → (s.stack i).retraining = none →
              ∃ t, exec (.retrain i c) s = .next t ∧ t = { s with mcu := t.mcu } ∧ (t.stack i).retraining = some c
                ∧ (t.chan (32 * i + c)).st = .retraining ∧ (t.stack i).cmd.busy = true
                ∧ ((s.chan (32 * i + c)).retrains ≠ 0xFFFF →
                    (t.chan (32 * i + c)).retrains = (s.chan (32 * i + c)).retrains + 1))
            ∧ ((s.chan (32 * i + c)).failed = false →
              ∃ t, exec (.declareFailed i c) s = .next t ∧ (t.chan (32 * i + c)).st = .failedReadable
                ∧ (t.chan (32 * i + c)).failed = true ∧ (t.stack i).cmd = ⟨false, (s.stack i).cmd.dropped, true, 2, 0⟩
                ∧ t.dram = s.dram ∧ t.dev.faultNew = true))))
      ∧ ((s.chan (32 * i + c)).st = .ready → s.asleep i = true ∨ (s.stack i).retraining ≠ none →
        ∃ t, exec (.parityError i c) s = .next t ∧ t = { s with mcu := t.mcu } ∧ c ∈ (t.stack i).retrainWait
          ∧ (t.stack i).ch = (s.stack i).ch)
      ∧ ((s.chan (32 * i + c)).st = .ready → s.asleep i = false → (s.stack i).retraining = none →
        (∃ t, exec (.parityError i c) s = .next t ∧ t = { s with mcu := t.mcu } ∧ (t.stack i).retraining = some c
          ∧ (t.chan (32 * i + c)).st = .retraining)
        ∧ ((s.stack i).turn = c →
          ∃ t, exec (.periodicRetrainTurn i) s = .next t ∧ t = { s with mcu := t.mcu } ∧ (t.stack i).retraining = some c
            ∧ (t.stack i).turn = (c + 1) % 32 ∧ (t.chan (32 * i + c)).st = .retraining))
      ∧ ((s.stack i).retraining = some c → (s.stack i).retrainWait = [] →
        ((s.chan (32 * i + c)).retrainTimes.length < 8 → (s.chan (32 * i + c)).failed = false →
          ∀ es, es = [] ∨ (s.chan (32 * i + c)).buffered.flatMap Txn.partialSectors = [] →
          ∃ t, exec (.retrainComplete ⟨i, es⟩) s = .next t ∧ t = { s with mcu := t.mcu } ∧ (t.chan (32 * i + c)).st = .ready
            ∧ (t.chan (32 * i + c)).buffered = [] ∧ (t.stack i).retraining = none)
        ∧ (s.now < (s.chan (32 * i + c)).retrainTimes.headD 0 + 20 → exec (.retrainTimeout i) s = .next s)
        ∧ ((s.chan (32 * i + c)).retrainTimes.headD 0 + 20 ≤ s.now →
          ∃ t, exec (.retrainTimeout i) s = .next t ∧ (t.chan (32 * i + c)).st = .failedUnreadable
            ∧ (t.chan (32 * i + c)).failed = true ∧ (t.chan (32 * i + c)).buffered = [] ∧ (t.stack i).retraining = none
            ∧ t.dev.faultNew = true ∧ t.dram = s.dram ∧ t.cores = s.cores
            ∧ (Tab.wf LogRec.none s.flt.log = true → s.flt.squall = false → s.flt.unread < 1023 →
                ∃ r, r = Tab.get LogRec.none t.flt.log s.flt.tail ∧ r.type = 7 ∧ r.cause = 1 ∧ r.index = i ∧ r.channel = c)
            ∧ (s.excl.inForce = none → t.excl.retiring = true)
            ∧ (∀ x, (x ∈ (t.stack i).normal ∨ x ∈ (t.stack i).narrow) → x.write = true ∨ t.maskOn x (32 * i + c) = 0)
            ∧ ∀ pa b, pa < dramTop → (t.chanOf pa).ch = 32 * i + c → t.copied pa = false →
                t.bad pa = true ∧ (t.store [(pa, b)]).dram.bytes = t.dram.bytes)))

/-- R352 to R355: an exclusion from its command to its end. EXCLUDE during a copy is the model's choice
(notes/assumptions/110.md). -/
def Obligations.ChannelExclusion : Prop :=
  ∀ s : State, s.mcu.length = 8 → (∀ m ∈ s.mcu, m.ch.length = 32) →
    (∀ i c, i < 8 → c < 32 → s.serves (.mcu i) → (s.stack i).cmd.busy = false → s.dev.frost = false →
        (s.chan (32 * i + c)).st = .failedReadable ∨ (s.chan (32 * i + c)).st = .failedUnreadable →
        (∀ k, k < 8 → s.stopped k = false) →
      (s.excl.inForce ≠ none ∨ s.excl.copying ≠ none →
        ∃ t, exec (.exclude i c) s = .next t ∧ t = { s with mcu := t.mcu } ∧ (t.stack i).ch = (s.stack i).ch
          ∧ (t.stack i).cmd = ⟨false, (s.stack i).cmd.dropped, true, 3, 4⟩)
      ∧ (s.excl.inForce = none → s.excl.copying = none →
        (s.evacDone = false →
          ∃ t, exec (.exclude i c) s = .next t ∧ t = { s with mcu := t.mcu } ∧ (t.stack i).ch = (s.stack i).ch
            ∧ (t.stack i).cmd = ⟨false, (s.stack i).cmd.dropped, true, 3, 5⟩)
        ∧ (s.evacDone = true →
          (s.ple.cellClose = false ∨ s.ple.moveClose = false ∨ s.ple.idle = false →
            ∃ t, exec (.exclude i c) s = .next t ∧ t = { s with mcu := t.mcu } ∧ (t.stack i).ch = (s.stack i).ch
              ∧ (t.stack i).cmd = ⟨false, (s.stack i).cmd.dropped, true, 3, 6⟩)
          ∧ (s.ple.cellClose = true → s.ple.moveClose = true → s.ple.idle = true →
            ∃ t, exec (.exclude i c) s = .next t ∧ t = { s with mcu := t.mcu, excl := t.excl }
              ∧ t.excl.copying = some (32 * i + c) ∧ t.excl.row = 0 ∧ (t.chan (32 * i + c)).st = .copying
              ∧ (t.stack i).cmd.busy = true))))
    ∧ (∀ f, f < 256 → s.excl.copying = some f → s.copyWaits f = false →
      let ks := s.rowSectors f s.excl.row
      ∃ t, exec .exclusionSliceCopy s = .next t ∧ t.ctxs = s.ctxs ∧ t.cores = s.cores
        ∧ (s.excl.dead = false →
            t.dram = (s.foundAll 0 ks (ks.map (fun k => copyFind (Config.copyRead s.free k) k))).dram)
        ∧ (s.excl.dead = true → t.dram.bytes = s.dram.bytes
            ∧ ∀ k ∈ ks, s.copied (32 * k) = false → nsHas t.dram.poison k = true)
        ∧ (s.excl.row + 1 < 32640 → t.excl.row = s.excl.row + 1 ∧ t.excl.copying = some f
            ∧ (s.excl.dead = true → t.mcu = s.mcu))
        ∧ (s.excl.row + 1 = 32640 → t.excl.inForce = some f ∧ t.excl.copying = none ∧ (t.chan f).st = .excluded
          ∧ (t.stack (f / 32)).cmd.busy = false ∧ (t.stack (f / 32)).cmd.code = 0 ∧ t.dev.faultNew = true
          ∧ ∀ pa, t.present pa = decide (pa < 510 * 2 ^ 30)))

/-- R364: which accesses are allowed, and which fail how. -/
def Obligations.Translation : Prop :=
  ∀ (x : Ctx) (w : Reach) (n : Need) (va : Nat),
    (∀ p, x.xlate w n va = .ok p → ∃ i r, (i, r) ∈ x.ranges ∧ r.valid = true ∧ r.vbase ≤ va ∧ va < r.vbase + r.len
      ∧ w.ok r.kind = true ∧ r.perm.getLsbD n.bit = true ∧ r.draining = false ∧ r.switching = false
      ∧ (r.kind = .device → p = .pa (r.target + (va - r.vbase)))
      ∧ (r.kind = .placed → p = .pa (r.segs.getD ((va - r.vbase) / 2 ^ 24) 0 + (va - r.vbase) % 2 ^ 24))
      ∧ (r.kind = .window → w = .copy ∧ p = .win i (va - r.vbase))
      ∧ (r.kind = .scratch → ∃ m, w = .cell m ∧ p = .pa (scratchPa m (va - r.vbase))))
    ∧ ((∀ e ∈ x.ranges, e.2.has va = false) → x.xlate w n va = .fault 4 va 0)
    ∧ (∀ i r, (i, r) ∈ x.ranges → r.has va = true → (∀ j q, (j, q) ∈ x.ranges → q.has va = true → j = i ∧ q = r) →
      (w.ok r.kind = false ∨ r.perm.getLsbD n.bit = false → x.xlate w n va = .fault 5 va i)
      ∧ (w.ok r.kind = true → r.perm.getLsbD n.bit = true → r.draining = true ∨ r.switching = true → x.xlate w n va = .wait))
    ∧ ∀ (s : State) (c len k v i : Nat), s.ctx c = x → s.xlateSpan c w n va len = .fault k v i →
        ∃ j, j < len ∧ v = (va + j) % 2 ^ 64 ∧ x.xlate w n v = .fault k v i
          ∧ ∀ m, m < j → ∃ p, x.xlate w n ((va + m) % 2 ^ 64) = .ok p

/-- R358, R360, R361, R76: making contexts and ranges. -/
def Obligations.ContextsAndRanges : Prop :=
  ∀ s : State, Tab.wf Ctx.none s.ctxs = true → (∀ c, Tab.wf Range.none (s.ctx c).ranges = true) →
    (s.serves .xlt → s.xlt.cmd.busy = false → ∀ c i, c < 4096 → i < 64 →
      (s.img (·.maxCtx) ≤ c →
        exec (.ctxCreate c) s = .next { s with xlt := { s.xlt with cmd := ⟨false, s.xlt.cmd.dropped, true, 1, 2⟩ } })
      ∧ (c < s.img (·.maxCtx) →
        ((s.ctx c).live = true →
          exec (.ctxCreate c) s = .next { s with xlt := { s.xlt with cmd := ⟨false, s.xlt.cmd.dropped, true, 1, 3⟩ } })
        ∧ ((s.ctx c).live = false → s.img (·.maxCtx) ≤ (s.ctxs.filter (fun e => e.2.live)).length →
          exec (.ctxCreate c) s = .next { s with xlt := { s.xlt with cmd := ⟨false, s.xlt.cmd.dropped, true, 1, 6⟩ } })
        ∧ ((s.ctx c).live = false → (s.ctxs.filter (fun e => e.2.live)).length < s.img (·.maxCtx) →
          ∃ t, exec (.ctxCreate c) s = .next t ∧ t = { s with xlt := { s.xlt with cmd := t.xlt.cmd }, ctxs := t.ctxs }
            ∧ t.xlt.cmd = ⟨false, s.xlt.cmd.dropped, true, 1, 0⟩ ∧ t.ctx c = ⟨true, false, [], List.replicate 16 0⟩
            ∧ ∀ k, k ≠ c → t.ctx k = s.ctx k))
      ∧ (s.img (·.maxCtx) ≤ c ∨ s.img (·.rangesPerCtx) ≤ i ∨ s.rangeArgOk (argBytes s.xlt.arg) = false →
        exec (.rangeCreate c i) s = .next { s with xlt := { s.xlt with cmd := ⟨false, s.xlt.cmd.dropped, true, 3, 2⟩ } })
      ∧ (c < s.img (·.maxCtx) → i < s.img (·.rangesPerCtx) → s.rangeArgOk (argBytes s.xlt.arg) = true →
        ((s.ctx c).live = false →
          exec (.rangeCreate c i) s = .next { s with xlt := { s.xlt with cmd := ⟨false, s.xlt.cmd.dropped, true, 3, 3⟩ } })
        ∧ ((s.ctx c).live = true → ((s.ctx c).range i).valid = true →
          exec (.rangeCreate c i) s = .next { s with xlt := { s.xlt with cmd := ⟨false, s.xlt.cmd.dropped, true, 3, 4⟩ } })
        ∧ ((s.ctx c).live = true → ((s.ctx c).range i).valid = false → ∀ r, r = s.rangeOf (argBytes s.xlt.arg) →
          ((s.ctx c).vOverlap r 64 = true ∨ (r.kind = .scratch ∧ ∃ e ∈ (s.ctx c).ranges, e.2.valid = true ∧ e.2.kind = .scratch)
              ∨ r.kind = .device ∧ s.deviceBlocksBad (s.assigned ++ s.pendingSpans) (r.target / 65536) (r.len / 65536) = true →
            exec (.rangeCreate c i) s = .next { s with xlt := { s.xlt with cmd := ⟨false, s.xlt.cmd.dropped, true, 3, 5⟩ } })
          ∧ ((s.ctx c).vOverlap r 64 = false →
            (r.kind = .placed → s.alloc r.cls (s.homeFor r.cls r.homeByte) (r.len / 65536) = none →
              exec (.rangeCreate c i) s = .next { s with xlt := { s.xlt with cmd := ⟨false, s.xlt.cmd.dropped, true, 3, 6⟩ } })
            ∧ (r.kind = .window ∨ r.kind = .scratch ∧ (∀ e ∈ (s.ctx c).ranges, e.2.valid = true → e.2.kind ≠ .scratch) →
              ∃ t, exec (.rangeCreate c i) s = .next t ∧ t = { s with xlt := t.xlt, ctxs := t.ctxs, dram := t.dram }
                ∧ t.dram.bytes = s.dram.bytes ∧ (t.ctx c).range i = r ∧ (∀ k, k ≠ i → (t.ctx c).range k = (s.ctx c).range k)
                ∧ (∀ k, k ≠ c → t.ctx k = s.ctx k) ∧ t.xlt.cmd = ⟨false, s.xlt.cmd.dropped, true, 3, 0⟩)
            ∧ (r.kind = .device → s.deviceBlocksBad (s.assigned ++ s.pendingSpans) (r.target / 65536) (r.len / 65536) = false →
              ∃ t q, exec (.rangeCreate c i) s = .next t ∧ t = { s with xlt := t.xlt, ctxs := t.ctxs, dram := t.dram }
                ∧ t.dram.bytes = s.dram.bytes ∧ q = { r with cls := s.dram.classOf (r.target / 2 ^ 24) }
                ∧ ((∀ b, r.target / 65536 ≤ b → b < r.target / 65536 + r.len / 65536 → nsHas s.dram.clean b = true) →
                    (t.ctx c).range i = q ∧ t.xlt.cmd = ⟨false, s.xlt.cmd.dropped, true, 3, 0⟩)
                ∧ ((∃ b, r.target / 65536 ≤ b ∧ b < r.target / 65536 + r.len / 65536 ∧ nsHas s.dram.clean b = false) →
                    t.ctxs = s.ctxs ∧ t.xlt.cmd.busy = true ∧ t.xlt.creating = some (c, i, q)))
            ∧ (r.kind = .placed → ∀ m segs, s.alloc r.cls (s.homeFor r.cls r.homeByte) (r.len / 65536) = some (m, segs) →
              ∃ t q, exec (.rangeCreate c i) s = .next t ∧ t = { s with xlt := t.xlt, ctxs := t.ctxs, dram := t.dram }
                ∧ t.dram.bytes = s.dram.bytes ∧ q = { r with home := s.homeFor r.cls r.homeByte, segs := segs }
                ∧ (t.xlt.cmd.busy = false ∧ t.xlt.cmd.code = 0 ∧ (t.ctx c).range i = q
                  ∨ t.xlt.cmd.busy = true ∧ t.ctxs = s.ctxs ∧ t.xlt.creating = some (c, i, q) ∧ t.xlt.fillWait ≠ []))))))
    ∧ (∀ c i r, s.xlt.creating = some (c, i, r) → s.dram.filling = [] → Mem.wf s.dram.bytes = true →
      ∃ t, exec .zeroFillComplete s = .next t ∧ (t.ctx c).range i = r ∧ (∀ k, k ≠ i → (t.ctx c).range k = (s.ctx c).range k)
        ∧ (∀ k, k ≠ c → t.ctx k = s.ctx k) ∧ t.xlt.cmd.busy = false ∧ t.xlt.cmd.code = 0 ∧ t.xlt.creating = none
        ∧ (s.xlt.tail = none → (∀ a, t.rdByte a = if s.xlt.fillWait.contains (a / 65536) then 0 else s.rdByte a)
          ∧ ∀ b ∈ s.xlt.fillWait, nsHas t.dram.clean b = true))

/-- R359, R371 to R373: draining commands from their write to DONE. -/
def Obligations.InvalidateAndDrain : Prop :=
  ∀ s : State, Tab.wf Ctx.none s.ctxs = true → (∀ c, Tab.wf Range.none (s.ctx c).ranges = true) →
      Tab.wf WinEntry.none s.xlt.win = true →
    (s.serves .xlt → s.xlt.cmd.busy = false → ∀ c i, c < s.img (·.maxCtx) → c < 4096 → i < s.img (·.rangesPerCtx) → i < 64 →
        (s.ctx c).live = true →
      (((s.ctx c).range i).valid = true →
        (s.rangeBusy c i = true →
          exec (.rangeDestroy c i) s = .next { s with xlt := { s.xlt with cmd := ⟨false, s.xlt.cmd.dropped, true, 4, 7⟩ } })
        ∧ (s.rangeBusy c i = false →
          ∃ t, exec (.rangeDestroy c i) s = .next t ∧ t = { s with xlt := t.xlt, ctxs := t.ctxs } ∧ t.xlt.cmd.busy = true
            ∧ t.xlt.drain = some (c, [i], .destroy i) ∧ (t.ctx c).range i = { (s.ctx c).range i with draining := true }
            ∧ (∀ k, k ≠ i → (t.ctx c).range k = (s.ctx c).range k) ∧ (∀ k, k ≠ c → t.ctx k = s.ctx k)
            ∧ ∀ l ∈ t.xlt.rtb, c * 64 + i ∉ l)
        ∧ (s.xlt.arg.getD 0 0 = BitVec.ofNat 64 (2 ^ i) →
          ∃ t, exec (.invalidate c) s = .next t ∧ t = { s with xlt := t.xlt, ctxs := t.ctxs } ∧ t.xlt.cmd.busy = true
            ∧ t.xlt.drain = some (c, [i], .invalidate) ∧ (t.ctx c).range i = { (s.ctx c).range i with draining := true }
            ∧ ∀ l ∈ t.xlt.rtb, c * 64 + i ∉ l)
        ∧ (s.rangeBusy c i = false → s.rangeArgOk (argBytes s.xlt.arg) = true → ∀ n, n = s.rangeOf (argBytes s.xlt.arg) →
            n.vbase = ((s.ctx c).range i).vbase → n.target = ((s.ctx c).range i).target → n.kind = ((s.ctx c).range i).kind →
            n.clsByte = ((s.ctx c).range i).clsByte → n.homeByte = ((s.ctx c).range i).homeByte → n.len ≤ ((s.ctx c).range i).len →
          ∃ t, exec (.rangeChange c i) s = .next t ∧ t = { s with xlt := t.xlt, ctxs := t.ctxs } ∧ t.xlt.cmd.busy = true
            ∧ t.xlt.drain = some (c, [i], .change i n.len n.perm)
            ∧ (t.ctx c).range i = { (s.ctx c).range i with draining := true })
        ∧ (((s.rangeOf (argBytes s.xlt.arg)).vbase ≠ ((s.ctx c).range i).vbase
              ∨ (s.rangeOf (argBytes s.xlt.arg)).kind ≠ ((s.ctx c).range i).kind) →
            exec (.rangeChange c i) s = .next { s with xlt := { s.xlt with cmd := ⟨false, s.xlt.cmd.dropped, true, 5, 2⟩ } }))
      ∧ ((∃ e ∈ s.qmg.queues, e.2.st ≠ .absent ∧ e.2.ctx = c) ∨ (∃ e ∈ (s.ctx c).ranges, s.rangeBusy c e.1 = true) →
        exec (.ctxDestroy c) s = .next { s with xlt := { s.xlt with cmd := ⟨false, s.xlt.cmd.dropped, true, 2, 7⟩ } })
      ∧ ((∀ e ∈ s.qmg.queues, e.2.st = .absent ∨ e.2.ctx ≠ c) → (∀ e ∈ (s.ctx c).ranges, s.rangeBusy c e.1 = false) →
        ∃ t, exec (.ctxDestroy c) s = .next t ∧ t = { s with xlt := t.xlt, ctxs := t.ctxs } ∧ t.xlt.cmd.busy = true
          ∧ t.xlt.drain = some (c, (s.ctx c).ranges.map (·.1), .destroyCtx)
          ∧ ∀ k, ((s.ctx c).range k).valid = true → ((t.ctx c).range k).draining = true)
      ∧ ∀ e, e < 16384 →
        ∃ t, exec (.winClose e) s = .next t ∧ t = { s with xlt := t.xlt } ∧ t.xlt.cmd.busy = true
          ∧ t.xlt.drain = some ((Tab.get WinEntry.none s.xlt.win e).ctx, [], .winClose e) ∧ t.xlt.win = s.xlt.win)
    ∧ (∀ c rs d, s.xlt.drain = some (c, rs, d) →
      (s.inUse c rs = true → exec .invalidateDrainEnd s = .next s)
      ∧ (s.inUse c rs = false → d ≠ .destroyCtx →
        ∃ t, exec .invalidateDrainEnd s = .next t ∧ t.xlt.drain = none ∧ (∀ k, s.cached t k) ∧ t.host = s.host
          ∧ (d = .invalidate → t.xlt.cmd = ⟨false, s.xlt.cmd.dropped, true, 6, 0⟩ ∧ t.dram = s.dram ∧ t.xlt.win = s.xlt.win
            ∧ ∀ k ∈ rs, (t.ctx c).range k = { (s.ctx c).range k with draining := false })
          ∧ (∀ i, d = .destroy i → rs = [i] → t.xlt.cmd = ⟨false, s.xlt.cmd.dropped, true, 4, 0⟩
            ∧ (t.ctx c).range i = Range.none ∧ t.dram.bytes = s.dram.bytes ∧ (∀ k, k ≠ i → (t.ctx c).range k = (s.ctx c).range k)
            ∧ (∀ e, (Tab.get WinEntry.none t.xlt.win e).valid = true →
                ¬((Tab.get WinEntry.none t.xlt.win e).ctx = c ∧ (Tab.get WinEntry.none t.xlt.win e).range = i))
            ∧ ∀ b ∈ ((s.ctx c).range i).blocks, nsHas t.dram.clean b = false)
          ∧ (∀ i len perm, d = .change i len perm → rs = [i] → ((s.ctx c).range i).valid = true → len ≤ ((s.ctx c).range i).len →
            t.xlt.cmd = ⟨false, s.xlt.cmd.dropped, true, 5, 0⟩ ∧ ((t.ctx c).range i).len = len ∧ ((t.ctx c).range i).perm = perm
            ∧ ((t.ctx c).range i).draining = false ∧ ((t.ctx c).range i).vbase = ((s.ctx c).range i).vbase
            ∧ t.dram.bytes = s.dram.bytes)
          ∧ (∀ i len perm, d = .change i len perm → rs = [i] → ((s.ctx c).range i).valid = true → ((s.ctx c).range i).len < len →
            t.xlt.cmd.busy = true → (t.ctx c).range i = (s.ctx c).range i ∧ t.dram.bytes = s.dram.bytes
              ∧ ∃ q, t.xlt.creating = some (c, i, q) ∧ q.len = len ∧ q.perm = perm ∧ q.draining = false)
          ∧ (∀ e, d = .winClose e → rs = [] → t.xlt.cmd = ⟨false, s.xlt.cmd.dropped, true, 9, 0⟩
            ∧ (Tab.get WinEntry.none t.xlt.win e).valid = false ∧ t.ctxs = s.ctxs ∧ t.dram = s.dram
            ∧ (Tab.get WinEntry.none t.xlt.win e).gen = (Tab.get WinEntry.none s.xlt.win e).gen + 1
            ∧ t.xlt.resultGen = (Tab.get WinEntry.none t.xlt.win e).gen
            ∧ ∀ k, k ≠ e → Tab.get WinEntry.none t.xlt.win k = Tab.get WinEntry.none s.xlt.win k)))
    ∧ (∀ c rs, s.xlt.drain = some (c, rs, .destroyCtx) → s.inUse c rs = false → s.xlt.unresolved = [] →
      ∃ t, exec .invalidateDrainEnd s = .next t ∧ t.ctx c = Ctx.none ∧ t.dram.bytes = s.dram.bytes
        ∧ (∀ k, k ≠ c → t.ctx k = s.ctx k) ∧ t.xlt.cmd = ⟨false, s.xlt.cmd.dropped, true, 2, 0⟩)

/-- R365, R367 to R370, R373: windows, fault records and buffers. -/
def Obligations.WindowsFaultsBuffers : Prop :=
  ∀ s : State, Tab.wf WinEntry.none s.xlt.win = true → Tab.wf FaultRec.none s.xlt.fq = true →
    (s.serves .xlt → s.xlt.cmd.busy = false →
      (∀ c i e, c < s.img (·.maxCtx) → c < 4096 → i < s.img (·.rangesPerCtx) → i < 64 → e < 16384 →
        (s.ctx c).live = true → ((s.ctx c).range i).valid = true →
        ((s.ctx c).range i).kind = .device ∨ ((s.ctx c).range i).kind = .placed →
        ∀ off len ports perm, off = leAt (argBytes s.xlt.arg) 0 8 → len = leAt (argBytes s.xlt.arg) 8 8 →
          ports = leAt (argBytes s.xlt.arg) 0x10 2 → perm = leAt (argBytes s.xlt.arg) 0x12 1 →
          off % 65536 = 0 → len % 65536 = 0 → 65536 ≤ len → ports ≠ 0 → perm < 4 → leAt (argBytes s.xlt.arg) 0x13 13 = 0 →
          off + len ≤ ((s.ctx c).range i).len → (bit perm 0 = true → ((s.ctx c).range i).perm.getLsbD 0 = true) →
          (bit perm 1 = true → ((s.ctx c).range i).perm.getLsbD 1 = true) →
        ((Tab.get WinEntry.none s.xlt.win e).valid = true →
          exec (.winOpen c i e) s = .next { s with xlt := { s.xlt with cmd := ⟨false, s.xlt.cmd.dropped, true, 8, 7⟩ } })
        ∧ ((Tab.get WinEntry.none s.xlt.win e).valid = false →
          ∃ t, exec (.winOpen c i e) s = .next t ∧ t = { s with xlt := t.xlt, dram := t.dram } ∧ t.dram.bytes = s.dram.bytes
            ∧ Tab.get WinEntry.none t.xlt.win e = ⟨true, (Tab.get WinEntry.none s.xlt.win e).gen + 1, c, i, off, len,
                BitVec.ofNat 16 ports, BitVec.ofNat 2 perm⟩
            ∧ t.xlt.resultGen = (Tab.get WinEntry.none s.xlt.win e).gen + 1
            ∧ (∀ k, k ≠ e → Tab.get WinEntry.none t.xlt.win k = Tab.get WinEntry.none s.xlt.win k)
            ∧ t.xlt.cmd = ⟨false, s.xlt.cmd.dropped, true, 8, 0⟩))
      ∧ (∀ a, s.xlt.arg.getD 0 0 = a →
        ((∀ u ∈ s.xlt.unresolved, u.rcd.fid ≠ a.toNat % 2 ^ 32) →
          (a.getLsbD 32 = false → exec .resolveRetry s = .next { s with xlt := { s.xlt with cmd := ⟨false, s.xlt.cmd.dropped, true, 7, 8⟩ } })
          ∧ (a.getLsbD 32 = true → exec .resolveEnd s = .next { s with xlt := { s.xlt with cmd := ⟨false, s.xlt.cmd.dropped, true, 7, 8⟩ } }))
        ∧ ∀ u id d, s.xlt.unresolved = [u] → u.rcd.fid = a.toNat % 2 ^ 32 → u.rcd.change = false → u.who = [.desc id] → id ≠ 0 →
            s.desc? id = some d → d.st = .running → d.marks = [] → d.type ≠ tyCheckpoint → d.type ≠ tyPhase → s.collOf id = none →
          (a.getLsbD 32 = false →
            ∃ t, exec .resolveRetry s = .next t ∧ t = { s with xlt := t.xlt, qmg := t.qmg } ∧ t.xlt.unresolved = []
              ∧ t.desc? id = some { d with waiting := false } ∧ t.xlt.cmd = ⟨false, s.xlt.cmd.dropped, true, 7, 0⟩)
          ∧ (a.getLsbD 32 = true →
            ∃ t d', exec .resolveEnd s = .next t ∧ t.xlt.unresolved = [] ∧ t.desc? id = some d' ∧ d'.st = .ended
              ∧ d'.status = stXlate ∧ t.xlt.cmd = ⟨false, s.xlt.cmd.dropped, true, 7, 0⟩ ∧ t.dram = s.dram ∧ t.ctxs = s.ctxs)))
    ∧ (∀ u us, s.xlt.unrecorded = u :: us →
      (s.xlt.fqRoom = false → exec .deferredFaultRecord s = .next s)
      ∧ (s.xlt.fqRoom = true →
        ∃ t, exec .deferredFaultRecord s = .next t ∧ t = { s with xlt := t.xlt, host := t.host } ∧ t.xlt.unrecorded = us
          ∧ Tab.get FaultRec.none t.xlt.fq s.xlt.fqTail = { u.rcd with fid := s.xlt.nextFid }
          ∧ t.xlt.fqTail = (s.xlt.fqTail + 1) % 256 ∧ t.xlt.nextFid = (if s.xlt.nextFid = 0xFFFFFFFF then 1 else s.xlt.nextFid + 1)
          ∧ t.xlt.unresolved = s.xlt.unresolved ++ [⟨{ u.rcd with fid := s.xlt.nextFid }, u.who, s.xlt.fqTail⟩]
          ∧ ∀ k, k ≠ s.xlt.fqTail → Tab.get FaultRec.none t.xlt.fq k = Tab.get FaultRec.none s.xlt.fq k))
    ∧ (∀ n range perm va g, n < s.cores.length → (s.core n).run = .running → (s.core n).ctxValid = true → (s.core n).ending = false →
        (s.core n).deliver = none → (s.core n).work.grid? = some g → s.xlt.fqRoom = true → s.xlt.unrecorded = [] →
      ∃ t r, exec (.changeRequest n range perm va) s = .next t ∧ (t.core n) = { s.core n with run := .waiting }
        ∧ Tab.get FaultRec.none t.xlt.fq s.xlt.fqTail = r ∧ r.change = true ∧ r.ctx = (s.core n).ctx ∧ r.range = range
        ∧ r.reqPerm = perm % 8 ∧ r.vaddr = va ∧ r.firstUnit = n ∧ r.fid = s.xlt.nextFid ∧ r.waiters = 1
        ∧ t.ctxs = s.ctxs ∧ t.dram = s.dram)
    ∧ (∀ buf c i, buf < s.xlt.rtb.length → ((s.ctx c).range i).valid = true → ((s.ctx c).range i).draining = false →
        (s.xlt.rtb.getD buf []).contains (c * 64 + i) = false → s.sound (32 * (64 * c + i)) →
      ∃ t, exec (.rtbFill buf c i) s = .next t ∧ s.translated t ∧ t.xlt.rtbMiss = s.xlt.rtbMiss + 1
        ∧ (t.xlt.rtb.getD buf []).contains (c * 64 + i) = true ∧ (t.xlt.rtb.getD buf []).length ≤ 256
        ∧ ∀ b, b ≠ buf → t.xlt.rtb.getD b [] = s.xlt.rtb.getD b [])

/-- R389, R408, R409: the queue manager's commands. -/
def Obligations.QueueCommands : Prop :=
  ∀ s : State, s.serves .qmg → Tab.wf Queue.none s.qmg.queues = true → Tab.wf Ctx.none s.ctxs = true →
    (s.qmg.cmd.busy = false → ∀ c slot q, c < 4096 → slot < 64 → q < 2 ^ 18 →
      (s.img (·.totalQueues) ≤ q →
        exec (.qCreate c slot q) s = .next { s with qmg := { s.qmg with cmd := ⟨false, s.qmg.cmd.dropped, true, 1, 2⟩ } }
        ∧ exec (.qDestroy q) s = .next { s with qmg := { s.qmg with cmd := ⟨false, s.qmg.cmd.dropped, true, 2, 2⟩ } })
      ∧ (q < s.img (·.totalQueues) →
        (c < s.img (·.maxCtx) → slot < s.img (·.queuesPerCtx) → qArgOk (argBytes s.qmg.arg) = true →
          ((s.ctx c).live = false →
            exec (.qCreate c slot q) s = .next { s with qmg := { s.qmg with cmd := ⟨false, s.qmg.cmd.dropped, true, 1, 3⟩ } })
          ∧ ((s.ctx c).live = true → (s.queue q).st ≠ .absent →
            exec (.qCreate c slot q) s = .next { s with qmg := { s.qmg with cmd := ⟨false, s.qmg.cmd.dropped, true, 1, 4⟩ } })
          ∧ ((s.ctx c).live = true → (s.ctx c).killed = false → (s.queue q).st = .absent →
              (∀ e ∈ s.queuesOf c, e.2.slot ≠ slot) → (s.queuesOf c).length < s.img (·.queuesPerCtx) →
            ∃ t, exec (.qCreate c slot q) s = .next t ∧ t = { s with qmg := t.qmg, dram := t.dram }
              ∧ t.dram.bytes = s.dram.bytes ∧ t.qmg.descs = s.qmg.descs ∧ t.qmg.cmd = ⟨false, s.qmg.cmd.dropped, true, 1, 0⟩
              ∧ t.queue q = ⟨.opened, c, slot, leAt (argBytes s.qmg.arg) 0 8, leAt (argBytes s.qmg.arg) 8 8,
                  leAt (argBytes s.qmg.arg) 0x10 1, leAt (argBytes s.qmg.arg) 0x12 2, 0, 0, 0, 0, true, false⟩
              ∧ ∀ k, k ≠ q → t.queue k = s.queue k))
        ∧ ((s.queue q).st = .absent →
          exec (.qDestroy q) s = .next { s with qmg := { s.qmg with cmd := ⟨false, s.qmg.cmd.dropped, true, 2, 4⟩ } })
        ∧ ((s.queue q).st = .opened ∨ (s.queue q).st = .closing ∨ (s.queue q).st = .aborting
            ∨ (s.queue q).st ≠ .absent ∧ s.inflight q ≠ [] →
          exec (.qDestroy q) s = .next { s with qmg := { s.qmg with cmd := ⟨false, s.qmg.cmd.dropped, true, 2, 6⟩ } })
        ∧ ((s.queue q).st = .closed ∨ (s.queue q).st = .dead → s.inflight q = [] →
          ∃ t, exec (.qDestroy q) s = .next t ∧ t = { s with qmg := t.qmg, dram := t.dram } ∧ t.dram.bytes = s.dram.bytes
            ∧ t.qmg.descs = s.qmg.descs ∧ t.queue q = Queue.none ∧ (∀ k, k ≠ q → t.queue k = s.queue k)
            ∧ t.qmg.cmd = ⟨false, s.qmg.cmd.dropped, true, 2, 0⟩)))
    ∧ ((s.ctx s.qmg.ctxSel).live = true →
      ∃ t, exec .ctxReset s = .next t ∧ t = { s with ctxs := t.ctxs }
        ∧ t.ctx s.qmg.ctxSel = { s.ctx s.qmg.ctxSel with totals := List.replicate 16 0 }
        ∧ ∀ k, k ≠ s.qmg.ctxSel → t.ctx k = s.ctx k)

/-- R403 to R405: Table 8 of Host interface and queues. -/
def Obligations.QueueActions : Prop :=
  ∀ (s : State) (q : Nat), s.serves .qmg → Tab.wf Queue.none s.qmg.queues = true → q < 2 ^ 18 →
    ((s.queue q).st = .absent →
      exec (.close q) s = .next { s with qmg := { s.qmg with qctlCode := 1 } }
      ∧ exec (.abort q) s = .next { s with qmg := { s.qmg with qctlCode := 1 } }
      ∧ exec (.reopen q) s = .next { s with qmg := { s.qmg with qctlCode := 1 } }
      ∧ exec (.clearOverrun q) s = .next { s with qmg := { s.qmg with qctlCode := 1 } })
    ∧ ((s.queue q).st ≠ .absent →
      ((s.queue q).st ≠ .opened → exec (.close q) s = .next { s with qmg := { s.qmg with qctlCode := 2 } })
      ∧ ((s.queue q).st ≠ .opened → (s.queue q).st ≠ .closing →
          exec (.abort q) s = .next { s with qmg := { s.qmg with qctlCode := 2 } })
      ∧ ((s.queue q).st ≠ .closed → exec (.reopen q) s = .next { s with qmg := { s.qmg with qctlCode := 2 } })
      ∧ ((s.queue q).st = .dead → exec (.clearOverrun q) s = .next { s with qmg := { s.qmg with qctlCode := 2 } })
      ∧ ((s.queue q).st = .opened →
        ∃ t, exec (.close q) s = .next t ∧ t = { s with qmg := t.qmg } ∧ t.qmg.descs = s.qmg.descs ∧ t.qmg.qctlCode = 0
          ∧ t.queue q = { s.queue q with st := if s.inflight q = [] then .closed else .closing }
          ∧ ∀ k, k ≠ q → t.queue k = s.queue k)
      ∧ ((s.queue q).st = .closed →
        ∃ t, exec (.reopen q) s = .next t ∧ t = { s with qmg := t.qmg } ∧ t.qmg.descs = s.qmg.descs ∧ t.qmg.qctlCode = 0
          ∧ t.queue q = { s.queue q with st := .opened } ∧ ∀ k, k ≠ q → t.queue k = s.queue k)
      ∧ ((s.queue q).st ≠ .dead →
        ∃ t, exec (.clearOverrun q) s = .next t ∧ t = { s with qmg := t.qmg } ∧ t.qmg.descs = s.qmg.descs ∧ t.qmg.qctlCode = 0
          ∧ t.queue q = { s.queue q with overrun := false } ∧ ∀ k, k ≠ q → t.queue k = s.queue k)
      ∧ ((s.queue q).st = .opened ∨ (s.queue q).st = .closing →
          (∀ d ∈ s.inflight q, d.st = .fetched ∧ d.marks = []) → (s.qmg.descs.map (·.id)).Nodup →
        ∃ t, exec (.abort q) s = .next t ∧ t.ctxs = s.ctxs ∧ t.dram = s.dram ∧ t.cores = s.cores ∧ t.host = s.host
          ∧ t.qmg.qctlCode = 0 ∧ t.queue q = { s.queue q with st := if s.inflight q = [] then .closed else .aborting }
          ∧ (∀ k, k ≠ q → t.queue k = s.queue k)
          ∧ ∀ d ∈ s.inflight q, ∃ d', t.desc? d.id = some d' ∧ d'.st = .ended ∧ d'.status = stCancelled ∧ d'.queue = q))

/-- R392, with R391: what a doorbell write does to its queue, and to nothing else but idle clocks. -/
def Obligations.Doorbells : Prop :=
  ∀ (s : State) (c slot v : Nat), c < 4096 → slot < 64 → v < 2 ^ 32 →
    (s.decodes = false ∨ s.dev.life ≠ .service →
      exec (.cqHeadWrite c slot v) s = .next s
      ∧ ∀ off size w, exec (.sqTailWrite c slot w) s = .next s ∧ exec (.registerWrite ⟨2, off⟩ size w) s = .next s)
    ∧ (∀ off size w, (off % 64 ≠ 0 ∨ (size ≠ 4 ∧ size ≠ 8)) → (off % 64 ≠ 8 ∨ size ≠ 4) →
        exec (.registerWrite ⟨2, off⟩ size w) s = .next s)
    ∧ (∀ w, w % 2 ^ 32 = v → exec (.sqTailWrite c slot w) s = exec (.sqTailWrite c slot v) s
      ∧ exec (.registerWrite ⟨2, 4096 * c + 64 * slot⟩ 4 v) s = exec (.sqTailWrite c slot v) s)
    ∧ (s.decodes = true → s.dev.life = .service → Tab.wf Queue.none s.qmg.queues = true →
      (s.slotQueue c slot = none →
        ∃ t, exec (.sqTailWrite c slot v) s = .next t ∧ exec (.cqHeadWrite c slot v) s = .next t
          ∧ t = { s with pcm := t.pcm })
      ∧ ∀ q x, s.slotQueue c slot = some (q, x) →
        s.queue q = x ∧ x.ctx = c ∧ x.slot = slot
        ∧ (x.st = .dead →
          ∃ t, exec (.sqTailWrite c slot v) s = .next t ∧ exec (.cqHeadWrite c slot v) s = .next t
            ∧ t = { s with pcm := t.pcm })
        ∧ (x.st ≠ .dead →
          (∃ t, exec (.sqTailWrite c slot v) s = .next t ∧ t = { s with pcm := t.pcm, qmg := t.qmg }
            ∧ t.qmg.descs = s.qmg.descs ∧ (∀ k, k ≠ q → t.queue k = s.queue k)
            ∧ t.queue q =
              if v < 2 ^ x.log2
                  ∧ ((x.tail + 2 ^ x.log2 - x.head) % 2 ^ x.log2 + (s.inflight q).length)
                    + (v + 2 ^ x.log2 - x.tail) % 2 ^ x.log2 ≤ 2 ^ x.log2 - 1 then
                { x with tail := v }
              else { x with overrun := true })
          ∧ ∃ t, exec (.cqHeadWrite c slot v) s = .next t ∧ t = { s with pcm := t.pcm, qmg := t.qmg }
            ∧ t.qmg.descs = s.qmg.descs ∧ (∀ k, k ≠ q → t.queue k = s.queue k)
            ∧ t.queue q = if v < 2 ^ x.log2 then { x with cqHead := v } else { x with overrun := true }))

/-- R387, R390, R393 to R395, R402: a descriptor from the ring to its record. -/
def Obligations.DescriptorFlow : Prop :=
  ∀ s : State, Tab.wf Queue.none s.qmg.queues = true →
    (s.working = true → s.host.busMaster = true → s.host.d3hot = false → ∀ q, s.fetchable q (s.queue q) = true →
        (∀ k, s.fetchable k (s.queue k) = true →
          (s.qmg.lastServed < k → s.qmg.lastServed < q ∧ q ≤ k)
          ∧ (k ≤ s.qmg.lastServed → s.qmg.lastServed < q ∨ q ≤ k)) →
        s.qmg.cached.contains q = true →
      ∃ t d, exec .descriptorFetch s = .next t ∧ t = { s with qmg := t.qmg } ∧ t.qmg.descs = s.qmg.descs ++ [d]
        ∧ d.queue = q ∧ d.index = (s.queue q).head ∧ d.ctx = (s.queue q).ctx ∧ d.st = .reading ∧ d.id = s.qmg.nextDesc
        ∧ t.queue q = { s.queue q with head := ((s.queue q).head + 1) % 2 ^ (s.queue q).log2 }
        ∧ (∀ k, k ≠ q → t.queue k = s.queue k) ∧ t.qmg.lastServed = q)
    ∧ (∀ q, s.qmg.reading.contains q = true → (∀ k ∈ s.storeSectors q, s.sound (32 * k)) → s.qmg.cached.length < 8192 →
      ∃ t, exec (.queueStateRead q) s = .next t ∧ { s with qmg := t.qmg }.translated t ∧ t.qmg.queues = s.qmg.queues
        ∧ t.qmg.descs = s.qmg.descs
        ∧ t.qmg.cached.contains q = true ∧ t.qmg.reading.contains q = false)
    ∧ (∀ id raw d, s.desc? id = some d → d.st = .reading → d.stop = false → raw.length = 64 →
      (descOk raw = true →
        ∃ t, exec (.descriptorReadReturn id raw false) s = .next t ∧ t = { s with qmg := t.qmg }
          ∧ t.desc? id = some { d with raw := raw, st := .fetched } ∧ ∀ k, k ≠ id → t.desc? k = s.desc? k)
      ∧ (descOk raw = false → d.marks = [] →
        ∃ t d', exec (.descriptorReadReturn id raw false) s = .next t ∧ t.ctxs = s.ctxs ∧ t.dram = s.dram ∧ t.cores = s.cores
          ∧ t.desc? id = some d' ∧ d'.st = .ended ∧ d'.status = stPerm ∧ d'.raw = raw ∧ t.qmg.ended = s.qmg.ended ++ [id]))
    ∧ (∀ q d, (s.qmg.ended.filterMap s.desc?).find? (fun x => decide (x.queue = q)) = some d →
        s.host.busMaster = true → s.host.d3hot = false → s.pcm.softBusy = false → Mem.wf s.host.mem = true →
      ((s.queue q).cqUsed < 2 ^ (s.queue q).log2 - 1 →
        ∃ t, exec (.completionRecordWrite q) s = .next t ∧ t.desc? d.id = none
          ∧ (t.queue q).cqTail = ((s.queue q).cqTail + 1) % 2 ^ (s.queue q).log2
          ∧ t.host.mem.readBytes ((s.queue q).cqBase + 32 * (s.queue q).cqTail) 32 = d.record (s.queue q).phase
          ∧ (∀ a, a < (s.queue q).cqBase + 32 * (s.queue q).cqTail ∨ (s.queue q).cqBase + 32 * (s.queue q).cqTail + 32 ≤ a →
              Mem.read t.host.mem a = Mem.read s.host.mem a)
          ∧ t.dram = s.dram ∧ t.ctxs = s.ctxs ∧ t.cores = s.cores)
      ∧ (2 ^ (s.queue q).log2 - 1 ≤ (s.queue q).cqUsed → exec (.completionRecordWrite q) s = .next s))

/-- R396, R399 to R401: the descriptors that the queue manager performs itself. -/
def Obligations.SimpleDescriptors : Prop :=
  ∀ (s : State) (id : Nat) (d : Desc), s.desc? id = some d → d.marks = [] →
    (s.canStart d = true →
      (d.type = tyFence →
        ∃ t d', exec (.fence id) s = .next t ∧ t.desc? id = some d' ∧ d'.st = .ended ∧ d'.status = stOk
          ∧ t.dram = s.dram ∧ t.ctxs = s.ctxs ∧ t.cores = s.cores ∧ t.host = s.host)
      ∧ (d.type = tyWait → ∀ pas, s.xlateSpan d.ctx .other .read (d.fld 0x10 8) 8 = .ok pas → (∀ a ∈ pas, s.sound a) →
          s.ctxSound d.ctx (vAddrs (d.fld 0x10 8) 8) →
        ∃ t d', exec (.wait id) s = .next t ∧ t.desc? id = some d' ∧ d'.detail = BitVec.ofNat 64 (leNat (s.rdAt pas))
          ∧ t.dram.bytes = s.dram.bytes ∧ t.ctxs = s.ctxs ∧ (∀ k, s.cached t k)
          ∧ (if (d.fld 0x20 1 = 0 ∧ d.fld 0x18 8 ≤ leNat (s.rdAt pas)) ∨ (d.fld 0x20 1 = 1 ∧ leNat (s.rdAt pas) = d.fld 0x18 8)
                ∨ (1 < d.fld 0x20 1 ∧ leNat (s.rdAt pas) ≠ d.fld 0x18 8) then
              d'.st = .ended ∧ d'.status = stOk
            else d'.st = .running))
      ∧ (d.type = tySignal → Mem.wf s.dram.bytes = true → ∀ pas pw,
          s.xlateSpan d.ctx .other .read (d.fld 0x10 8) 8 = .ok pas → s.xlateSpan d.ctx .other .write (d.fld 0x10 8) 8 = .ok pw →
          pas.length = 8 → pas.Nodup → (∀ a ∈ pas, s.sound a) → s.ctxSound d.ctx (vAddrs (d.fld 0x10 8) 8) → s.unheld →
        ∃ t d', exec (.signal id) s = .next t ∧ t.desc? id = some d' ∧ d'.st = .ended ∧ d'.status = stOk
          ∧ d'.detail = BitVec.ofNat 64 (leNat (s.rdAt pas)) ∧ t.ctxs = s.ctxs ∧ (∀ k, s.cached t k)
          ∧ leNat (t.rdAt pas) = (if d.fld 0x20 1 = 1 then leNat (s.rdAt pas) + d.fld 0x18 8 else d.fld 0x18 8) % 2 ^ 64
          ∧ ∀ a, a ∉ pas → t.rdByte a = s.rdByte a)
      ∧ (d.type = tyTimer →
        (∀ k x, s.pcm.timers[k]? = some x → x.due = none → x.held = none →
            (∀ j y, j < k → s.pcm.timers[j]? = some y → y.due ≠ none ∨ y.held ≠ none) →
          ∃ t d', exec (.timer id) s = .next t ∧ t.desc? id = some d' ∧ d'.st = .running ∧ d'.ready = true
            ∧ t.pcm = { s.pcm with timers := s.pcm.timers.set k ⟨some (s.now + d.fld 0x10 4), some id, x.expired⟩ }
            ∧ t = { s with pcm := t.pcm, qmg := t.qmg })
        ∧ ((∀ x ∈ s.pcm.timers, x.due ≠ none ∨ x.held ≠ none) → d.ready = false →
          ∃ t d', exec (.timer id) s = .next t ∧ t.desc? id = some d' ∧ d'.st = .running ∧ d'.ready = false
            ∧ t = { s with qmg := t.qmg }))
      ∧ (d.type = tyWait ∨ d.type = tySignal → (s.ctx d.ctx).at_ (d.fld 0x10 8 % 2 ^ 64) = none →
        ∃ t d', (d.type = tyWait → exec (.wait id) s = .next t) ∧ (d.type = tySignal → exec (.signal id) s = .next t)
          ∧ t.desc? id = some d' ∧ d'.st = .running ∧ d'.waiting = true ∧ t.dram = s.dram ∧ t.ctxs = s.ctxs
          ∧ (∃ u, (u ∈ t.xlt.unresolved ∨ u ∈ t.xlt.unrecorded) ∧ Waiter.desc id ∈ u.who ∧ u.rcd.ctx = d.ctx)))
    ∧ (d.type = tyWait → d.st = .running → d.waiting = false → s.working = true → ∀ pas,
        s.xlateSpan d.ctx .other .read (d.fld 0x10 8) 8 = .ok pas → (∀ a ∈ pas, s.sound a) →
        s.ctxSound d.ctx (vAddrs (d.fld 0x10 8) 8) →
      ∃ t d', exec (.waitReevaluate id) s = .next t ∧ t.desc? id = some d' ∧ d'.detail = BitVec.ofNat 64 (leNat (s.rdAt pas))
        ∧ t.dram.bytes = s.dram.bytes ∧ t.ctxs = s.ctxs ∧ (∀ k, s.cached t k)
        ∧ (if waitHolds (d.fld 0x20 1) (leNat (s.rdAt pas)) (d.fld 0x18 8) = true then d'.st = .ended ∧ d'.status = stOk
          else d'.st = .running))

/-- R398, R402, R405: a COPY between device memory and device memory. -/
def Obligations.CopyDescriptor : Prop :=
  ∀ (s : State) (id : Nat) (d : Desc), s.desc? id = some d → d.type = tyCopy →
    (s.canStart d = true → d.pos = 0 → d.marks = [] →
        ∀ ps pd : List Nat, s.xlateSpan d.ctx .copy .read (d.fld 0x10 8) (d.fld 0x20 8) = .ok ps →
          s.xlateSpan d.ctx .copy .write (d.fld 0x18 8) (d.fld 0x20 8) = .ok pd →
        (∀ a, (s.windowAt d.ctx a).isSome = false) → (∀ e ∈ (s.ctx d.ctx).ranges, s.sound (32 * (64 * d.ctx + e.1))) →
      (d.fld 0x10 8 < d.fld 0x18 8 + d.fld 0x20 8 → d.fld 0x18 8 < d.fld 0x10 8 + d.fld 0x20 8 →
        ∃ t d', exec (.copy id) s = .next t ∧ t.desc? id = some d' ∧ d'.st = .ended ∧ d'.status = stPerm
          ∧ d'.detail = d.detail ∧ t.dram = s.dram ∧ t.ctxs = s.ctxs ∧ t.cores = s.cores)
      ∧ (d.fld 0x18 8 + d.fld 0x20 8 ≤ d.fld 0x10 8 ∨ d.fld 0x10 8 + d.fld 0x20 8 ≤ d.fld 0x18 8 →
        ∃ t d', exec (.copy id) s = .next t ∧ { s with qmg := t.qmg }.translated t ∧ t.desc? id = some d' ∧ d'.st = .running
          ∧ d'.ready = true ∧ d'.pos = 0 ∧ d'.detail = BitVec.ofNat 64 (min 65536 (d.fld 0x20 8))))
    ∧ (d.st = .running → d.ready = true → d.waiting = false → s.winsOf id = [] → (∀ a, (s.windowAt d.ctx a).isSome = false) →
        0 < d.detail.toNat → d.pos = (d.detail.toNat - 1) / 65536 * 65536 → d.fld 0x10 8 + d.fld 0x20 8 ≤ 2 ^ 64 →
        d.fld 0x18 8 + d.fld 0x20 8 ≤ 2 ^ 64 → d.detail.toNat ≤ d.fld 0x20 8 → Mem.wf s.dram.bytes = true → ∀ ps pd : List Nat,
        (s.ctx d.ctx).held.span .copy .read (vAddrs (d.fld 0x10 8 + d.pos) (d.detail.toNat - d.pos)) = .ok ps →
        (s.ctx d.ctx).held.span .copy .write (vAddrs (d.fld 0x18 8 + d.pos) (d.detail.toNat - d.pos)) = .ok pd →
        ps.length = pd.length → pd.Nodup → (∀ a ∈ pd, s.chanDead a = false) → s.unheld →
        (∀ e ∈ (s.ctx d.ctx).ranges, s.sound (32 * (64 * d.ctx + e.1)) ∧ ∀ a ∈ pd, a / 32 ≠ 64 * d.ctx + e.1) →
      ∃ t d', exec (.copyChunkDone id) s = .next t ∧ t.desc? id = some d' ∧ d'.pos = d.detail.toNat
        ∧ (∀ (j a b : Nat), ps[j]? = some a → pd[j]? = some b → t.rdByte b = s.rdByte a)
        ∧ (∀ a, a ∉ pd → t.rdByte a = s.rdByte a) ∧ t.ctxs = s.ctxs ∧ (∀ k, s.cached t k)
        ∧ (d.fld 0x20 8 ≤ d.detail.toNat → d'.st = .ended ∧ d'.detail = d.detail
            ∧ d'.status = pickStatus (d.marks.filter (· ≠ stCancelled)))
        ∧ (d.detail.toNat < d.fld 0x20 8 → d.stop = true →
            d'.st = .ended ∧ d'.detail = d.detail ∧ d'.status = pickStatus d.marks))

/-- R340, R383, R385 to R387: CXL.mem as the device serves it. -/
def Obligations.HostMemory : Prop :=
  ∀ s : State,
    (s.alive = true → ∀ dpa,
      (s.decoded dpa = false → ∀ bs p, exec (.cxlMemRead dpa) s = .next s ∧ exec (.cxlMemWrite dpa bs p) s = .next s)
      ∧ (s.decoded dpa = true → s.hostReady dpa = true → (∀ x ∈ s.host.heldReqs, x.addr / 256 ≠ dpa / 256) →
        (s.hostGrants dpa false = true →
          ∃ t, exec (.cxlMemRead dpa) s = .next t ∧ t.dram.bytes = s.dram.bytes ∧ t.flt = s.flt
            ∧ t.ctxs = s.ctxs ∧ (∀ k, s.cached t k) ∧ (∀ a, s.sound a → t.sound a)
            ∧ t.host.answer = (List.range 64).map (fun k => s.rdByte (dpa / 64 * 64 + k))
            ∧ t.host.answerPoison = (List.range 64).any (fun k => s.bad (dpa / 64 * 64 + k)))
        ∧ (s.hostGrants dpa false = false →
          ∃ t, exec (.cxlMemRead dpa) s = .next t ∧ t.dram = s.dram ∧ t.host.answer = List.replicate 64 0
            ∧ t.host.answerPoison = false ∧ t.dev.faultNew = true ∧ t.ctxs = s.ctxs ∧ t.cores = s.cores)
        ∧ (s.hostGrants dpa true = true → Mem.wf s.dram.bytes = true → ∀ bs p, bs.length = 64 →
            (∀ k, k < 64 → s.chanDead (dpa / 64 * 64 + k) = false) →
          ∃ t, exec (.cxlMemWrite dpa bs p) s = .next t ∧ t.flt = s.flt ∧ t.ctxs = s.ctxs ∧ (∀ k, s.cached t k)
            ∧ (∀ a, t.rdByte a = if dpa / 64 * 64 ≤ a ∧ a < dpa / 64 * 64 + 64 then bs.getD (a - dpa / 64 * 64) 0 else s.rdByte a)
            ∧ ∀ k, nsHas t.dram.poison k = if k / 2 = dpa / 64 then p else nsHas s.dram.poison k)
        ∧ (s.hostGrants dpa true = false → ∀ bs p,
          ∃ t, exec (.cxlMemWrite dpa bs p) s = .next t ∧ t.dram = s.dram ∧ t.dev.faultNew = true ∧ t.ctxs = s.ctxs))
      ∧ (s.decoded dpa = true → dpa / 256 * 256 ∈ s.host.bisnp →
        ∃ t, exec (.cxlMemRead dpa) s = .next t ∧ t.host.heldReqs = s.host.heldReqs ++ [⟨dpa, false, [], false⟩]
          ∧ t.dram = s.dram ∧ t.host.answer = s.host.answer))
    ∧ (∀ dpa, (256 * (dpa / 256) ∉ s.host.bisnp → exec (.birsp dpa) s = .next s)
      ∧ (256 * (dpa / 256) ∈ s.host.bisnp → Tab.wf DirEntry.none s.dram.dir = true →
        ∃ u : State, exec (.birsp dpa) s = .next u.recalled ∧ 256 * (dpa / 256) ∉ u.host.bisnp
          ∧ (u.dirOf (dpa / 256)).host = false ∧ (∀ l, l ≠ dpa / 256 → u.dirOf l = s.dirOf l)
          ∧ u = { s with host := { s.host with bisnp := u.host.bisnp }, dram := { s.dram with dir := u.dram.dir } }
          ∧ (s.host.heldReqs = [] → s.ple.vms = [] → s.ple.grids = [] → u.recalled = u)))
    ∧ (s.alive = true → ∃ t, exec .hostSnoop s = .next t ∧ t = { s with host := t.host } ∧ t.host.answerCode = rspIHitI)
    ∧ (s.bar4 = true → s.host.hdm.length = 4 → ∀ i base size ways gran h, s.host.hdm[i]? = some h →
      (h.committed = true → exec (.hdmDecoderCommit i base size ways gran) s = .next s)
      ∧ (h.committed = false → 0 < size →
        ∃ t h', exec (.hdmDecoderCommit i base size ways gran) s = .next t ∧ t = { s with host := { s.host with hdm := t.host.hdm } }
          ∧ t.host.hdm[i]? = some h' ∧ (∀ k, k ≠ i → t.host.hdm[k]? = s.host.hdm[k]?) ∧ h'.notCommitted = !h'.committed
          ∧ (h'.committed = true → h'.base = base ∧ h'.size = size)
          ∧ (h'.committed = true ↔ s.dev.life = .service ∧ s.present (base + size - 1) = true ∧ 2 ^ 24 ≤ base
            ∧ (∀ k x, k ≠ i → s.host.hdm[k]? = some x → x.committed = true → x.base + x.size ≤ base ∨ base + size ≤ x.base)
            ∧ (ways = 1 ∨ ways = 2 ∨ ways = 4 ∨ ways = 8) ∧ ∃ j, 8 ≤ j ∧ j ≤ 14 ∧ gran = 2 ^ j))
      ∧ ∃ t, exec (.hdmDecoderUncommit i) s = .next t ∧ t = { s with host := { s.host with hdm := t.host.hdm } }
          ∧ t.host.hdm[i]? = some { h with committed := false, notCommitted := false } ∧ ∀ k, k ≠ i → t.host.hdm[k]? = s.host.hdm[k]?)

/-- The function's own requests, BAR0 writes in general and the debug access port. -/
def Obligations.FunctionAndRegisters : Prop :=
  ∀ s : State,
    (s.alive = true →
      (s.dev.life = .boot → ∀ w off,
        ∃ t, exec (.configurationRequest w off) s = .next t ∧ t = { s with host := t.host } ∧ t.host.answerCode = configRetry)
      ∧ (s.dev.life ≠ .boot →
        (∃ t, exec (.configurationRequest none 0) s = .next t ∧ t.host.answerCode = 0
          ∧ t.host.answer = [0x3D, 0x1F, 0x21, 0x7A] ∧ t = { s with host := t.host, free := t.free })
        ∧ (∃ t, exec (.configurationRequest none 0x2B8) s = .next t
          ∧ leAt t.host.answer 0 4 = (if s.excl.inForce = none then 512 else 510) * 2 ^ 30 / 2 ^ 32)
        ∧ (∀ off v, ∃ t, exec (.configurationRequest (some v) off) s = .next t ∧ t = { s with host := t.host }
          ∧ t.host.answerCode = 0)
        ∧ exec .busMasterEnable s = .next { s with host := { s.host with busMaster := true }.unmasked }
        ∧ exec .d3hotEnter s = .next { s with host := { s.host with d3hot := true } }
        ∧ exec .d0Enter s = .next { s with host := { s.host with d3hot := false }.unmasked }
        ∧ (∃ t, exec .doeDiscovery s = .next t ∧ t = { s with host := t.host } ∧ t.host.answer = [0, 1, 2, 3])
        ∧ ∃ t, exec .cdatRead s = .next t ∧ t = { s with host := t.host, free := t.free }
            ∧ leAt t.host.answer 0 8 = 2 ^ 24
            ∧ leAt t.host.answer 8 8 = (if s.excl.inForce = none then 512 * 2 ^ 30 else 510 * 2 ^ 30) - 2 ^ 24)
      ∧ (∃ t, exec .mctpRequest s = .next t ∧ t = { s with host := t.host, free := t.free } ∧ t.host.answer.length = 398)
      ∧ ∃ t, exec .ideIntegrityFailure s = .next t ∧ t.dev.faultNew = true ∧ t.host.ideKeyed = false
        ∧ t.dram = s.dram ∧ t.ctxs = s.ctxs ∧ t.cores = s.cores)
    ∧ (∀ off size v,
      (s.decodes = false ∨ (size ≠ 4 ∧ size ≠ 8) ∨ off % size ≠ 0 ∨ blockAt off = none →
        exec (.registerWrite ⟨0, off⟩ size v) s = .next s)
      ∧ ∀ b o, blockAt off = some (b, o) →
        (s.answers b = false → exec (.registerWrite ⟨0, off⟩ size v) s = .next s)
        ∧ (s.decodes = true → s.answers b = true → size = 4 ∨ size = 8 → off % size = 0 →
          (s.gated b = true →
            ∃ t, exec (.registerWrite ⟨0, off⟩ size v) s = .next t ∧ t = { s with pcm := t.pcm }
              ∧ t.pcm.held = s.pcm.held ++ [⟨off, size, v⟩])
          ∧ (s.gated b = false → ∃ u, exec (.registerWrite ⟨0, off⟩ size v) s = .next u
            ∧ exec .heldAccessApply { s with pcm := { s.pcm with held := ⟨off, size, v⟩ :: s.pcm.held } } = .next u)))
    ∧ (s.pcm.held = [] → exec .heldAccessApply s = .next s)
    ∧ (∀ h r b o, s.pcm.held = h :: r → blockAt h.off = some (b, o) →
        (s.answers b = false → exec .heldAccessApply s = .next { s with pcm := { s.pcm with held := r } })
        ∧ (s.answers b = true → s.gated b = true → exec .heldAccessApply s = .next s))
    ∧ (s.serves .qmg → s.qmg.arg.length = 4 → ∀ v, v < 2 ^ 32 →
      exec (.registerWrite ⟨0, 0x400104⟩ 4 v) s = .next { s with qmg := { s.qmg with
        arg := s.qmg.arg.set 0 (BitVec.ofNat 64 ((s.qmg.arg.getD 0 0).toNat % 2 ^ 32 + v * 2 ^ 32)) } })
    ∧ (s.serves .gid → ∀ v, v < 2 ^ 32 →
      exec (.registerWrite ⟨0, 0x10⟩ 4 v) s = .next { s with dev := { s.dev with
        stateChanged := s.dev.stateChanged && !v.testBit 9
        faultNew := s.dev.faultNew && !v.testBit 8 } })
    ∧ (s.dev.life ≠ .off →
      (s.svm.dbg = none → ∀ a, exec (.debugPortAccess a) s = .next s)
      ∧ (s.granted 1 = true →
        (∀ pa, 0x1000000 ≤ pa → s.physOk pa = true →
          ∃ t, exec (.debugPortAccess (.memRead pa 1)) s = .next t ∧ t = { s with tap := t.tap, free := t.free }
            ∧ t.tap.capture = if s.inReserve pa = true then 0 else (s.rdByte pa).toNat)
        ∧ (∀ off size v b o, blockAt off = some (b, o) → debugWrites b o v = false →
          exec (.debugPortAccess (.regWrite off size v)) s = .next s)
        ∧ (∀ off size, debugReads off = false →
          exec (.debugPortAccess (.regRead off size)) s = .next { s with tap := { s.tap with capture := 0 } })
        ∧ (Mem.wf s.dram.bytes = true → ∀ pa b,
          ∃ t, exec (.debugPortAccess (.memWrite pa [b])) s = .next t ∧ t.cores = s.cores ∧ t.ctxs = s.ctxs
            ∧ ∀ a, t.rdByte a = if a = pa ∧ 0x1000000 ≤ pa ∧ s.physOk pa = true
                ∧ s.inReserve pa = false ∧ s.unreadable pa = false then b else s.rdByte a)))

/-- R410, R413, R416, R102 to R106: the state machine of a port. -/
def Obligations.PortStates : Prop :=
  ∀ (s : State) (p : Nat), p < s.ports.length →
    ((s.port p).st = .down →
      ∃ t, exec (.linkSignalDetect p) s = .next t ∧ t = { s with ports := t.ports } ∧ (t.port p).st = .training
        ∧ ∀ q, q ≠ p → t.port q = s.port q)
    ∧ ((s.port p).st = .training ∨ (s.port p).st = .retraining → ∀ rev,
      (∃ t, exec (.linkTrained p false rev) s = .next t ∧ t = { s with ports := t.ports } ∧ (t.port p).st = .training
        ∧ (t.port p).check = 0xA ∧ ∀ q, q ≠ p → t.port q = s.port q)
      ∧ (s.dev.life ≠ .service ∨ s.role p = 0 →
        ∃ t, exec (.linkTrained p true rev) s = .next t ∧ t = { s with ports := t.ports } ∧ (t.port p).st = .trained
          ∧ (t.port p).reversed = rev ∧ ∀ q, q ≠ p → t.port q = s.port q)
      ∧ (s.dev.life = .service → s.role p ≠ 0 →
        (s.svm.aliasSeed ≠ none →
          ∃ t, exec (.linkTrained p true rev) s = .next t ∧ (t.port p).st = .admitting ∧ (t.port p).check = 0
            ∧ (t.port p).peer = none ∧ t.dram = s.dram ∧ ∀ q, q ≠ p → t.port q = s.port q)
        ∧ (s.svm.aliasSeed = none →
          ∃ t, exec (.linkTrained p true rev) s = .next t ∧ (t.port p).st = .refused ∧ (t.port p).check = 8
            ∧ t.dev.faultNew = true ∧ ∀ q, q ≠ p → t.port q = s.port q)))
    ∧ ((s.port p).st = .service →
      (∃ t, exec (.laneLockLoss p) s = .next t ∧ t = { s with ports := t.ports } ∧ (t.port p).st = .relock
        ∧ (t.port p).unacked = (s.port p).unacked ∧ ∀ q, q ≠ p → t.port q = s.port q)
      ∧ (15 ≤ ((s.port p).uncorTimes.filter (fun x => decide (s.now < x + 1000))).length →
        ∃ t, exec (.linkCodewordUncorrectable p) s = .next t ∧ (t.port p).st = .relock)
      ∧ (((s.port p).uncorTimes.filter (fun x => decide (s.now < x + 1000))).length < 15 →
        ∃ t, exec (.linkCodewordUncorrectable p) s = .next t ∧ (t.port p).st = .service))
    ∧ ((s.port p).st = .relock →
      (∃ t, exec (.laneLockRegained p) s = .next t ∧ (t.port p).st = .service ∧ t.dram = s.dram)
      ∧ (s.now < (s.port p).relockAt + 100 → exec (.relockTimeout p) s = .next s)
      ∧ ((s.port p).relockAt + 100 ≤ s.now →
        ∃ t, exec (.relockTimeout p) s = .next t ∧ t = { s with ports := t.ports } ∧ (t.port p).st = .retraining))
    ∧ ((s.port p).st ≠ .off → ∃ t, exec (.partnerSignalLoss p) s = .next t ∧ (t.port p).st = .down)
    ∧ (s.serves (.lnk p) → p < 16 →
      ((s.port p).st = .service ∨ (s.port p).st = .relock ∨ (s.port p).st = .refused →
        ∃ t, exec (.portRetrain p) s = .next t ∧ t = { s with ports := t.ports } ∧ (t.port p).st = .retraining)
      ∧ ((s.port p).st = .down ∨ (s.port p).st = .training ∨ (s.port p).st = .admitting ∨ (s.port p).st = .trained
          ∨ (s.port p).st = .retraining →
        ∃ t, exec (.portRetrain p) s = .next t ∧ t = { s with ports := t.ports } ∧ (t.port p).st = (s.port p).st))
    ∧ (∀ h : RxHdr, h.port = p → s.arrives h .admitting →
      (∃ t, exec (.train h) s = .next t ∧ (t.port p).st = .admitting ∧ (t.port p).lastRx = h.lseq)
      ∧ (∀ peer, (s.port p).seen = none →
        ∃ t, exec (.spdm h (.hello peer)) s = .next t ∧ (t.port p).st = .admitting ∧ (t.port p).seen = some peer
          ∧ (t.port p).initiator = decide (leNat identity < peer.toNat)
          ∧ (leNat identity < peer.toNat → ∃ f, (t.port p).queue = (s.port p).queue ++ [f]
              ∧ f.frame.type = 1 ∧ leAt f.frame.info 0 1 = 2)
          ∧ (peer.toNat ≤ leNat identity → (t.port p).queue = (s.port p).queue))
      ∧ (∀ msg e, (s.port p).asked = 3 → (s.port p).admitted = false →
        let c := if e.chainOk = false then 1
          else if e.svn < s.svm.fwFloor then 2
          else if e.keyed = true ∧ (e.signedOk = false ∨ e.meas2 ≠ e.cert2 ∨ e.meas3 ≠ e.cert3) then 3
          else if e.part ≠ 0x7A21 then 4
          else if e.role ≠ s.role p then 5
          else if e.keyed = false then 8
          else 0
        let other := s.port (if p = 14 then 15 else 14)
        (c ≠ 0 →
          ∃ t, exec (.spdm h (.last msg e)) s = .next t ∧ (t.port p).st = .refused ∧ (t.port p).check = c ∧ t.dev.faultNew = true)
        ∧ (c = 0 → s.role p = 2 → other.admitted = true → other.peer ≠ some e.peer →
          ∃ t, exec (.spdm h (.last msg e)) s = .next t ∧ (t.port p).st = .refused ∧ (t.port p).check = 7)
        ∧ (c = 0 → s.role p ≠ 2 ∨ other.admitted = false ∨ other.peer = some e.peer →
          ∃ t, exec (.spdm h (.last msg e)) s = .next t ∧ (t.port p).st = .admitting ∧ (t.port p).admitted = true
            ∧ (t.port p).peer = some e.peer))
      ∧ (∀ peer pr, s.role p = 2 → (s.port p).peer = some peer → (s.port p).turnsDone = true →
          s.twinProof p (leBytes 32 peer.toNat) ≠ pr →
        ∃ t, exec (.spdm h (.proof pr)) s = .next t ∧ (t.port p).st = .refused ∧ (t.port p).check = 6)
      ∧ (∀ m : KemMsg, (m.ok = false →
          ∃ t, exec (.kem h m) s = .next t ∧ (t.port p).st = .refused ∧ (t.port p).check = 9)
        ∧ (m.ok = true → (m.offer = true ∧ s.mayKey p = true ∧ (s.port p).initiator = false ∧ (s.port p).keyed = false)
            ∨ (m.offer = false ∧ (s.port p).kemKey ≠ none) →
          (s.role p = 1 →
            ∃ t, exec (.kem h m) s = .next t ∧ (t.port p).st = .service ∧ (t.port p).lost = false ∧ (t.port p).hadService = true
              ∧ (t.port p).txKey ≠ none ∧ (t.port p).rxKey ≠ none)
          ∧ (s.role p = 2 → (s.port (if p = 14 then 15 else 14)).admitted = false →
            ∃ t, exec (.kem h m) s = .next t ∧ (t.port p).st = .admitting ∧ (t.port p).keyed = true)))
      ∧ (∀ bs, (s.port p).seen ≠ none → (s.port p).answered = 0 → (s.port p).initiator = false →
        ∃ t f, exec (.spdm h (.request bs)) s = .next t ∧ (t.port p).st = .admitting ∧ (t.port p).answered = 1
          ∧ (t.port p).queue = (s.port p).queue ++ [f] ∧ f.frame.payload = s.chain)
      ∧ ∀ bs, (s.port p).asked = 1 →
        ∃ t f, exec (.spdm h (.response bs)) s = .next t ∧ (t.port p).st = .admitting ∧ (t.port p).asked = 2
          ∧ (t.port p).queue = (s.port p).queue ++ [f] ∧ f.frame.type = 1)

/-- R414, R415, R418, R419, R442: what a port does with frames. -/
def Obligations.PortTraffic : Prop :=
  ∀ s : State,
    (∀ h : RxHdr, h.port < s.ports.length → (s.port h.port).st = .service →
      (h.tagOk = false →
        ((s.port h.port).badTags < 7 →
          ∃ t, exec (.keepalive h) s = .next t ∧ (t.port h.port).st = .service ∧ (t.port h.port).lastRx = (s.port h.port).lastRx
            ∧ (t.port h.port).tagFail = (s.port h.port).tagFail + 1 ∧ (t.port h.port).credit = (s.port h.port).credit
            ∧ (∃ f, (t.port h.port).queue = (s.port h.port).queue ++ [f] ∧ f.frame.type = 1 ∧ leAt f.frame.info 0 1 = 0xA)
            ∧ ∀ q, q ≠ h.port → t.port q = s.port q)
        ∧ (7 ≤ (s.port h.port).badTags →
          ∃ t, exec (.keepalive h) s = .next t ∧ (t.port h.port).st = .retraining ∧ t.dram = s.dram))
      ∧ (h.tagOk = true → h.lseq ≠ ((s.port h.port).lastRx + 1) % 2 ^ 32 → ∀ counts node lseq,
        (∃ t, exec (.credit h counts) s = .next t ∧ exec (.replay h lseq) s = .next t ∧ exec (.keymark h) s = .next t
          ∧ exec (.node h node) s = .next t ∧ t = { s with pcm := t.pcm, ports := t.ports }
          ∧ t.port h.port = { s.port h.port with badTags := 0, quietSince := s.now }
          ∧ ∀ q, q ≠ h.port → t.port q = s.port q)))
    ∧ (∀ h : RxHdr, s.arrives h .service →
      (∃ t, exec (.keepalive h) s = .next t ∧ t = { s with ports := t.ports } ∧ (t.port h.port).lastRx = h.lseq
        ∧ (t.port h.port).credit = (s.port h.port).credit ∧ (t.port h.port).quietSince = s.now
        ∧ ∀ q, q ≠ h.port → t.port q = s.port q)
      ∧ (∃ t, exec (.train h) s = .next t ∧ (t.port h.port).st = .retraining ∧ (t.port h.port).lastRx = h.lseq ∧ t.dram = s.dram)
      ∧ (∃ t, exec (.keymark h) s = .next t ∧ (t.port h.port).rxMarked = true ∧ (t.port h.port).lastRx = h.lseq
          ∧ (∀ k, (s.port h.port).nextRx = some k → (t.port h.port).rxKey = some k))
      ∧ (∀ counts, ∃ t, exec (.credit h counts) s = .next t ∧ (∀ i, i < 5 →
          (t.port h.port).credit.getD i 0 = (s.port h.port).credit.getD i 0 + counts.getD i 0)
          ∧ ∀ q, q ≠ h.port → t.port q = s.port q)
      ∧ (∀ node, node < 4096 → ∃ t, exec (.node h node) s = .next t ∧ (t.port h.port).peerNode = some node
          ∧ node ∉ t.cle.lost ∧ (∀ k, k ≠ node → (k ∈ t.cle.lost ↔ k ∈ s.cle.lost)) ∧ t.cle.colls = s.cle.colls)
      ∧ ∀ lseq, ∃ t, exec (.replay h lseq) s = .next t ∧ (t.port h.port).lastRx = h.lseq ∧ t.dram = s.dram
          ∧ (∀ f, f ∈ (t.port h.port).unacked → f ∈ (s.port h.port).unacked))
    ∧ (∀ p, p < s.ports.length →
      ((∀ n ∈ (s.port p).owed, n = 0) →
        (512 ≤ (s.port p).unacked.length ∨ 2 ^ 36 ≤ (s.port p).frameCount + 1 → exec (.frameEgress p) s = .next s)
        ∧ (∀ f, (s.port p).queue = [f] → (s.port p).maySend f = true → (s.port p).unacked.length < 512 →
            (s.port p).frameCount + 1 < 2 ^ 36 →
          ∃ t, exec (.frameEgress p) s = .next t ∧ t = { s with ports := t.ports, free := t.free }
            ∧ (t.port p).unacked = (s.port p).unacked ++ [{ f with lseq := (s.port p).nextLseq, count := (s.port p).frameCount }]
            ∧ (t.port p).nextLseq = ((s.port p).nextLseq + 1) % 2 ^ 32
            ∧ (f.frame.type ≠ 1 → (t.port p).frameCount = (s.port p).frameCount + 1
                ∧ ((s.port p).frameCount + 1 < 2 ^ 35 → (t.port p).queue = []))
            ∧ ((s.port p).st = .service → f.frame.type ≠ 1 → 2 ^ 35 ≤ (s.port p).frameCount + 1 → (t.port p).rekeying = true)
            ∧ ((s.port p).st = .service → f.frame.type ≠ 1 → ∀ v, v < (s.port p).credit.length → (t.port p).credit.getD v 0 =
                (s.port p).credit.getD v 0 - (if v = f.frame.vlane then max 1 f.frame.sectors else 0))
            ∧ ∀ q, q ≠ p → t.port q = s.port q)
        ∧ (∀ f, (s.port p).queue = [f] → (s.port p).maySend f = false → exec (.frameEgress p) s = .next s))
      ∧ ((s.port p).st = .service → (∃ n ∈ (s.port p).owed, 0 < n) → (s.port p).queue = [] → (s.port p).unacked.length < 512 →
          (s.port p).frameCount + 1 < 2 ^ 35 →
        ∃ t f, exec (.frameEgress p) s = .next t ∧ (t.port p).unacked = (s.port p).unacked ++ [f] ∧ f.frame.type = 1
          ∧ leAt f.frame.info 0 1 = 5 ∧ (∀ n ∈ (t.port p).owed, n = 0) ∧ (t.port p).credit = (s.port p).credit)
      ∧ ((s.port p).st = .service → (∀ r, r < 4 → (s.port p).nextOf r = none) →
        ∃ t f, exec (.keepaliveSend p) s = .next t ∧ t = { s with ports := t.ports } ∧ (t.port p).queue = f :: (s.port p).queue
          ∧ f.frame.type = 1 ∧ f.frame.vlane = 0 ∧ leAt f.frame.info 0 1 = 6)
      ∧ ((s.port p).st = .service → (s.port p).rekeying = false →
        ∃ t f, exec (.rekey p) s = .next t ∧ t = { s with ports := t.ports, free := t.free } ∧ (t.port p).rekeying = true
          ∧ (t.port p).kemKey ≠ none ∧ (t.port p).queue = (s.port p).queue ++ [f] ∧ leAt f.frame.info 0 1 = 3)
      ∧ ((s.port p).hadService = true → (s.port p).lost = false → (s.port p).notices = [] →
        (s.now < (s.port p).quietSince + 50000 → (s.port p).st = .service ∨ s.now < (s.port p).outSince + 50000 →
          exec (.portLost p) s = .next s)
        ∧ ((s.port p).quietSince + 50000 ≤ s.now ∨ (s.port p).st ≠ .service ∧ (s.port p).outSince + 50000 ≤ s.now →
          (s.port p).peerNode = none → (s.port p).unacked = [] → (s.port p).wins = [] →
          ∃ t, exec (.portLost p) s = .next t ∧ (t.port p).lost = true ∧ t.dev.faultNew = true ∧ t.qmg = s.qmg ∧ t.dram = s.dram)
        ∧ (∀ n, ((s.port p).quietSince + 50000 ≤ s.now ∨ (s.port p).st ≠ .service ∧ (s.port p).outSince + 50000 ≤ s.now) →
            (s.port p).peerNode = some n → s.cle.colls = [] →
            (s.port p).unacked = [] → (s.port p).wins = [] →
          ∃ t, exec (.portLost p) s = .next t ∧ (t.port p).lost = true ∧ n ∈ t.cle.lost ∧ t.dev.faultNew = true))
      ∧ ((s.port p).notices ≠ [] → exec (.portLost p) s = .next s)
      ∧ (p < 16 → s.serves (.lnk p) →
        (∀ b, ∃ t, exec (.lnkClose p b) s = .next t ∧ t = { s with ports := t.ports } ∧ (t.port p).close = b
          ∧ (t.port p).st = (s.port p).st ∧ (t.port p).unacked = (s.port p).unacked ∧ ∀ q, q ≠ p → t.port q = s.port q)
        ∧ (∃ t, exec (.lnkCntReset p) s = .next t ∧ t = { s with ports := t.ports } ∧ (t.port p).txBytes = 0
          ∧ (t.port p).rxBytes = 0 ∧ (t.port p).replays = 0 ∧ (t.port p).tagFail = 0 ∧ (t.port p).close = (s.port p).close)
        ∧ (∀ id d k f, (s.port p).queue = [] → (s.port p).unacked = [f] → f.of = .copy id k → s.desc? id = some d →
            d.type = tyCopy → d.st = .running → d.ready = true → d.waiting = false →
          ∃ t, exec (.lnkAbort p) s = .next t ∧ (t.port p).st = (s.port p).st ∧ t.dram = s.dram
            ∧ t.desc? id = some { d with stop := true, marks := d.marks ++ [stCancelled] })))

/-- R340, R374, R375, R420: window traffic in both directions. -/
def Obligations.WindowFrames : Prop :=
  ∀ (s : State) (h : RxHdr), s.arrives h .service → s.role h.port = 1 → h.poison = 0 →
    (∀ (info payload : List Byte) (e : WinEntry) (k gen tag o o1 : Nat), info.length = 16 → k = leAt info 0 2 → k < 16384 →
        e = Tab.get WinEntry.none s.xlt.win k → gen = leAt info 2 2 → tag = leAt info 4 2 → s.xlt.winPoison = [] → s.xlt.drain = none →
      (o = leAt info 8 8 + leAt info 6 1 % 32 → o1 = leAt info 8 8 + (payload.length - 32) + leAt info 7 1 % 32 + 1 →
        (e.valid = false ∨ e.gen.toNat ≠ gen →
          ∃ t f, exec (.winWrite h info payload) s = .next t ∧ t.dram = s.dram ∧ (t.port h.port).queue = (s.port h.port).queue ++ [f]
            ∧ f.frame.type = 5 ∧ leAt f.frame.info 4 2 = tag ∧ leAt f.frame.info 6 1 = stStale)
        ∧ (e.valid = true → e.gen.toNat = gen → e.ports.getLsbD h.port = false ∨ e.len < o1 ∨ e.perm.getLsbD 1 = false →
          ∃ t f, exec (.winWrite h info payload) s = .next t ∧ t.dram = s.dram ∧ (t.port h.port).queue = (s.port h.port).queue ++ [f]
            ∧ f.frame.type = 5 ∧ leAt f.frame.info 4 2 = tag ∧ leAt f.frame.info 6 1 = stPerm)
        ∧ (∀ pas : List Nat, e.valid = true → e.gen.toNat = gen → e.ports.getLsbD h.port = true → o1 ≤ e.len → e.perm.getLsbD 1 = true →
            s.xlateSpan e.ctx .other .write (((s.ctx e.ctx).range e.range).vbase + e.offset + o) (o1 - o) = .ok pas →
            pas.Nodup → o % 32 + pas.length ≤ payload.length → (∀ a ∈ pas, s.chanDead a = false) → Mem.wf s.dram.bytes = true →
            s.unheld → s.ctxSound e.ctx (vAddrs (((s.ctx e.ctx).range e.range).vbase + e.offset + o) (o1 - o)) →
          ∃ t f, exec (.winWrite h info payload) s = .next t
            ∧ (∀ (j a : Nat), pas[j]? = some a → t.rdByte a = payload.getD (o % 32 + j) 0)
            ∧ (∀ a, a ∉ pas → t.rdByte a = s.rdByte a) ∧ (t.port h.port).queue = (s.port h.port).queue ++ [f]
            ∧ f.frame.type = 5 ∧ leAt f.frame.info 4 2 = tag ∧ leAt f.frame.info 6 1 = stOk))
      ∧ (o = leAt info 8 8 →
        (e.valid = false ∨ e.gen.toNat ≠ gen →
          ∃ t f, exec (.winRead h info) s = .next t ∧ t.dram = s.dram ∧ (t.port h.port).queue = (s.port h.port).queue ++ [f]
            ∧ f.frame.type = 5 ∧ leAt f.frame.info 4 2 = tag ∧ leAt f.frame.info 6 1 = stStale)
        ∧ (∀ pas : List Nat, e.valid = true → e.gen.toNat = gen → e.ports.getLsbD h.port = true → o + 32 * leAt info 6 1 ≤ e.len →
            e.perm.getLsbD 0 = true →
            s.xlateSpan e.ctx .other .read (((s.ctx e.ctx).range e.range).vbase + e.offset + o) (32 * leAt info 6 1) = .ok pas →
            s.ctxSound e.ctx (vAddrs (((s.ctx e.ctx).range e.range).vbase + e.offset + o) (32 * leAt info 6 1)) →
          ∃ t f, exec (.winRead h info) s = .next t ∧ t.dram.bytes = s.dram.bytes ∧ (t.port h.port).queue = (s.port h.port).queue ++ [f]
            ∧ f.frame.type = 4 ∧ leAt f.frame.info 4 2 = tag ∧ f.frame.payload = s.rdAt pas)))
    ∧ (∀ (info : List Byte) (w : WinReq) (d : Desc), info.length = 16 → (s.port h.port).wins = [w] → leAt info 4 2 = w.rtag →
        s.desc? w.desc = some d → d.st = .running → d.marks = [] → d.type = tyCopy →
      (leAt info 6 1 = stOk → d.stop = false →
        ∃ t, exec (.winAck h info) s = .next t ∧ t.desc? w.desc = some { d with pos := d.pos + w.len }
          ∧ (t.port h.port).wins = [] ∧ t.dram = s.dram)
      ∧ (leAt info 6 1 = stStale → s.winsOf w.desc = [w] → (s.port h.port).unsent w = false → s.xlt.sqUnread < 63 → w.write = true →
          Tab.wf StaleRec.none s.xlt.sq = true →
          ∀ r i o, s.windowAt d.ctx (d.fld 0x10 8 + w.pos) = none → s.windowAt d.ctx (d.fld 0x18 8 + w.pos) = some (r, i, o) →
            i ∉ d.stales →
        ∃ t d' q, exec (.winAck h info) s = .next t ∧ t.desc? w.desc = some d' ∧ d'.st = .ended ∧ d'.status = stStale
          ∧ d'.detail = BitVec.ofNat 64 d.pos ∧ t.dram = s.dram ∧ t.xlt.sqTail = (s.xlt.sqTail + 1) % 64
          ∧ q = Tab.get StaleRec.none t.xlt.sq s.xlt.sqTail ∧ q.ctx = d.ctx ∧ q.range = i ∧ q.cause = 1 ∧ q.entry = r.winEntry
          ∧ q.gen = r.winGen ∧ q.port = r.winPort ∧ q.queue = d.queue))
    ∧ (∀ (info payload : List Byte) (w : WinReq) (d : Desc) (r : Range) (i o : Nat) (pas : List Nat), info.length = 16 →
        (s.port h.port).wins = [w] → leAt info 4 2 = w.rtag → w.write = false → s.desc? w.desc = some d → d.st = .running →
        d.marks = [] → s.windowAt d.ctx (d.fld 0x10 8 + w.pos) = some (r, i, o) →
        (s.ctx d.ctx).held.span .copy .write (vAddrs (d.fld 0x18 8 + w.pos) w.len) = .ok pas → pas.Nodup →
        w.off % 32 + pas.length ≤ payload.length → (∀ a ∈ pas, s.chanDead a = false) → Mem.wf s.dram.bytes = true → s.unheld →
      ∃ t, exec (.winData h info payload) s = .next t
        ∧ (∀ (j a : Nat), pas[j]? = some a → t.rdByte a = payload.getD (w.off % 32 + j) 0)
        ∧ (∀ a, a ∉ pas → t.rdByte a = s.rdByte a) ∧ t.desc? w.desc = some { d with pos := d.pos + w.len }
        ∧ (t.port h.port).wins = [])

/-- R423 to R429, R434, R442, R444: the COLLECTIVE descriptor and the registers of the engine. -/
def Obligations.CollectiveDescriptor : Prop :=
  ∀ s : State,
    (∀ (id : Nat) (d : Desc) (g : Group), s.desc? id = some d → d.marks = [] → d.type = tyCollective → s.canStart d = true →
        s.collOf id = none → g = Tab.get Group.none s.cle.groups (d.fld 0x28 1) →
      (g.valid = false ∨ g.ctx ≠ d.ctx ∨ 4 < d.fld 0x29 1 ∨ d.fld 0x20 8 = 0 ∨ 2 < d.fld 0x2B 1 ∨ s.cle.nodeValid = false
          ∨ d.fld 0x2A 1 ∉ [0, 1, 2, 10] ∨ (d.fld 0x2C 1 ≠ 0 ∧ ∀ i, s.sim.image = some i → i.allowUnordered = false) →
        ∃ t d', exec (.collective id) s = .next t ∧ t.desc? id = some d' ∧ d'.st = .ended ∧ d'.status = stPerm
          ∧ t.cle = s.cle ∧ t.dram = s.dram ∧ t.ports = s.ports)
      ∧ (∀ (c : Coll) (ps pd : List Nat), c = s.collFrom d → s.collOk d c = true →
          s.xlateSpan d.ctx .other .read c.src (c.inLen * c.esz) = .ok ps →
          s.xlateSpan d.ctx .other .write c.dst (c.outLen * c.esz) = .ok pd →
          c.outLen = 0 ∨ c.dst + c.outLen * c.esz ≤ c.src ∨ c.src + c.inLen * c.esz ≤ c.dst →
        ((∀ x ∈ s.cle.cancels, x.1 ≠ c.group ∨ x.2.1 ≠ c.seq) → (∀ n ∈ c.nodes, n ∉ s.cle.lost) →
          ∃ t d', exec (.collective id) s = .next t ∧ t = { s with qmg := t.qmg, cle := t.cle } ∧ t.desc? id = some d'
            ∧ d'.st = .running ∧ d'.ready = true ∧ t.cle.colls = s.cle.colls ++ [c])
        ∧ (∀ st, s.cle.cancels = [(c.group, c.seq, st)] → st ≠ 0 →
          ∃ t d', exec (.collective id) s = .next t ∧ t.desc? id = some d' ∧ d'.st = .ended ∧ d'.status = pickStatus [st]
            ∧ t.cle.cancels = [] ∧ t.dram = s.dram)
        ∧ (∀ n ∈ c.nodes, n ∈ s.cle.lost → s.cle.cancels = [] →
          ∃ t d', exec (.collective id) s = .next t ∧ t.desc? id = some d' ∧ d'.st = .ended ∧ d'.status = stLink ∧ t.dram = s.dram)))
    ∧ (∀ (id : Nat) (c : Coll), s.collOf id = some c → c.started = false →
      (s.cle.close = true ∨ 16 ≤ s.cle.active ∨ 256 < s.cle.reserved + c.sources.length + 16
          ∨ (∃ d, s.desc? id = some d ∧ (d.stop = true ∨ d.waiting = true)) →
        exec (.collectiveStart id) s = .next s)
      ∧ ∀ ps pd : List Nat, (∀ d, s.desc? id = some d → d.stop = false ∧ d.waiting = false) → s.cle.close = false →
          s.cle.active < 16 → s.cle.reserved + c.sources.length + 16 ≤ 256 →
          (s.ctx c.ctx).span .other .read c.inBytes = .ok ps → (s.ctx c.ctx).span .other .write c.outBytes = .ok pd →
          s.unheld → s.ctxSound c.ctx (c.inBytes ++ c.outBytes) →
      ((∀ a ∈ ps, s.sound a) → c.reduces = true → 0 < (s.collLoad c).length → (∀ j, j < c.blocks → c.pos j = 0 → c.children j ≠ []) → c.grants = [] →
          (∀ f ∈ s.cle.pool, leAt f.2.info 4 1 ≠ c.group ∨ leAt f.2.info 8 4 ≠ c.seq) →
        ∃ t, exec (.collectiveStart id) s = .next t ∧ t.collOf id = some { c with started := true, acc := s.collLoad c }
          ∧ t.dram.bytes = s.dram.bytes ∧ t.qmg = s.qmg ∧ (∀ k, s.cached t k) ∧ t.cle.pool = s.cle.pool)
      ∧ (∀ d : Desc, c.n = 1 → c.rank = 0 → c.root = 0 → c.op = 0 → 0 < c.count → c.count * c.esz ≤ 1024 → c.wake = none → c.grants = [] →
          c.owed = [] → c.written = [] → c.waiting = none →
          (∀ f ∈ s.cle.pool, leAt f.2.info 4 1 ≠ c.group ∨ leAt f.2.info 8 4 ≠ c.seq) →
          s.desc? id = some d → d.st = .running → d.marks = [] →
          pd.Nodup → ps.length = c.count * c.esz → pd.length = c.count * c.esz → (∀ a ∈ pd, s.chanDead a = false) →
          Mem.wf s.dram.bytes = true →
        ∃ t d', exec (.collectiveStart id) s = .next t ∧ t.desc? id = some d' ∧ d'.st = .ended ∧ d'.status = stOk
          ∧ d'.detail = BitVec.ofNat 64 c.count ∧ (∀ (j a b : Nat), ps[j]? = some a → pd[j]? = some b → t.rdByte b = s.rdByte a)
          ∧ ∀ a, a ∉ pd → t.rdByte a = s.rdByte a))
    ∧ (s.serves .cle →
      (∀ b, ∃ t, exec (.cleClose b) s = .next t ∧ t = { s with cle := { s.cle with close := b } })
      ∧ (∀ (c : Coll) (d : Desc), s.cle.colls = [c] → c.started = true → s.desc? c.desc = some d → d.type = tyCollective →
          d.st = .running → d.marks = [] →
        (c.midChunk = false → ∃ t d', exec .cleAbort s = .next t ∧ t.desc? c.desc = some d' ∧ d'.st = .ended
          ∧ d'.status = stCancelled ∧ d'.detail = BitVec.ofNat 64 c.detail ∧ t.cle.colls = [] ∧ t.dram = s.dram)
        ∧ (c.midChunk = true → ∃ t d', exec .cleAbort s = .next t ∧ t.desc? c.desc = some d' ∧ d'.st = .running
          ∧ d'.stop = true ∧ d'.marks = [stCancelled] ∧ t.cle.colls = [c] ∧ t.dram = s.dram))
      ∧ (∀ v, (s.collGroups = [] →
            ∃ t, exec (.nodeWrite v) s = .next t ∧ t = { s with cle := { s.cle with node := v % 4096, nodeValid := v.testBit 31 } })
          ∧ (s.collGroups ≠ [] → exec (.nodeWrite v) s = .next s))
      ∧ (∀ g v, g < 64 → Tab.wf Group.none s.cle.groups = true →
        (g ∉ s.collGroups →
          ∃ t, exec (.groupWrite g v) s = .next t ∧ t = { s with cle := { s.cle with groups := t.cle.groups } }
            ∧ Tab.get Group.none t.cle.groups g = ⟨v.testBit 63, v / 2 ^ 32 % 8192, v / 2 ^ 16 % 4096, v % 4096⟩
            ∧ ∀ k, k ≠ g → Tab.get Group.none t.cle.groups k = Tab.get Group.none s.cle.groups k)
        ∧ (g ∈ s.collGroups → exec (.groupWrite g v) s = .next s))
      ∧ (∀ g i v, g < 64 → i < 1024 → Tab.wf 0 s.cle.rankmap = true →
        (g ∉ s.collGroups →
          ∃ t, exec (.rankmapWrite g i v) s = .next t ∧ t = { s with cle := { s.cle with rankmap := t.cle.rankmap } }
            ∧ (∀ k, k < 4 → Tab.get 0 t.cle.rankmap (4096 * g + 4 * i + k) = v / 2 ^ (16 * k) % 4096)
            ∧ ∀ a, a < 4096 * g + 4 * i ∨ 4096 * g + 4 * i + 4 ≤ a → Tab.get 0 t.cle.rankmap a = Tab.get 0 s.cle.rankmap a)
        ∧ (g ∈ s.collGroups → exec (.rankmapWrite g i v) s = .next s)))

/-- R421, R425 to R432: COLL frames and CANCEL. -/
def Obligations.CollectiveFrames : Prop :=
  ∀ (s : State) (h : RxHdr), s.arrives h .service → s.role h.port = 1 → h.poison = 0 →
    (∀ (info payload : List Byte) (p : Nat) (k : Nat), info.length = 16 → k = (CollHdr.parse info).kind → 1 ≤ k → k ≤ 5 →
        (CollHdr.parse info).dst ≠ s.cle.node → s.routeOf (CollHdr.parse info).dst = some p → p ≠ h.port →
        s.arrives h .service →
      ∃ t f, (k = 1 → exec (.partialFrame h info payload) s = .next t) ∧ (k = 2 → exec (.resultFrame h info payload) s = .next t)
        ∧ (k = 3 → exec (.blockFrame h info payload) s = .next t)
        ∧ (k = 4 → payload = [] → exec (.grantFrame h info) s = .next t)
        ∧ (k = 5 → payload = [] → exec (.receiptFrame h info) s = .next t)
        ∧ (t.port p).queue = (s.port p).queue ++ [f] ∧ f.frame.type = 8 ∧ f.frame.info = info ∧ f.frame.payload = payload
        ∧ f.forwarded = true ∧ t.dram = s.dram ∧ t.cle = s.cle)
    ∧ (∀ (info payload : List Byte) (H : CollHdr), info.length = 16 → H = CollHdr.parse info → H.dst = s.cle.node →
        s.cle.nodeValid = true → H.kind = 1 → s.collNamed H.group H.seq = none → s.cle.pool = [] → payload.length ≤ 1024 →
      ∃ t f, exec (.partialFrame h info payload) s = .next t ∧ t.cle.pool = [(h.port, f)] ∧ f.info = info ∧ f.payload = payload
        ∧ t.dram = s.dram ∧ t.qmg = s.qmg)
    ∧ (∀ (info payload : List Byte) (H : CollHdr) (c : Coll) (d : Desc) (kx r : Nat), info.length = 16 → H = CollHdr.parse info →
        H.dst = s.cle.node → s.cle.nodeValid = true → s.collNamed H.group H.seq = some c → s.collOf c.desc = some c →
        c.started = true → c.waiting = none → s.desc? c.desc = some d → d.st = .running → d.marks = [] → d.type = tyCollective →
        kx = H.kind → c.nodes[r]? = some H.src → (∀ q, q < r → c.nodes[q]? ≠ some H.src) →
      (kx = 1 → H.src = c.nodes.getD c.rank 4096 → c.children H.block = [] →
        ∃ t d', exec (.partialFrame h info payload) s = .next t ∧ t.desc? c.desc = some d' ∧ d'.st = .ended ∧ d'.status = stPerm
          ∧ t.dram = s.dram ∧ t.collOf c.desc = none)
      ∧ (∀ (own : List Byte) (pd : List Nat), kx = 1 → c.op = 0 → c.n = 2 → c.root = 0 → c.rank = 0 → r = 1 → H.block = 0 →
          H.chunk = 0 → 0 < c.count → c.count * c.esz ≤ 1024 → c.acc = [(0, 0, 0, own, 0)] → c.got = [] → c.owed = [] →
          c.written = [] → c.wake = none → payload.length = (c.count * c.esz + 31) / 32 * 32 → own.length = c.count * c.esz →
          s.cle.colls = [c] → (s.ctx c.ctx).span .other .write (vAddrs c.dst (c.count * c.esz)) = .ok pd → pd.Nodup →
          pd.length = c.count * c.esz → (∀ a ∈ pd, s.chanDead a = false) → Mem.wf s.dram.bytes = true → s.unheld →
          s.ctxSound c.ctx (vAddrs c.dst (c.count * c.esz)) →
        ∃ t d', exec (.partialFrame h info payload) s = .next t
          ∧ (∀ e, e < c.count → leNat (t.rdAt ((pd.drop (e * c.esz)).take c.esz)) =
              c.combine1 (leAt own (e * c.esz) c.esz) (leAt payload (e * c.esz) c.esz) % 2 ^ (8 * c.esz))
          ∧ (∀ a, a ∉ pd → t.rdByte a = s.rdByte a) ∧ t.desc? c.desc = some d' ∧ d'.st = .ended ∧ d'.status = stOk
          ∧ d'.detail = BitVec.ofNat 64 c.count)
      ∧ (∀ pd : List Nat, c.n = 2 → c.rank = 1 → r = 0 → H.block = 0 → H.chunk = 0 → 0 < c.count → c.count * c.esz ≤ 1024 →
          (kx = 2 ∧ c.op = 1 ∧ c.count = 1) ∨ (kx = 3 ∧ c.op = 2) →
          payload.length = (c.count * c.esz + 31) / 32 * 32 →
          (s.ctx c.ctx).span .other .write (vAddrs c.dst (c.count * c.esz)) = .ok pd → pd.Nodup → pd.length = c.count * c.esz →
          (∀ a ∈ pd, s.chanDead a = false) → Mem.wf s.dram.bytes = true → s.unheld →
          s.ctxSound c.ctx (vAddrs c.dst (c.count * c.esz)) →
        ∃ t, (kx = 2 → exec (.resultFrame h info payload) s = .next t) ∧ (kx = 3 → exec (.blockFrame h info payload) s = .next t)
          ∧ (∀ (j a : Nat), pd[j]? = some a → t.rdByte a = payload.getD j 0) ∧ (∀ a, a ∉ pd → t.rdByte a = s.rdByte a)
          ∧ ∀ k, s.cached t k)
      ∧ (∀ own po, kx = 4 → c.op = 0 → c.n = 2 → c.root = 0 → c.rank = 1 → r = 0 → H.block = 0 → H.chunk = 64 → 0 < c.count →
          c.count * c.esz ≤ 1024 → c.acc = [(0, 0, 0, own, po)] → c.owed = [] → s.cle.colls = [c] → d.stop = false →
        ∃ t x, exec (.grantFrame h info) s = .next t ∧ t.collOf c.desc = some x ∧ x.owed = [(0, 1, 0, 0)]
          ∧ x.acc = [(0, 0, 1, [], 0)] ∧ t.dram = s.dram ∧ t.desc? c.desc = some d
          ∧ (∀ p, s.routeOf H.src = some p → (s.port p).queue = [] → ∃ f, (t.port p).queue = [f] ∧ f.frame.type = 8
              ∧ (CollHdr.parse f.frame.info).kind = 1 ∧ (CollHdr.parse f.frame.info).chunk = 0 ∧ f.frame.payload.take own.length = own))
      ∧ (kx = 5 → c.op = 0 → c.n = 2 → c.root = 0 → c.rank = 1 → r = 0 → H.block = 0 → H.chunk = 0 → c.owed = [(0, 1, 0, 0)] →
          c.acc = [(0, 0, 1, [], 0)] → c.written = [] → c.wake = none → s.cle.colls = [c] →
        ∃ t d', exec (.receiptFrame h info) s = .next t ∧ t.desc? c.desc = some d' ∧ d'.st = .ended ∧ d'.status = stOk
          ∧ d'.detail = 0 ∧ t.dram = s.dram ∧ t.cle.colls = []))
    ∧ (∀ node group seq st, st ≠ 0 →
      (s.cle.nodeValid = true → node = s.cle.node →
        (∀ (c : Coll) (d : Desc), s.collNamed group seq = some c → s.collOf c.desc = some c → s.desc? c.desc = some d →
            d.st = .running → d.marks = [] →
          ∃ t d', exec (.cancel h node group seq st) s = .next t ∧ t.desc? c.desc = some d' ∧ d'.st = .ended
            ∧ d'.status = pickStatus [st] ∧ d'.detail = BitVec.ofNat 64 c.detail ∧ t.dram = s.dram ∧ t.collOf c.desc = none)
        ∧ (s.collNamed group seq = none →
          ∃ t, exec (.cancel h node group seq st) s = .next t ∧ t.cle.cancels = (group, seq, st) :: s.cle.cancels ∧ t.dram = s.dram))
      ∧ (node ≠ s.cle.node → ∀ p, s.routeOf node = some p → p ≠ h.port →
        ∃ t f, exec (.cancel h node group seq st) s = .next t ∧ (t.port p).queue = (s.port p).queue ++ [f] ∧ f.frame.type = 1
          ∧ leAt f.frame.info 0 1 = 8 ∧ t.cle = s.cle)
      ∧ (node ≠ s.cle.node → s.routeOf node = none →
        ∃ t, exec (.cancel h node group seq st) s = .next t ∧ t.cle = { s.cle with noroute := s.cle.noroute + 1 }
          ∧ t.dev.faultNew = true))
    ∧ ∀ (c : Coll) (a b : Nat), c.fmt = 10 → c.func = 0 → c.combine1 a b = (a + b) % 2 ^ 32

/-- R415, R421, R422, R431, R433, R434: notices and wakes. -/
def Obligations.NoticesAndWakes : Prop :=
  ∀ s : State,
    (∀ h : RxHdr, s.arrives h .service →
      (∀ info : List Byte, info.length = 16 →
        ∃ t n, exec (.hold h info) s = .next t ∧ t = { s with ports := t.ports } ∧ n ∈ (t.port h.port).notices
          ∧ n = ⟨leAt info 0 2, leAt info 2 1, leAt info 3 1, leAt info 4 1, leAt info 5 1, s.now⟩
          ∧ (∀ m, m ∈ (t.port h.port).notices ↔ m = n ∨ (m ∈ (s.port h.port).notices
              ∧ (m.origin ≠ n.origin ∨ m.cause ≠ n.cause ∨ m.unit ≠ n.unit)))
          ∧ ∀ q, q ≠ h.port → t.port q = s.port q)
      ∧ (∀ (info : List Byte) (node rep hops ev : Nat), info.length = 16 → node = leAt info 0 2 → rep = leAt info 2 2 →
          hops = leAt info 4 1 → ev = leAt info 8 4 →
        ((node, rep, ev) ∈ s.cle.seen → ∃ t, exec (.lost h info) s = .next t ∧ t = { s with ports := t.ports } ∧
            (∀ q, q ≠ h.port → t.port q = s.port q))
        ∧ ((node, rep, ev) ∉ s.cle.seen → s.cle.colls = [] →
          ∃ t, exec (.lost h info) s = .next t ∧ node ∈ t.cle.lost ∧ (∀ k, k ≠ node → (k ∈ t.cle.lost ↔ k ∈ s.cle.lost))
            ∧ (node, rep, ev) ∈ t.cle.seen ∧ t.dram = s.dram
            ∧ (∀ q, q < 16 → q ≠ h.port → s.role q = 1 → (s.port q).st = .service → hops < 63 →
                ∃ f, (t.port q).queue = (s.port q).queue ++ [f] ∧ f.frame.type = 0xD ∧ leAt f.frame.info 0 2 = node
                  ∧ leAt f.frame.info 2 2 = rep ∧ leAt f.frame.info 4 1 = hops + 1 ∧ leAt f.frame.info 8 4 = ev)
            ∧ (63 ≤ hops → ∀ q, q ≠ h.port → t.port q = s.port q)
            ∧ (t.port h.port).queue = (s.port h.port).queue))
      ∧ (s.role h.port = 1 → ∀ info : List Byte, info.length = 16 →
        (s.cle.nodeValid = true → leAt info 0 2 = s.cle.node → ∀ p, s.routeOf (leAt info 2 2) = some p → p ≠ h.port →
          (leAt info 4 1 < 64 → (s.cle.coreGen.getD (leAt info 4 1) 0).toNat = leAt info 6 2 →
            ∃ t f, exec (.wake h info) s = .next t ∧ leAt info 4 1 ∈ t.cle.linkWakes
              ∧ (t.port p).queue = (s.port p).queue ++ [f] ∧ f.frame.type = 0xF ∧ leAt f.frame.info 0 2 = leAt info 2 2
              ∧ leAt f.frame.info 5 1 = stOk ∧ leAt f.frame.info 8 4 = leAt info 8 4 ∧ t.cores = s.cores)
          ∧ ((s.cle.coreGen.getD (leAt info 4 1) 0).toNat ≠ leAt info 6 2 →
            ∃ t f, exec (.wake h info) s = .next t ∧ t.cle = s.cle ∧ (t.port p).queue = (s.port p).queue ++ [f]
              ∧ f.frame.type = 0xF ∧ leAt f.frame.info 5 1 = stStale ∧ leAt f.frame.info 8 4 = leAt info 8 4))
        ∧ (leAt info 0 2 ≠ s.cle.node → ∀ p, s.routeOf (leAt info 0 2) = some p → p ≠ h.port →
          ∃ t f, exec (.wake h info) s = .next t ∧ t.cle = s.cle ∧ (t.port p).queue = (s.port p).queue ++ [f]
            ∧ f.frame.type = 0xE ∧ f.frame.info = info)
        ∧ (∀ (c : Coll) (d : Desc), s.cle.nodeValid = true → leAt info 0 2 = s.cle.node → s.cle.colls = [c] →
            c.waiting = some (leAt info 8 4) → s.desc? c.desc = some d → d.st = .running → d.marks = [] → leAt info 5 1 = stOk →
          ∃ t d', exec (.wakeAck h info) s = .next t ∧ t.cle.colls = [] ∧ t.desc? c.desc = some d' ∧ d'.st = .ended
            ∧ d'.status = stOk ∧ d'.detail = BitVec.ofNat 64 c.detail ∧ t.dram = s.dram)))
    ∧ (∀ (p k : Nat) (n : Notice), p < s.ports.length → (s.port p).notices[k]? = some n →
      (n.at_ + 30 ≤ s.now →
        ∃ t, exec (.holdLapse p k) s = .next t ∧ t = { s with ports := t.ports } ∧ (t.port p).quietSince = s.now
          ∧ (t.port p).notices = (s.port p).notices.eraseIdx k ∧ ∀ q, q ≠ p → t.port q = s.port q)
      ∧ (s.now < n.at_ + 30 → exec (.holdLapse p k) s = .next s))
    ∧ ((∀ p, (s.port p).st ≠ .service) → exec .holdRefresh s = .next s)
    ∧ (∀ i m cls, s.dev.life = .service → s.mcu[i]? = some m → i < 8 → (∀ j x, s.mcu[j]? = some x → j ≠ i → x.therm ≠ .gapped ∧ x.therm ≠ .stopped) →
        (m.therm = .gapped ∧ cls = 1) ∨ (m.therm = .stopped ∧ s.now ≤ m.stoppedAt + 1000000 ∧ cls = 2)
          ∨ (m.therm = .stopped ∧ m.stoppedAt + 1000000 < s.now ∧ cls = 3) →
      ∃ t, exec .holdRefresh s = .next t ∧ t = { s with ports := t.ports } ∧
        ∀ p, p < 16 → p < s.ports.length → (s.port p).st = .service →
          ∃ f r, (t.port p).queue = (s.port p).queue ++ f :: r ∧ f.frame.type = 0xC ∧ leAt f.frame.info 2 1 = cls
            ∧ leAt f.frame.info 3 1 = 1 ∧ leAt f.frame.info 4 1 = 0 ∧ leAt f.frame.info 5 1 = i)

/-- R435 to R442, R445: the twin controller. -/
def Obligations.Twin : Prop :=
  ∀ s : State,
    (s.dev.life = .service → s.dev.twnAliveOut = true →
      exec .twnHbToggle s = .next { s with dev := { s.dev with twnHbOut := !s.dev.twnHbOut } })
    ∧ (s.twc.st = .pairing → s.role 14 = 2 → s.role 15 = 2 → (s.port 14).st = .service → (s.port 15).st = .service →
        ∀ id, (s.port 14).peer = some id → (s.port 15).peer = some id → s.dev.twnAliveIn = true →
      ∃ t, exec .twnHbInChange s = .next t ∧ t.twc.hbLive = true ∧ t.twc.hbAt = some s.now ∧ t.dev.twnHbIn = !s.dev.twnHbIn
        ∧ t.twc.peer = some id ∧ t.twc.st = (if s.twc.emptied then .unmirrored else .paired) ∧ t.dram = s.dram)
    ∧ (s.twc.st = .unpaired →
      (∃ t, exec .twnAliveRise s = .next t ∧ t = { s with dev := t.dev, twc := t.twc } ∧ t.dev.twnAliveIn = true
        ∧ t.twc.st = .unpaired ∧ (t.twc.hbLive = true ↔ ∃ a, s.twc.hbAt = some a ∧ s.now ≤ a + 1000))
      ∧ ∃ t, exec .twnHbInChange s = .next t ∧ t.twc.st = .unpaired ∧ t.twc.hbLive = s.dev.twnAliveIn)
    ∧ (∀ a, s.twc.hbAt = some a → s.now ≤ a + 1000 → exec (.heartbeatLost false) s = .next s)
    ∧ (∀ low, s.twc.hbLive = true → (low = true ∨ ∀ a, s.twc.hbAt = some a → a + 1000 < s.now) →
      (s.twc.st = .paired ∨ s.twc.st = .unmirrored → Tab.wf none s.twc.cat = true →
        ∃ t, exec (.heartbeatLost low) s = .next t ∧ t.twc.st = .released ∧ t.twc.hbLive = false
          ∧ (low = true → t.dev.twnAliveIn = false)
          ∧ (∀ e x, s.twc.entry e = some x → some x.origin = s.twc.peer →
              ∃ y, t.twc.entry e = some y ∧ y.kind = .retained ∧ y.blocks = x.blocks)
          ∧ (∀ id d, s.desc? id = some d → d.type = tyCheckpoint → d.st = .running → d.marks = [] →
              ∃ d', t.desc? id = some d' ∧ d'.st = .ended ∧ d'.status = stTwin)
          ∧ t.dram = s.dram)
      ∧ (s.twc.st ≠ .paired → s.twc.st ≠ .unmirrored →
        ∃ t, exec (.heartbeatLost low) s = .next t ∧ t.twc = { s.twc with hbLive := false } ∧ t.qmg = s.qmg ∧ t.dram = s.dram))
    ∧ (∀ h : RxHdr, s.arrives h .service → s.role h.port = 2 → h.poison = 0 →
      ((s.twc.ckptDone = true →
          ∃ t, exec (.twinState h false) s = .next t ∧ t.twc.emptied = true
            ∧ (s.twc.st = .paired → t.twc.st = .unmirrored) ∧ t.dram = s.dram)
        ∧ (∃ t, exec (.twinState h true) s = .next t ∧ t.twc = s.twc ∧ t.dram = s.dram))
      ∧ (∀ (info payload : List Byte) (x : CatEntry) (e off : Nat) (peer : Ident) (pas : List Nat), info.length = 16 →
          e = leAt info 0 1 → off = leAt info 8 8 → (s.port h.port).peer = some peer → s.twc.entry e = some x →
          x.kind = .progress → pas = addrs (x.phys off) payload.length → x.got + payload.length < 65536 * x.blocks.length →
          (∀ a ∈ pas, s.chanDead a = false) → Mem.wf s.dram.bytes = true →
        (65536 * x.blocks.length < off + payload.length →
          ∃ t, exec (.mirror h info payload none) s = .next t ∧ t.dram = s.dram ∧ t.twc = s.twc)
        ∧ (off + payload.length ≤ 65536 * x.blocks.length → ∃ t, exec (.mirror h info payload none) s = .next t
          ∧ (∀ (j a : Nat), pas[j]? = some a → t.rdByte a = payload.getD j 0) ∧ (∀ a, a ∉ pas → t.rdByte a = s.rdByte a)
          ∧ ((off + payload.length) % 65536 = 0 → ∃ f, (t.port h.port).queue = (s.port h.port).queue ++ [f] ∧ f.frame.type = 0xA
              ∧ leAt f.frame.info 0 1 = e ∧ leAt f.frame.info 8 8 = off / 65536 * 65536)
          ∧ ((off + payload.length) % 65536 ≠ 0 → (t.port h.port).queue = (s.port h.port).queue)))
      ∧ (∀ (info : List Byte) (c : CkptRun) (d : Desc), info.length = 16 → s.twc.ckpts = [c] → c.entry = leAt info 0 1 →
          s.desc? c.desc = some d → d.type = tyCheckpoint → d.st = .running → d.marks = [] → c.total ≤ c.acked + 65536 →
        ∃ t d', exec (.mirrorAck h info) s = .next t ∧ t.twc.ckpts = [] ∧ t.twc.ckptDone = true ∧ t.desc? c.desc = some d'
          ∧ d'.st = .ended ∧ d'.status = stOk ∧ d'.detail = BitVec.ofNat 64 c.total ∧ t.dram = s.dram)
      ∧ (∀ (info : List Byte) (c : CkptRun) (d : Desc), info.length = 16 → s.twc.ckpts = [c] → c.entry = leAt info 0 1 →
          s.desc? c.desc = some d → d.type = tyCheckpoint → d.st = .running → d.marks = [stCancelled] → d.stop = true →
          c.acked + 65536 < c.total →
        ∃ t d', exec (.mirrorAck h info) s = .next t ∧ t.twc.ckpts = [] ∧ t.desc? c.desc = some d'
          ∧ d'.st = .ended ∧ d'.status = stCancelled ∧ d'.detail = BitVec.ofNat 64 (c.acked + 65536) ∧ t.dram = s.dram))
    ∧ (∀ (id : Nat) (d : Desc) (ent : Option Nat), s.desc? id = some d → d.marks = [] → d.type = tyCheckpoint → s.canStart d = true →
      (s.twc.close = true → exec (.checkpoint id ent) s = .next s)
      ∧ (s.twc.close = false →
        ((∃ i, i < 64 ∧ (d.fld 0x18 8).testBit i = true ∧ ((s.ctx d.ctx).range i).valid = false) →
          ∃ t d', exec (.checkpoint id ent) s = .next t ∧ t.desc? id = some d' ∧ d'.st = .ended ∧ d'.status = stPerm ∧ t.twc = s.twc)
        ∧ ((∀ i, i < 64 → (d.fld 0x18 8).testBit i = true → ((s.ctx d.ctx).range i).valid = true
              ∧ (((s.ctx d.ctx).range i).kind = .device ∨ ((s.ctx d.ctx).range i).kind = .placed)
              ∧ ((s.ctx d.ctx).range i).perm.getLsbD 0 = true) →
          (s.twc.st = .unpaired → ∃ t d', exec (.checkpoint id ent) s = .next t ∧ t.desc? id = some d' ∧ d'.st = .ended ∧ d'.status = stLimit)
          ∧ (s.twc.st = .released → ∃ t d', exec (.checkpoint id ent) s = .next t ∧ t.desc? id = some d' ∧ d'.st = .ended ∧ d'.status = stTwin)
          ∧ (s.twc.st = .paired → s.twinPorts ≠ [] →
            (ent = none → ∃ t d', exec (.checkpoint id ent) s = .next t ∧ t.desc? id = some d' ∧ d'.st = .ended ∧ d'.status = stLimit)
            ∧ (∀ e, ent = some e → ∃ t d' c, exec (.checkpoint id ent) s = .next t
                ∧ { s with qmg := t.qmg, twc := t.twc, ports := t.ports }.translated t
                ∧ t.desc? id = some d' ∧ d'.st = .running ∧ d'.ready = true ∧ t.twc.ckpts.length = s.twc.ckpts.length + 1
                ∧ c ∈ t.twc.ckpts ∧ c.desc = id ∧ c.entry = e ∧ c.acked = 0
                ∧ c.total = ((List.range 64).map (fun i => if (d.fld 0x18 8).testBit i = true then
                    ((s.ctx d.ctx).range i).len / 65536 * 65536 else 0)).sum)))))
    ∧ (s.serves .twc → s.twc.cmd.busy = false → ∀ e c, e < 256 → c < 4096 →
      (∀ kept, kept = decide (∃ x, s.twc.entry e = some x ∧ x.kind = .retained) →
        (kept = false → s.twc.close = false →
          (∃ t, exec (.importEntry e c) s = .next t ∧ t = { s with twc := t.twc } ∧ t.twc.cmd.code = 3 ∧ t.twc.cmd.done = true
            ∧ t.twc.run = none ∧ t.twc.cat = s.twc.cat)
          ∧ (∃ t, exec (.send e) s = .next t ∧ t = { s with twc := t.twc } ∧ t.twc.cmd.code = 3 ∧ t.twc.cat = s.twc.cat)
          ∧ (∃ t, exec (.discard e) s = .next t ∧ t = { s with twc := t.twc } ∧ t.twc.cmd.code = 3 ∧ t.twc.cat = s.twc.cat))
        ∧ (kept = true →
          (s.twc.close = true → ∃ t, exec (.importEntry e c) s = .next t ∧ t.twc.cmd.code = 2 ∧ t.twc.cat = s.twc.cat)
          ∧ (s.twc.close = false → (s.ctx c).live = false →
            ∃ t, exec (.importEntry e c) s = .next t ∧ t = { s with twc := t.twc } ∧ t.twc.cmd.code = 4 ∧ t.twc.cat = s.twc.cat)
          ∧ (s.twc.close = false → (s.ctx c).live = true → s.importBad c ((s.twc.entry e).getD ⟨.progress, 0, 0, 0, [], 0, [], 0⟩) = none →
            ∃ t, exec (.importEntry e c) s = .next t ∧ t = { s with twc := t.twc } ∧ t.twc.cmd.busy = true
              ∧ t.twc.run = some ⟨false, e, c, 0, 0, 0, false⟩ ∧ t.twc.cat = s.twc.cat)
          ∧ (s.twc.close = false → s.twc.st = .unpaired ∨ s.twinPorts = [] →
            ∃ t, exec (.send e) s = .next t ∧ t = { s with twc := t.twc } ∧ t.twc.cmd.code = 6 ∧ t.twc.cat = s.twc.cat)
          ∧ (s.twc.close = false → s.twc.st = .paired → s.twinPorts ≠ [] →
            ∃ t, exec (.send e) s = .next t ∧ t = { s with twc := t.twc } ∧ t.twc.cmd.busy = true
              ∧ t.twc.run = some ⟨true, e, 0, 0, 0, 0, false⟩)
          ∧ (Tab.wf none s.twc.cat = true →
            ∃ t, exec (.discard e) s = .next t ∧ t.twc.cmd.code = 0 ∧ t.twc.entry e = none
              ∧ (∀ k, k ≠ e → t.twc.entry k = s.twc.entry k) ∧ t.dram.bytes = s.dram.bytes
              ∧ ∀ x b, s.twc.entry e = some x → b ∈ x.blocks → b ∉ t.dram.clean)))
      ∧ (s.twc.emptied = false → ∃ t, exec .ackEmptied s = .next t ∧ t = { s with twc := t.twc } ∧ t.twc.cmd.code = 8
          ∧ t.twc.st = s.twc.st)
      ∧ (s.twc.emptied = true → ∃ t, exec .ackEmptied s = .next t ∧ t.twc.cmd.code = 0 ∧ t.twc.emptied = false
          ∧ (s.twc.st = .unmirrored → s.twinPorts ≠ [] → t.twc.st = .paired) ∧ t.dram = s.dram))
    ∧ (∀ (r : TwinRun) (x : CatEntry) (i o : Nat) (src dst : List Nat), s.twc.run = some r → r.send = false →
        s.twc.entry r.entry = some x → x.chunkAt r.pos = some (i, o) → src = addrs (x.phys (65536 * r.pos)) 65536 →
        dst = addrs (((s.ctx r.ctx).range i).phys o) 65536 → (∀ a ∈ dst, s.chanDead a = false) → Mem.wf s.dram.bytes = true →
        s.unheld → s.importBad r.ctx x = none → ((s.ctx r.ctx).range i).draining = false →
        ((s.ctx r.ctx).range i).switching = false →
      ∃ t, exec (.twinCopyChunk none) s = .next t
        ∧ (∀ (j a b : Nat), src[j]? = some a → dst[j]? = some b → t.rdByte b = s.rdByte a)
        ∧ (∀ a, a ∉ dst → t.rdByte a = s.rdByte a)
        ∧ (x.blocks.length ≤ r.pos + 1 → t.twc.run = none ∧ t.twc.cmd.code = 0 ∧ t.twc.cmd.done = true)
        ∧ (r.pos + 1 < x.blocks.length → t.twc.run = some { r with pos := r.pos + 1 }))
    ∧ (∀ r : TwinRun, s.twc.run = some r → r.send = true → r.pos = 0 → (s.twc.entry r.entry).isSome = true →
      ∃ t, exec (.twinCopyChunk none) s = .next t ∧ t = { s with twc := t.twc } ∧ t.twc.cmd.code = 7 ∧ t.twc.cat = s.twc.cat)
    ∧ (s.serves .twc →
      (∀ b, ∃ t, exec (.twcClose b) s = .next t ∧ t = { s with twc := { s.twc with close := b } })
      ∧ (∀ r, s.twc.ckpts = [] → s.twc.run = some r →
        (r.send = false ∨ 65536 * r.pos ≤ r.acked →
          ∃ t, exec .twcAbort s = .next t ∧ t = { s with twc := t.twc } ∧ t.twc.run = none ∧ t.twc.cmd.code = 0xA
            ∧ t.twc.cmd.op = (if r.send then 2 else 1) ∧ t.twc.cat = s.twc.cat)
        ∧ (r.send = true → r.acked < 65536 * r.pos →
          exec .twcAbort s = .next { s with twc := { s.twc with run := some { r with stop := true } } }))
      ∧ (∀ (k : CkptRun) (d : Desc), s.twc.ckpts = [k] → s.twc.run = none → s.desc? k.desc = some d → d.type = tyCheckpoint →
          d.st = .running → d.marks = [] →
        ∃ t d', exec .twcAbort s = .next t ∧ t.twc.ckpts = [k] ∧ t.desc? k.desc = some d' ∧ d'.st = .running ∧ d'.stop = true
          ∧ d'.marks = [stCancelled] ∧ t.dram = s.dram))

/-- R107, R108, R466 to R470. -/
def Obligations.TestPacks : Prop :=
  ∀ s : State, s.cores.length = 64 → Mem.wf s.dram.bytes = true →
    let ended := fun (o : Host.Outcome State Fault Refusal) (code : Nat) =>
      ∃ t, o = .next t ∧ t.svm.cmd.code = code ∧ t.svm.cmd.busy = false ∧ t.svm.pack = s.svm.pack ∧ t.svm.fill = s.svm.fill
        ∧ t.cores = s.cores ∧ t.dram = s.dram ∧ t.dev.life = s.dev.life
    let clean := fun (t : State) => (∀ n a, n < 64 → inSpad n a → t.rdByte a = 0)
      ∧ ∀ b, 0x1000000 ≤ b * 65536 → b * 65536 < 0x41000000 → nsHas t.dram.clean b = false
    let rest := if s.tkm.ownerKey.isSome then Life.held else .unclaimed
    (s.serves .svm → s.svm.cmd.busy = false → s.tkm.pending = none →
      (s.dev.life = .unclaimed → ended (exec .packBegin s) 1)
      ∧ (s.dev.life = .test ∨ s.dev.life = .held ∧ s.tkm.ownerKey ≠ none →
        ∃ t, exec .packBegin s = .next t ∧ t.dev.life = .test ∧ t.svm.fill = 0 ∧ t.svm.pack = [] ∧ t.svm.packBegun = true
          ∧ t.svm.fwBegun = false ∧ t.svm.cmd.code = 0 ∧ t.svm.cmd.done = true ∧ t.cores = s.cores ∧ t.dram = s.dram
          ∧ (s.dev.life = .held → t.sim.present = []))
      ∧ (s.dev.life = .test → s.svm.packBegun = true →
        (∀ len, (len < 64 ∨ 4096 < len ∧ len < 8192 ∨ len < 8192 ∧ len % 64 ≠ 0 → ended (exec (.packChunk len) s) 2)
          ∧ (64 ≤ len → len ≤ 4096 → len % 64 = 0 →
            (65536 < s.svm.fill + len → ended (exec (.packChunk len) s) 3)
            ∧ (s.svm.fill + len ≤ 65536 → Mem.wf s.svm.pack = true →
              ∃ t, exec (.packChunk len) s = .next t ∧ t.svm.cmd.code = 0 ∧ t.svm.fill = s.svm.fill + len
                ∧ (∀ a, Mem.read t.svm.pack a = if s.svm.fill ≤ a ∧ a < s.svm.fill + len then Mem.read s.svm.chunk (a - s.svm.fill)
                    else Mem.read s.svm.pack a)
                ∧ t.cores = s.cores ∧ t.dram = s.dram)))
        ∧ (s.svm.fill = 0 → ended (exec .packRun s) 1)
        ∧ (0 < s.svm.fill → s.packCode ≠ 0 → ended (exec .packRun s) s.packCode)
        ∧ (0 < s.svm.fill → s.svm.fill ≤ 65536 → s.packCode = 0 →
          let h := s.svm.pack.readBytes 0 128
          let named := fun (n : Nat) => bit (leAt h 0x18 8) n = true ∧ s.fit n = true
          ∃ t p, exec .packRun s = .next t ∧ t.svm.cmd.busy = true ∧ t.svm.packRun = some p
            ∧ p.vendor = decide (leAt h 0xC 1 = 1) ∧ p.expect = BitVec.ofNat 512 (leAt h 0x40 64)
            ∧ p.endsAt = s.now + 1000 * leAt h 0x24 4 ∧ (∀ n, n ∈ p.cores ↔ n < 64 ∧ named n)
            ∧ t.flt.testPass = 0 ∧ t.flt.testFail = 0
            ∧ (∀ n, n < 64 → named n → t.core n = { (s.core n).fresh with
                gangRole := 0, members := [], spare := false, run := .running, work := .pack
                g := (List.replicate 32 0).set 1 (BitVec.ofNat 64 n), pc := BitVec.ofNat 64 (0x100000000 + leAt h 0x20 4) })
            ∧ (∀ n, n < 64 → ¬named n → t.core n = { (s.core n).fresh with gangRole := 0, members := [], spare := false })
            ∧ (∀ n a, n < 64 → inSpad n a → t.rdByte a = 0)
            ∧ (∀ i, i < s.svm.fill → s.chanDead (0x1000000 + i) = false → t.rdByte (0x1000000 + i) = Mem.read s.svm.pack i)
            ∧ (∀ a, 0x1000000 + s.svm.fill ≤ a → a < 0x41000000 → t.rdByte a = 0)
            ∧ ∀ a, (a < 0x1000000 ∨ 0x41000000 ≤ a) → (∀ n, n < 64 → ¬inSpad n a) → t.rdByte a = s.rdByte a))
      ∧ (s.dev.life = .test → s.dev.testFactory = false → ∃ t, exec .testExit s = .next t ∧ t.dev.life = rest
          ∧ t.svm.packBegun = false ∧ t.svm.cmd.code = 0 ∧ t.svm.cmd.done = true ∧ clean t))
    ∧ (s.svm.packRun = none → exec .packRunEnd s = .next s)
    ∧ (∀ p, s.svm.packRun = some p → p.cores ≠ [] → s.now < p.endsAt → exec .packRunEnd s = .next s)
    ∧ ∀ p, s.svm.packRun = some p → (∀ n ∈ p.cores, n < 64) → p.cores = [] ∨ p.endsAt ≤ s.now →
        ∃ t, exec .packRunEnd s = .next t ∧ t.svm.packRun = none ∧ t.svm.cmd.busy = false ∧ t.svm.cmd.code = 0
          ∧ t.svm.cmd.done = true ∧ t.dev.life = s.dev.life ∧ clean t
          ∧ (∀ n ∈ p.cores, t.flt.testFail.getLsbD n = true
            ∧ (p.vendor = true → t.pcm.repairMap.getLsbD n = true ∧ t.dev.coreAvail.getLsbD n = false))
          ∧ (p.cores = [] → t.flt.testFail = s.flt.testFail ∧ t.flt.testPass = s.flt.testPass)

/-- R448, R454, R457 to R462, R464, R465, R472. That a run's comparison follows its end at once is the model's
(notes/assumptions/75.md). -/
def Obligations.FaultService : Prop :=
  ∀ s : State,
    (s.serves .flt → s.flt.cmd.busy = false →
      (∃ t, exec .clearLog s = .next t ∧ t = { s with flt := t.flt } ∧ t.flt.log = [] ∧ t.flt.tail = 0 ∧ t.flt.head = 0
        ∧ t.flt.lost = 0 ∧ t.flt.nextRid = 1 ∧ t.flt.cmd.code = 0 ∧ t.flt.cmd.op = 2 ∧ t.flt.cmd.done = true
        ∧ t.flt.recheck = s.flt.recheck ∧ t.flt.patrol = s.flt.patrol)
      ∧ ∀ c, c < 4096 →
        let ends := fun (code : Nat) => exec (.recheck c) s
          = .next { s with flt := { s.flt with cmd := { s.flt.cmd with busy := false, done := true, op := 1, code := code } } }
        (s.dev.life ≠ .service ∨ s.dev.frost = true → ends 1)
        ∧ (s.dev.life = .service → s.dev.frost = false →
          (s.img (·.maxCtx) ≤ c → ends 2)
          ∧ (c < s.img (·.maxCtx) → (s.ctx c).live = false → ends 3)
          ∧ (c < s.img (·.maxCtx) → (s.ctx c).live = true → s.recheckArgBad c = false → (s.ctx c).killed = false →
            (s.recheckNoMachine = true → ends 4)
            ∧ (s.recheckNoMachine = false → s.flt.recheck.phase ≠ 0 → ends 5)
            ∧ (s.recheckNoMachine = false → s.flt.recheck.phase = 0 → s.grid? 0 = none →
              let r : Recheck := ⟨1, 0, 0, s.flt.argCore, c, s.flt.argGrid, s.flt.argA, s.flt.argB, none⟩
              ∃ t, exec (.recheck c) s = .next t ∧ t.flt.cmd.code = 0 ∧ t.flt.cmd.done = true ∧ t.dev.life = .service
                ∧ ∀ g, s.gridOf 0 c s.flt.argGrid (chkFix s.flt.argA) = .ok g →
                    t.flt.recheck = r ∧ t.ple.grids = s.ple.grids ++ [{ g with fixed := [] }]))))
    ∧ (s.flt.recheck.phase = 0 → exec .recheckRunComplete s = .next s)
    ∧ (s.flt.recheck.phase ≠ 0 → ∀ st, s.flt.recheck.ran = some st →
        let r := s.flt.recheck
        let o := exec .recheckRunComplete s
        let verdict := fun (v f : Nat) => ∃ t, o = .next t ∧ t.flt.recheck.phase = 0 ∧ t.flt.recheck.verdict = v
          ∧ t.flt.recheck.status = f ∧ t.dram = s.dram ∧ t.ctxs = s.ctxs
        (st ≠ stOk → verdict 4 st)
        ∧ (st = stOk → r.phase = 1 →
          (s.recheckCmp r.chkA = .equal true → verdict 1 0)
          ∧ (s.recheckCmp r.chkA = .equal false → ∀ g, s.gridOf 0 r.ctx r.grid (chkFix r.chkB) = .ok g →
            ∃ t, o = .next t ∧ t.flt.recheck = { r with phase := 2, ran := none }
              ∧ t.ple.grids = s.ple.grids ++ [{ g with fixed := [] }]))
        ∧ (st = stOk → r.phase = 2 →
          (s.recheckCmp r.chkB = .equal false → verdict 2 0)
          ∧ (s.recheckCmp r.chkB = .equal true → ∃ t, o = .next t ∧ t.flt.recheck.phase = 0 ∧ t.flt.recheck.verdict = 3
            ∧ (r.core < 64 → t.pcm.failed.getLsbD r.core = true))))
    ∧ (s.flt.squall = false ∨ s.now < s.flt.heavyAt + 1000000 → exec .squallExit s = .next s)
    ∧ (s.flt.squall = true → s.flt.heavyAt + 1000000 ≤ s.now → ∃ t, exec .squallExit s = .next t
        ∧ t = { s with flt := t.flt, dev := { s.dev with faultNew := true }, host := { s.host with msix := t.host.msix, msixPba := t.host.msixPba } }
        ∧ (s.flt.unread < 1023 → Tab.wf LogRec.none s.flt.log = true → ∃ r, Tab.get LogRec.none t.flt.log s.flt.tail = r ∧ r.type = 0xF ∧ r.cause = 2
            ∧ r.rid = s.flt.nextRid)
        ∧ ((s.flt.dueTimes.filter (fun t => decide (s.now < t + 10000))).length < 256 → t.flt.squall = false))
    ∧ (∀ containment others,
        let f := (List.range 5).map (fun i => (containment :: others).getD i 0 % 1024)
        let o := if 900 < f.sum then some (s.flt.svpOver.getD s.now) else none
        let u := if f.sum < 700 then some (s.flt.svpUnder.getD s.now) else none
        let rises := (∃ t, o = some t ∧ t + 10000 ≤ s.now) ∧ s.flt.svpStage < 2
        let falls := (∃ t, u = some t ∧ t + 100000 ≤ s.now) ∧ 0 < s.flt.svpStage
        let to_ := fun (a b : Option Nat) (st : Nat) => exec (.svpLoadStage containment others) s = .next { s with flt := { s.flt with
          svpLoad := f, svpOver := a, svpUnder := b, svpStage := st } }
        (rises → to_ (some s.now) u (s.flt.svpStage + 1))
        ∧ (falls → to_ o (some s.now) (s.flt.svpStage - 1))
        ∧ (¬rises → ¬falls → to_ o u s.flt.svpStage))
    ∧ (∀ cause index,
        (s.dev.life = .off → exec (.fatalError cause index) s = .next s)
        ∧ (s.dev.life = .boot → ∃ t, exec (.fatalError cause index) s = .next t ∧ t.dev.life = .boot ∧ t.dev.faultNew = true
            ∧ t.cores = s.cores ∧ t.dram = s.dram ∧ t.sim = s.sim)
        ∧ (s.dev.life = .service → ∃ t, exec (.fatalError cause index) s = .next t
            ∧ t.dev.life = (if s.tkm.ownerKey.isSome then .held else .unclaimed) ∧ t.dev.faultNew = true ∧ t.dev.frost = false
            ∧ t.sim.image = none ∧ t.qmg.queues = [] ∧ t.qmg.descs = [] ∧ t.ctxs = [] ∧ t.ple.vms = [] ∧ t.ple.grids = []
            ∧ t.ple.moves = [] ∧ t.host.bisnp = [] ∧ (∀ h ∈ t.host.hdm, h.committed = false) ∧ t.dev.twnAliveOut = false
            ∧ (∀ c ∈ t.cores, c.run = .idle ∧ c.ctxValid = false ∧ c.work = .none ∧ c.mx.jobs = [])
            ∧ (∀ x ∈ t.ports, x.queue = [] ∧ x.unacked = [])
            ∧ t.flt.recheck.phase = 0 ∧ t.tkm.ownerKey = s.tkm.ownerKey))
    ∧ ∀ n, n < 64 → s.flt.patrol.length = 64 → s.cores.length = 64 →
        let p := s.patrol n
        (s.dev.life ≠ .service ∨ s.fit n = false ∨ p.due = true ∨ p.running = true
            ∨ s.now < p.since + 3600000000 * s.img (·.interval) → exec (.patrolDue n) s = .next s)
        ∧ (s.dev.life = .service → s.fit n = true → p.due = false → p.running = false →
            p.since + 3600000000 * s.img (·.interval) ≤ s.now →
          ∃ t, exec (.patrolDue n) s = .next t ∧ (t.patrol n).due = true ∧ (t.patrol n).dueAt = s.now ∧ (t.patrol n).ran = []
            ∧ (t.patrol n).saved = [] ∧ (s.atBoundary n = false → (s.core n).spare = false → (t.patrol n).running = false))
        ∧ (s.dev.life ≠ .service ∨ p.due = false ∨ p.running = true ∨ s.now < p.dueAt + 3600000000 * s.img (·.deadline) →
          exec (.patrolDeadline n) s = .next s)
        ∧ (s.dev.life = .service → p.due = true → p.running = false → p.dueAt + 3600000000 * s.img (·.deadline) ≤ s.now → ∃ t, exec (.patrolDeadline n) s = .next t
            ∧ t = { s with flt := { s.flt with patrol := s.flt.patrol.set n { p with overdue := true } } })
        ∧ (p.running = false → ∀ pass, exec (.patrolTestEnd n pass) s = .next s)
        ∧ (p.running = true → Mem.wf s.dram.bytes = true → ∀ pass, ∃ t, exec (.patrolTestEnd n pass) s = .next t
            ∧ (t.patrol n).running = false ∧ (t.patrol n).due = false ∧ (t.patrol n).overdue = false
            ∧ (t.patrol n).last = (if pass then 1 else 2) ∧ (t.patrol n).since = s.now
            ∧ (t.core n).g = List.replicate 32 0 ∧ (t.core n).d = List.replicate 32 0
            ∧ (∀ a, inSpad n a → t.rdByte a = 0) ∧ (∀ a, ¬inSpad n a → t.rdByte a = s.rdByte a)
            ∧ t.pcm.failed.getLsbD n = !pass ∧ (pass = true → t.fit n = true))

/-- R80, R92 to R94, R487, R503, R507: resets from the inputs, and the end of boot. -/
def Obligations.ResetInputsAndBoot : Prop :=
  ∀ s : State,
    (∃ t, exec .porNAssert s = .next t ∧ t.dev.life = .off ∧ t.dev.porN = false ∧ t.dev.twnAliveOut = false
      ∧ t.dev.twnHbOut = false ∧ (∀ p ∈ t.ports, p.st = .off) ∧ t.dram.bytes = [] ∧ t.sim.image = none
      ∧ (∀ i, i < 17 → (t.island i).st = .off) ∧ (t.island 17).st = .running ∧ t.tkm.ownerKey = s.tkm.ownerKey)
    ∧ (s.dev.porN = false →
      ∃ t, exec .powerOnReset s = .next t ∧ t.dev.life = .boot ∧ t.dev.porN = true ∧ t.sim.image = none
        ∧ t.flt.log = [] ∧ t.tkm.ownerKey = s.tkm.ownerKey ∧ t.sim.ownerFloor = s.sim.ownerFloor)
    ∧ (s.dev.life ≠ .off → s.dev.wrstN = true →
      ∃ t, exec .wrstNAssert s = .next t ∧ t.dev.life = .boot ∧ t.dev.wrstN = false ∧ t.sim.image = none ∧ t.ctxs = []
        ∧ t.flt.log = s.flt.log ∧ t.tkm.ownerKey = s.tkm.ownerKey ∧ t.tkm.pending = s.tkm.pending ∧ t.alive = false)
    ∧ (s.dev.life ≠ .off → s.dev.perstN = true →
      ∃ t, exec .perstNAssert s = .next t ∧ t.dev.life = .boot ∧ t.dev.perstN = false ∧ t.sim.image = none ∧ t.ctxs = []
        ∧ t.flt.log = s.flt.log ∧ t.tkm.ownerKey = s.tkm.ownerKey ∧ t.alive = false)
    ∧ (s.dev.life = .boot → s.dev.porN = true → (s.dev.wrstN = false ∨ s.dev.perstN = false) →
      ∃ t, exec .warmResetRelease s = .next t ∧ t.dev.life = .boot ∧ t.alive = true ∧ t.svm.booted = true)
    ∧ (s.dev.life = .boot → s.pinsHigh = true → s.svm.booted = true → s.svm.svn ≠ 0 → s.dev.bootHeld = false →
      ∃ t, exec .bootComplete s = .next t ∧ t.dev.coreAvail = s.bootCores
        ∧ (∀ p, s.tkm.pending = some p → t.dev.life = .recovery ∧ t.tkm.scrubActive = true ∧ t.tkm.scrubCause = p.cause)
        ∧ (s.tkm.pending = none → t.dev.life = if s.tkm.ownerKey.isSome then .held else .unclaimed))
    ∧ (s.dev.life = .boot → s.pinsHigh = true → s.svm.booted = true → s.svm.svn = 0 → s.dev.bootHeld = false →
      ∃ t, exec .bootComplete s = .next t ∧ t.dev.life = .recovery ∧ t.dev.romRecovery = true ∧ t.tkm = s.tkm)
    ∧ (s.dev.life = .boot → s.dev.bootHeld = true → s.svm.packRun = none → s.svm.booted = true → s.svm.svn ≠ 0 →
        s.tkm.pending = none → s.dev.bootHeldAt + 10000000 ≤ s.now →
      ∃ t, exec .bootHoldTimeout s = .next t ∧ t.dev.bootHeld = false
        ∧ t.dev.life = if s.tkm.ownerKey.isSome then .held else .unclaimed)
    ∧ (s.now < s.dev.bootHeldAt + 10000000 → exec .bootHoldTimeout s = .next s)

/-- R91, R96: the selection of a bank and what boot records of it. That slots 2 to 4 are zero where no bank passes is the
model's choice (notes/assumptions/124.md). -/
def Obligations.BootRunsVerifiedBank : Prop :=
  ∀ v : Svm, v.banks.length = 2 →
    (∀ v1 b fb, v.selectBank = (v1, some (b, fb)) →
      v.bankValid b = true ∧ v.bundleCode (v.bankMem b) 4194304 = 0 ∧ (fb = false ↔ v.preferred = some b)
      ∧ v.boot.bank = b ∧ v.boot.svn = bundleSvn (v.bankHeader b) ∧ v.boot.fwVersion = bundleVersion (v.bankHeader b)
      ∧ v.boot.fallback = fb ∧ v.boot.slots.length = 32
      ∧ v.boot.slots.getD 4 0 = extend 0 [BitVec.ofNat 8 (b + 2 * bnat fb)])
    ∧ (∀ v1, v.selectBank = (v1, none) → v.svn = 0 →
      v.boot.svn = 0 ∧ v.boot.slots.length = 32 ∧ ∀ k, 2 ≤ k → v.boot.slots.getD k 0 = 0)

/-- R488 to R493, R496: the resets that are commands. -/
def Obligations.Resets : Prop :=
  ∀ s : State,
    (s.alive = true →
      ∃ t, exec .cxlHotReset s = .next t ∧ exec .functionLevelReset s = .next t ∧ t.dev.life = s.dev.life
        ∧ t.sim = s.sim ∧ t.host.busMaster = false ∧ t.tkm.ownerKey = s.tkm.ownerKey
        ∧ (s.ple.vms = [] → s.ple.grids = [] → t.ctxs = s.ctxs ∧ t.qmg.queues = s.qmg.queues)
        ∧ (∀ h ∈ t.host.hdm, h.committed = false) ∧ t.spdm.sessions = [] ∧ t.pcm.softBusy = false)
    ∧ (s.serves .pcm →
      (s.dev.life = .service → s.pcm.softBusy = false → s.qmg.descs = [] →
        ∃ t, exec .softReset s = .next t ∧ t.dev.life = .service ∧ t.ctxs = [] ∧ t.qmg.queues = []
          ∧ (∀ e ∈ t.xlt.win, e.2.valid = false) ∧ t.sim = s.sim ∧ t.pcm.softBusy = false ∧ t.dev.frost = false)
      ∧ (s.dev.life ≠ .service ∨ s.pcm.softBusy = true →
        exec .softReset s = .next { s with pcm := { s.pcm with resetRefused := true } }
        ∧ ∀ n, n < 64 → exec (.coreReset n) s = .next { s with pcm := { s.pcm with resetRefused := true } })
      ∧ (s.dev.life = .unclaimed ∨ s.dev.life = .held ∨ s.dev.life = .service ∨ s.dev.life = .test →
        ∃ t, exec .warmReset s = .next t ∧ t.dev.life = .boot ∧ t.sim.image = none ∧ t.ctxs = [] ∧ t.qmg.queues = []
          ∧ t.tkm.ownerKey = s.tkm.ownerKey ∧ t.sim.ownerFloor = s.sim.ownerFloor)
      ∧ (s.dev.life = .recovery →
        exec .warmReset s = .next { s with pcm := { s.pcm with resetRefused := true } })
      ∧ (s.dev.life = .service → s.pcm.softBusy = false → s.cores.length = 64 → ∀ n, n < 64 →
          Config.fusedOff.getLsbD n = false → (∀ k ∈ s.machineOf n, k < 64) →
          (∀ k, k < 64 → s.pcm.failed.getLsbD k = false ∧ (s.patrol k).due = false) →
        ∃ t, exec (.coreReset n) s = .next t ∧ t.dev.coreAvail = s.dev.coreAvail ∧ t.dev.life = .service
          ∧ ∀ k ∈ s.machineOf n, (t.core k).g = List.replicate 32 0 ∧ (t.core k).sb = []))

/-- R475, R476: arming, disarming and expiry. -/
def Obligations.Timers : Prop :=
  ∀ (s : State) (k : Nat) (x : CTimer), k < 16 → s.pcm.timers[k]? = some x →
    (s.serves .pcm →
      (x.held = none →
        (∀ us, 0 < us → us < 2 ^ 32 →
          exec (.timerArm k us) s =
            .next { s with pcm := { s.pcm with timers := s.pcm.timers.set k ⟨some (s.now + us), none, x.expired⟩ } })
        ∧ exec (.timerDisarm k) s = .next { s with pcm := { s.pcm with timers := s.pcm.timers.set k ⟨none, none, x.expired⟩ } })
      ∧ (x.held ≠ none → exec (.timerDisarm k) s = .next s
        ∧ ∀ us, 0 < us → us < 2 ^ 32 → exec (.timerArm k us) s = .next s))
    ∧ (∀ due, x.due = some due →
      (s.now < due → exec (.timerExpiry k) s = .next s)
      ∧ (due ≤ s.now → x.held = none →
        ∃ t, exec (.timerExpiry k) s = .next t ∧ t.pcm.timers = s.pcm.timers.set k ⟨none, none, true⟩
          ∧ t = { s with pcm := t.pcm })
      ∧ (due ≤ s.now → ∀ id, x.held = some id →
        ∃ t, exec (.timerExpiry k) s = .next t ∧ (t.pcm.timers.getD k ⟨none, none, false⟩) = ⟨none, none, true⟩
          ∧ ∀ d, s.desc? id = some d → d.st = .running → d.marks = [] →
              ∃ d', t.desc? id = some d' ∧ d'.st = .ended ∧ d'.status = stOk))

/-- R478, R480 to R482: the power states of islands and of the device. -/
def Obligations.PowerStates : Prop :=
  ∀ s : State,
    (s.dev.life = .service →
      ∃ t, exec .powerStateSelect s = .next t ∧ t = { s with pcm := t.pcm }
        ∧ (t.pcm.frostEntry = true → s.pcm.frostEntry = true ∨ s.dev.frost = false ∧ s.frostDue = true)
        ∧ (∀ i, i < 8 → s.idleC i = false → (s.island i).st = .running → (t.island i).st = .running)
        ∧ (∀ i, 10 ≤ i → i < 17 → (t.island i).st = (s.island i).st ∨ (t.island i).st = .lull)
        ∧ t.island 17 = s.island 17)
    ∧ (s.dev.life = .service → s.dev.frost = true → s.wakeDue 3000 = true →
      exec .powerStateSelect s = .next { s with pcm := { s.pcm with frostWaking := true } })
    ∧ (s.dev.life = .service → s.dev.frost = false → s.pcm.frostEntry = false → s.frostDue = true →
      exec .powerStateSelect s = .next { s with pcm := { s.pcm with frostEntry := true } })
    ∧ (s.dev.life = .service → s.dev.frost = false → s.pcm.frostEntry = false → s.frostDue = false → s.pcm.islands.length = 18 →
        ∀ k, k < 8 → s.heldFor k = false →
      let x := s.island k
      let gap := s.gap x.since
      ∃ t, exec .powerStateSelect s = .next t
        ∧ (x.st = .running → s.idleC k = false → t.island k = { x with since := s.now })
        ∧ (x.st = .running → s.idleC k = true → x.waking = false →
            t.island k = { x with st := if gap < 2 then .running else if gap < 400 then .lull else .calm })
        ∧ (x.st = .lull → x.waking = false → s.idleC k = true → s.wakeDue 1 = false →
            t.island k = { x with st := if gap < 400 then .lull else .calm })
        ∧ (x.st = .lull → x.waking = false → s.wakeDue 1 = true → t.island k = { x with waking := true })
        ∧ (x.st = .calm → x.waking = false → s.wakeDue 30 = true → t.island k = { x with waking := true }))
    ∧ (s.pcm.frostEntry = true → s.dev.life = .service →
      ∃ t, exec .frostEntryComplete s = .next t ∧ t.dev.frost = true ∧ t.dev.life = .service ∧ t.dram.nsc = []
        ∧ t.dram.bytes = s.dram.bytes ∧ (∀ k, s.cached t k) ∧ (∀ i, i < 10 → (t.island i).st = .off))
    ∧ (s.dev.frost = true → s.pcm.frostWaking = true → s.pcm.frostEntry = false → s.host.heldReqs = [] →
        s.cores.length = 64 → s.pcm.islands.length = 18 → Mem.wf s.dram.bytes = true →
      ∃ t, exec .deviceWakeComplete s = .next t ∧ t.dev.frost = false ∧ t.dev.life = s.dev.life
        ∧ (∀ i, i < 18 → (t.island i).st = .running)
        ∧ (∀ n, n < 64 → (t.core n).g = List.replicate 32 0 ∧ ∀ k, k < 0x400000 → Mem.read t.dram.bytes (spadBase n + k) = 0)
        ∧ (∀ a, a < dramTop → Mem.read t.dram.bytes a = Mem.read s.dram.bytes a))
    ∧ (∀ i, i < s.pcm.islands.length → (s.island i).waking = true → (s.island i).st ≠ .off → s.host.heldReqs = [] →
      ∃ t, exec (.islandWakeComplete i) s = .next t ∧ (t.island i).st = .running ∧ (t.island i).waking = false
        ∧ t = { s with pcm := t.pcm } ∧ ∀ j, j ≠ i → t.island j = s.island j)

/-- R343, R483 to R486, R500, R508: what the monitors and the power manager do. -/
def Obligations.MonitorsAndCap : Prop :=
  ∀ s : State, s.dev.life ≠ .off →
    (∀ die dram, ((∃ i, i < 96 ∧ 960 ≤ die.getD i 0) ∨ ∃ i, i < 96 ∧ 880 ≤ dram.getD i 0) →
      ∃ t, exec (.thermalSample die dram) s = .next t ∧ t.dev.thermTrip = true ∧ t.dev.life = .off
        ∧ t.dev.twnAliveOut = false ∧ ∀ i, i < 17 → (t.island i).st = .off)
    ∧ (∀ die dram, (∀ i, i < 96 → die.getD i 0 < 960) → (∀ i, i < 96 → dram.getD i 0 < 880) →
      ∃ t, exec (.thermalSample die dram) s = .next t ∧ t.dev.thermTrip = s.dev.thermTrip ∧ t.dev.life = s.dev.life
        ∧ t.dram.bytes = s.dram.bytes ∧ t.cores = s.cores ∧ (∀ i, i < 96 → t.pcm.dieTemp.getD i 0 = die.getD i 0)
        ∧ (s.mcu.length = 8 → ∀ i, i < 8 → ∀ top : Int, top ∈ ((List.range 12).map (fun k => dram.getD (12 * i + k) 0)) →
            (∀ k, k < 12 → dram.getD (12 * i + k) 0 ≤ top) → -32768 ≤ top →
          (top < 656 → (t.stack i).therm = .normal) ∧ (680 ≤ top → top < 736 → (t.stack i).therm = .warm)
          ∧ (760 ≤ top → top < 800 → (t.stack i).therm = .gapped) ∧ (840 ≤ top → (t.stack i).therm = .stopped)
          ∧ (800 ≤ top → top < 840 → (t.stack i).therm = if (s.stack i).therm = .stopped then .stopped else .gapped)))
    ∧ (∀ i, i < 8 → ∃ t, exec (.pmbAlert i) s = .next t ∧ t.dev.faultNew = true ∧ t.dev.life = s.dev.life ∧ t.dram = s.dram
        ∧ t.pcm = s.pcm ∧ t.dev.pmbAlertN = false
        ∧ (s.flt.squall = false → s.flt.unread < 1023 → Tab.wf LogRec.none s.flt.log = true →
            (Tab.get LogRec.none t.flt.log s.flt.tail).type = 0xD ∧ (Tab.get LogRec.none t.flt.log s.flt.tail).index = i))
    ∧ (∀ i mon mv, i < 14 → mon < 144 →
        10 * mv < (s.island i).mv ∨ (∃ a, (s.island i).droopAt = some a ∧ s.now < a + 1000000) →
      ∃ t, exec (.droop i mon mv) s = .next t ∧ t = { s with pcm := t.pcm } ∧ t.pcm.islands = s.pcm.islands
        ∧ t.pcm.droopMv = s.pcm.droopMv.set mon mv)
    ∧ (∀ i mon mv, i < 14 → mon < 144 → i < s.pcm.islands.length → (s.island i).mv ≤ 10 * mv → 0 < mv →
        ((s.island i).droopAt = none ∨ ∃ a, (s.island i).droopAt = some a ∧ a + 1000000 ≤ s.now) →
      ∃ t, exec (.droop i mon mv) s = .next t ∧ t.dev.faultNew = true ∧ (t.island i).droopAt = some s.now
        ∧ t.pcm.droopMv = s.pcm.droopMv.set mon mv ∧ t.dram = s.dram ∧ t.cores = s.cores
        ∧ (s.flt.squall = false → s.flt.unread < 1023 → Tab.wf LogRec.none s.flt.log = true →
            (Tab.get LogRec.none t.flt.log s.flt.tail).type = 0xD ∧ (Tab.get LogRec.none t.flt.log s.flt.tail).index = i))
    ∧ (∀ ps, ∃ t, exec (.powerMeasure ps) s = .next t ∧ t = { s with pcm := { s.pcm with samples := t.pcm.samples } }
        ∧ t.pcm.samples.length ≤ 100 ∧ ∃ x, t.pcm.samples = (x :: s.pcm.samples).take 100
          ∧ x = (List.range 26).map (fun i => ps.getD i 0 % 2 ^ 24))
    ∧ (∀ img, s.sim.image = some img → s.dev.frost = false →
      ∃ t, exec .capControl s = .next t ∧ t = { s with pcm := t.pcm }
        ∧ (∀ k, 8 ≤ k → t.island k = s.island k)
        ∧ (∀ k, k < 8 → k < s.pcm.islands.length → s.fminOf k ≤ (s.island k).mhz → s.fminOf k ≤ (t.island k).mhz)
        ∧ (∀ k, k < 8 → k < s.pcm.islands.length → s.islandHot k < 800 → 10 * img.capW < s.pcm.avgAll → s.idleC k = false →
            s.fminOf k < (s.island k).mhz → (t.island k).mhz = max (s.fminOf k) ((s.island k).mhz - 25))
        ∧ (∀ k, k < 8 → k < s.pcm.islands.length → 880 ≤ s.islandHot k → (t.island k).mhz = s.fminOf k))
    ∧ (∀ k f, k < s.pcm.islands.length → (s.island k).raise = some f →
      ∃ t, exec (.voltageSettled k) s = .next t ∧ t = { s with pcm := t.pcm } ∧ (t.island k).mhz = f
        ∧ (t.island k).raise = none)
    ∧ (s.serves .pcm → ∀ kind index, kind < 3 → index < 256 →
      ∃ t, exec (.monSelWrite kind index) s = .next t ∧ t = { s with pcm := t.pcm } ∧ t.pcm.monKind = kind
        ∧ t.pcm.monIndex = index ∧ t.pcm.monPeak = s.monitor kind index)
end

