-- ==== Sys2Proof/Laws/State.lean ====
section
/-!
SUPPORT. One lemma per field of State for each update of one part of it: the fields that the update leaves. Every one
holds by unfolding, and simp uses them in place of the record updates.
-/
namespace Sys2Proof.Machine

/-! ## State.updCore -/

@[simp] theorem State.updCore_pending (s : State) (n : Nat) (f : Core → Core) : (s.updCore n f).pending = s.pending := rfl
@[simp] theorem State.updCore_now (s : State) (n : Nat) (f : Core → Core) : (s.updCore n f).now = s.now := rfl
@[simp] theorem State.updCore_free (s : State) (n : Nat) (f : Core → Core) : (s.updCore n f).free = s.free := rfl
@[simp] theorem State.updCore_dev (s : State) (n : Nat) (f : Core → Core) : (s.updCore n f).dev = s.dev := rfl
@[simp] theorem State.updCore_sim (s : State) (n : Nat) (f : Core → Core) : (s.updCore n f).sim = s.sim := rfl
@[simp] theorem State.updCore_dram (s : State) (n : Nat) (f : Core → Core) : (s.updCore n f).dram = s.dram := rfl
@[simp] theorem State.updCore_mcu (s : State) (n : Nat) (f : Core → Core) : (s.updCore n f).mcu = s.mcu := rfl
@[simp] theorem State.updCore_excl (s : State) (n : Nat) (f : Core → Core) : (s.updCore n f).excl = s.excl := rfl
@[simp] theorem State.updCore_ctxs (s : State) (n : Nat) (f : Core → Core) : (s.updCore n f).ctxs = s.ctxs := rfl
@[simp] theorem State.updCore_xlt (s : State) (n : Nat) (f : Core → Core) : (s.updCore n f).xlt = s.xlt := rfl
@[simp] theorem State.updCore_qmg (s : State) (n : Nat) (f : Core → Core) : (s.updCore n f).qmg = s.qmg := rfl
@[simp] theorem State.updCore_host (s : State) (n : Nat) (f : Core → Core) : (s.updCore n f).host = s.host := rfl
@[simp] theorem State.updCore_flt (s : State) (n : Nat) (f : Core → Core) : (s.updCore n f).flt = s.flt := rfl
@[simp] theorem State.updCore_ple (s : State) (n : Nat) (f : Core → Core) : (s.updCore n f).ple = s.ple := rfl
@[simp] theorem State.updCore_tkm (s : State) (n : Nat) (f : Core → Core) : (s.updCore n f).tkm = s.tkm := rfl
@[simp] theorem State.updCore_svm (s : State) (n : Nat) (f : Core → Core) : (s.updCore n f).svm = s.svm := rfl
@[simp] theorem State.updCore_spdm (s : State) (n : Nat) (f : Core → Core) : (s.updCore n f).spdm = s.spdm := rfl
@[simp] theorem State.updCore_tap (s : State) (n : Nat) (f : Core → Core) : (s.updCore n f).tap = s.tap := rfl
@[simp] theorem State.updCore_ports (s : State) (n : Nat) (f : Core → Core) : (s.updCore n f).ports = s.ports := rfl
@[simp] theorem State.updCore_cle (s : State) (n : Nat) (f : Core → Core) : (s.updCore n f).cle = s.cle := rfl
@[simp] theorem State.updCore_twc (s : State) (n : Nat) (f : Core → Core) : (s.updCore n f).twc = s.twc := rfl
@[simp] theorem State.updCore_pcm (s : State) (n : Nat) (f : Core → Core) : (s.updCore n f).pcm = s.pcm := rfl

/-! ## State.updPatrol -/

@[simp] theorem State.updPatrol_pending (s : State) (n : Nat) (f : Patrol → Patrol) : (s.updPatrol n f).pending = s.pending := rfl
@[simp] theorem State.updPatrol_now (s : State) (n : Nat) (f : Patrol → Patrol) : (s.updPatrol n f).now = s.now := rfl
@[simp] theorem State.updPatrol_free (s : State) (n : Nat) (f : Patrol → Patrol) : (s.updPatrol n f).free = s.free := rfl
@[simp] theorem State.updPatrol_dev (s : State) (n : Nat) (f : Patrol → Patrol) : (s.updPatrol n f).dev = s.dev := rfl
@[simp] theorem State.updPatrol_sim (s : State) (n : Nat) (f : Patrol → Patrol) : (s.updPatrol n f).sim = s.sim := rfl
@[simp] theorem State.updPatrol_dram (s : State) (n : Nat) (f : Patrol → Patrol) : (s.updPatrol n f).dram = s.dram := rfl
@[simp] theorem State.updPatrol_mcu (s : State) (n : Nat) (f : Patrol → Patrol) : (s.updPatrol n f).mcu = s.mcu := rfl
@[simp] theorem State.updPatrol_excl (s : State) (n : Nat) (f : Patrol → Patrol) : (s.updPatrol n f).excl = s.excl := rfl
@[simp] theorem State.updPatrol_ctxs (s : State) (n : Nat) (f : Patrol → Patrol) : (s.updPatrol n f).ctxs = s.ctxs := rfl
@[simp] theorem State.updPatrol_xlt (s : State) (n : Nat) (f : Patrol → Patrol) : (s.updPatrol n f).xlt = s.xlt := rfl
@[simp] theorem State.updPatrol_qmg (s : State) (n : Nat) (f : Patrol → Patrol) : (s.updPatrol n f).qmg = s.qmg := rfl
@[simp] theorem State.updPatrol_host (s : State) (n : Nat) (f : Patrol → Patrol) : (s.updPatrol n f).host = s.host := rfl
@[simp] theorem State.updPatrol_cores (s : State) (n : Nat) (f : Patrol → Patrol) : (s.updPatrol n f).cores = s.cores := rfl
@[simp] theorem State.updPatrol_ple (s : State) (n : Nat) (f : Patrol → Patrol) : (s.updPatrol n f).ple = s.ple := rfl
@[simp] theorem State.updPatrol_tkm (s : State) (n : Nat) (f : Patrol → Patrol) : (s.updPatrol n f).tkm = s.tkm := rfl
@[simp] theorem State.updPatrol_svm (s : State) (n : Nat) (f : Patrol → Patrol) : (s.updPatrol n f).svm = s.svm := rfl
@[simp] theorem State.updPatrol_spdm (s : State) (n : Nat) (f : Patrol → Patrol) : (s.updPatrol n f).spdm = s.spdm := rfl
@[simp] theorem State.updPatrol_tap (s : State) (n : Nat) (f : Patrol → Patrol) : (s.updPatrol n f).tap = s.tap := rfl
@[simp] theorem State.updPatrol_ports (s : State) (n : Nat) (f : Patrol → Patrol) : (s.updPatrol n f).ports = s.ports := rfl
@[simp] theorem State.updPatrol_cle (s : State) (n : Nat) (f : Patrol → Patrol) : (s.updPatrol n f).cle = s.cle := rfl
@[simp] theorem State.updPatrol_twc (s : State) (n : Nat) (f : Patrol → Patrol) : (s.updPatrol n f).twc = s.twc := rfl
@[simp] theorem State.updPatrol_pcm (s : State) (n : Nat) (f : Patrol → Patrol) : (s.updPatrol n f).pcm = s.pcm := rfl

/-! ## State.updGrid -/

@[simp] theorem State.updGrid_pending (s : State) (i : Nat) (f : Grid → Grid) : (s.updGrid i f).pending = s.pending := rfl
@[simp] theorem State.updGrid_now (s : State) (i : Nat) (f : Grid → Grid) : (s.updGrid i f).now = s.now := rfl
@[simp] theorem State.updGrid_free (s : State) (i : Nat) (f : Grid → Grid) : (s.updGrid i f).free = s.free := rfl
@[simp] theorem State.updGrid_dev (s : State) (i : Nat) (f : Grid → Grid) : (s.updGrid i f).dev = s.dev := rfl
@[simp] theorem State.updGrid_sim (s : State) (i : Nat) (f : Grid → Grid) : (s.updGrid i f).sim = s.sim := rfl
@[simp] theorem State.updGrid_dram (s : State) (i : Nat) (f : Grid → Grid) : (s.updGrid i f).dram = s.dram := rfl
@[simp] theorem State.updGrid_mcu (s : State) (i : Nat) (f : Grid → Grid) : (s.updGrid i f).mcu = s.mcu := rfl
@[simp] theorem State.updGrid_excl (s : State) (i : Nat) (f : Grid → Grid) : (s.updGrid i f).excl = s.excl := rfl
@[simp] theorem State.updGrid_ctxs (s : State) (i : Nat) (f : Grid → Grid) : (s.updGrid i f).ctxs = s.ctxs := rfl
@[simp] theorem State.updGrid_xlt (s : State) (i : Nat) (f : Grid → Grid) : (s.updGrid i f).xlt = s.xlt := rfl
@[simp] theorem State.updGrid_qmg (s : State) (i : Nat) (f : Grid → Grid) : (s.updGrid i f).qmg = s.qmg := rfl
@[simp] theorem State.updGrid_host (s : State) (i : Nat) (f : Grid → Grid) : (s.updGrid i f).host = s.host := rfl
@[simp] theorem State.updGrid_flt (s : State) (i : Nat) (f : Grid → Grid) : (s.updGrid i f).flt = s.flt := rfl
@[simp] theorem State.updGrid_cores (s : State) (i : Nat) (f : Grid → Grid) : (s.updGrid i f).cores = s.cores := rfl
@[simp] theorem State.updGrid_tkm (s : State) (i : Nat) (f : Grid → Grid) : (s.updGrid i f).tkm = s.tkm := rfl
@[simp] theorem State.updGrid_svm (s : State) (i : Nat) (f : Grid → Grid) : (s.updGrid i f).svm = s.svm := rfl
@[simp] theorem State.updGrid_spdm (s : State) (i : Nat) (f : Grid → Grid) : (s.updGrid i f).spdm = s.spdm := rfl
@[simp] theorem State.updGrid_tap (s : State) (i : Nat) (f : Grid → Grid) : (s.updGrid i f).tap = s.tap := rfl
@[simp] theorem State.updGrid_ports (s : State) (i : Nat) (f : Grid → Grid) : (s.updGrid i f).ports = s.ports := rfl
@[simp] theorem State.updGrid_cle (s : State) (i : Nat) (f : Grid → Grid) : (s.updGrid i f).cle = s.cle := rfl
@[simp] theorem State.updGrid_twc (s : State) (i : Nat) (f : Grid → Grid) : (s.updGrid i f).twc = s.twc := rfl
@[simp] theorem State.updGrid_pcm (s : State) (i : Nat) (f : Grid → Grid) : (s.updGrid i f).pcm = s.pcm := rfl

/-! ## State.updPort -/

@[simp] theorem State.updPort_pending (s : State) (p : Nat) (f : Port → Port) : (s.updPort p f).pending = s.pending := rfl
@[simp] theorem State.updPort_now (s : State) (p : Nat) (f : Port → Port) : (s.updPort p f).now = s.now := rfl
@[simp] theorem State.updPort_free (s : State) (p : Nat) (f : Port → Port) : (s.updPort p f).free = s.free := rfl
@[simp] theorem State.updPort_dev (s : State) (p : Nat) (f : Port → Port) : (s.updPort p f).dev = s.dev := rfl
@[simp] theorem State.updPort_sim (s : State) (p : Nat) (f : Port → Port) : (s.updPort p f).sim = s.sim := rfl
@[simp] theorem State.updPort_dram (s : State) (p : Nat) (f : Port → Port) : (s.updPort p f).dram = s.dram := rfl
@[simp] theorem State.updPort_mcu (s : State) (p : Nat) (f : Port → Port) : (s.updPort p f).mcu = s.mcu := rfl
@[simp] theorem State.updPort_excl (s : State) (p : Nat) (f : Port → Port) : (s.updPort p f).excl = s.excl := rfl
@[simp] theorem State.updPort_ctxs (s : State) (p : Nat) (f : Port → Port) : (s.updPort p f).ctxs = s.ctxs := rfl
@[simp] theorem State.updPort_xlt (s : State) (p : Nat) (f : Port → Port) : (s.updPort p f).xlt = s.xlt := rfl
@[simp] theorem State.updPort_qmg (s : State) (p : Nat) (f : Port → Port) : (s.updPort p f).qmg = s.qmg := rfl
@[simp] theorem State.updPort_host (s : State) (p : Nat) (f : Port → Port) : (s.updPort p f).host = s.host := rfl
@[simp] theorem State.updPort_flt (s : State) (p : Nat) (f : Port → Port) : (s.updPort p f).flt = s.flt := rfl
@[simp] theorem State.updPort_cores (s : State) (p : Nat) (f : Port → Port) : (s.updPort p f).cores = s.cores := rfl
@[simp] theorem State.updPort_ple (s : State) (p : Nat) (f : Port → Port) : (s.updPort p f).ple = s.ple := rfl
@[simp] theorem State.updPort_tkm (s : State) (p : Nat) (f : Port → Port) : (s.updPort p f).tkm = s.tkm := rfl
@[simp] theorem State.updPort_svm (s : State) (p : Nat) (f : Port → Port) : (s.updPort p f).svm = s.svm := rfl
@[simp] theorem State.updPort_spdm (s : State) (p : Nat) (f : Port → Port) : (s.updPort p f).spdm = s.spdm := rfl
@[simp] theorem State.updPort_tap (s : State) (p : Nat) (f : Port → Port) : (s.updPort p f).tap = s.tap := rfl
@[simp] theorem State.updPort_cle (s : State) (p : Nat) (f : Port → Port) : (s.updPort p f).cle = s.cle := rfl
@[simp] theorem State.updPort_twc (s : State) (p : Nat) (f : Port → Port) : (s.updPort p f).twc = s.twc := rfl
@[simp] theorem State.updPort_pcm (s : State) (p : Nat) (f : Port → Port) : (s.updPort p f).pcm = s.pcm := rfl

/-! ## State.updChan -/

@[simp] theorem State.updChan_pending (s : State) (c : Nat) (f : Chan → Chan) : (s.updChan c f).pending = s.pending := rfl
@[simp] theorem State.updChan_now (s : State) (c : Nat) (f : Chan → Chan) : (s.updChan c f).now = s.now := rfl
@[simp] theorem State.updChan_free (s : State) (c : Nat) (f : Chan → Chan) : (s.updChan c f).free = s.free := rfl
@[simp] theorem State.updChan_dev (s : State) (c : Nat) (f : Chan → Chan) : (s.updChan c f).dev = s.dev := rfl
@[simp] theorem State.updChan_sim (s : State) (c : Nat) (f : Chan → Chan) : (s.updChan c f).sim = s.sim := rfl
@[simp] theorem State.updChan_dram (s : State) (c : Nat) (f : Chan → Chan) : (s.updChan c f).dram = s.dram := rfl
@[simp] theorem State.updChan_excl (s : State) (c : Nat) (f : Chan → Chan) : (s.updChan c f).excl = s.excl := rfl
@[simp] theorem State.updChan_ctxs (s : State) (c : Nat) (f : Chan → Chan) : (s.updChan c f).ctxs = s.ctxs := rfl
@[simp] theorem State.updChan_xlt (s : State) (c : Nat) (f : Chan → Chan) : (s.updChan c f).xlt = s.xlt := rfl
@[simp] theorem State.updChan_qmg (s : State) (c : Nat) (f : Chan → Chan) : (s.updChan c f).qmg = s.qmg := rfl
@[simp] theorem State.updChan_host (s : State) (c : Nat) (f : Chan → Chan) : (s.updChan c f).host = s.host := rfl
@[simp] theorem State.updChan_flt (s : State) (c : Nat) (f : Chan → Chan) : (s.updChan c f).flt = s.flt := rfl
@[simp] theorem State.updChan_cores (s : State) (c : Nat) (f : Chan → Chan) : (s.updChan c f).cores = s.cores := rfl
@[simp] theorem State.updChan_ple (s : State) (c : Nat) (f : Chan → Chan) : (s.updChan c f).ple = s.ple := rfl
@[simp] theorem State.updChan_tkm (s : State) (c : Nat) (f : Chan → Chan) : (s.updChan c f).tkm = s.tkm := rfl
@[simp] theorem State.updChan_svm (s : State) (c : Nat) (f : Chan → Chan) : (s.updChan c f).svm = s.svm := rfl
@[simp] theorem State.updChan_spdm (s : State) (c : Nat) (f : Chan → Chan) : (s.updChan c f).spdm = s.spdm := rfl
@[simp] theorem State.updChan_tap (s : State) (c : Nat) (f : Chan → Chan) : (s.updChan c f).tap = s.tap := rfl
@[simp] theorem State.updChan_ports (s : State) (c : Nat) (f : Chan → Chan) : (s.updChan c f).ports = s.ports := rfl
@[simp] theorem State.updChan_cle (s : State) (c : Nat) (f : Chan → Chan) : (s.updChan c f).cle = s.cle := rfl
@[simp] theorem State.updChan_twc (s : State) (c : Nat) (f : Chan → Chan) : (s.updChan c f).twc = s.twc := rfl
@[simp] theorem State.updChan_pcm (s : State) (c : Nat) (f : Chan → Chan) : (s.updChan c f).pcm = s.pcm := rfl

/-! ## State.updMcu -/

@[simp] theorem State.updMcu_pending (s : State) (i : Nat) (f : Mcu → Mcu) : (s.updMcu i f).pending = s.pending := rfl
@[simp] theorem State.updMcu_now (s : State) (i : Nat) (f : Mcu → Mcu) : (s.updMcu i f).now = s.now := rfl
@[simp] theorem State.updMcu_free (s : State) (i : Nat) (f : Mcu → Mcu) : (s.updMcu i f).free = s.free := rfl
@[simp] theorem State.updMcu_dev (s : State) (i : Nat) (f : Mcu → Mcu) : (s.updMcu i f).dev = s.dev := rfl
@[simp] theorem State.updMcu_sim (s : State) (i : Nat) (f : Mcu → Mcu) : (s.updMcu i f).sim = s.sim := rfl
@[simp] theorem State.updMcu_dram (s : State) (i : Nat) (f : Mcu → Mcu) : (s.updMcu i f).dram = s.dram := rfl
@[simp] theorem State.updMcu_excl (s : State) (i : Nat) (f : Mcu → Mcu) : (s.updMcu i f).excl = s.excl := rfl
@[simp] theorem State.updMcu_ctxs (s : State) (i : Nat) (f : Mcu → Mcu) : (s.updMcu i f).ctxs = s.ctxs := rfl
@[simp] theorem State.updMcu_xlt (s : State) (i : Nat) (f : Mcu → Mcu) : (s.updMcu i f).xlt = s.xlt := rfl
@[simp] theorem State.updMcu_qmg (s : State) (i : Nat) (f : Mcu → Mcu) : (s.updMcu i f).qmg = s.qmg := rfl
@[simp] theorem State.updMcu_host (s : State) (i : Nat) (f : Mcu → Mcu) : (s.updMcu i f).host = s.host := rfl
@[simp] theorem State.updMcu_flt (s : State) (i : Nat) (f : Mcu → Mcu) : (s.updMcu i f).flt = s.flt := rfl
@[simp] theorem State.updMcu_cores (s : State) (i : Nat) (f : Mcu → Mcu) : (s.updMcu i f).cores = s.cores := rfl
@[simp] theorem State.updMcu_ple (s : State) (i : Nat) (f : Mcu → Mcu) : (s.updMcu i f).ple = s.ple := rfl
@[simp] theorem State.updMcu_tkm (s : State) (i : Nat) (f : Mcu → Mcu) : (s.updMcu i f).tkm = s.tkm := rfl
@[simp] theorem State.updMcu_svm (s : State) (i : Nat) (f : Mcu → Mcu) : (s.updMcu i f).svm = s.svm := rfl
@[simp] theorem State.updMcu_spdm (s : State) (i : Nat) (f : Mcu → Mcu) : (s.updMcu i f).spdm = s.spdm := rfl
@[simp] theorem State.updMcu_tap (s : State) (i : Nat) (f : Mcu → Mcu) : (s.updMcu i f).tap = s.tap := rfl
@[simp] theorem State.updMcu_ports (s : State) (i : Nat) (f : Mcu → Mcu) : (s.updMcu i f).ports = s.ports := rfl
@[simp] theorem State.updMcu_cle (s : State) (i : Nat) (f : Mcu → Mcu) : (s.updMcu i f).cle = s.cle := rfl
@[simp] theorem State.updMcu_twc (s : State) (i : Nat) (f : Mcu → Mcu) : (s.updMcu i f).twc = s.twc := rfl
@[simp] theorem State.updMcu_pcm (s : State) (i : Nat) (f : Mcu → Mcu) : (s.updMcu i f).pcm = s.pcm := rfl

/-! ## State.updIsland -/

@[simp] theorem State.updIsland_pending (s : State) (i : Nat) (f : Island → Island) : (s.updIsland i f).pending = s.pending := rfl
@[simp] theorem State.updIsland_now (s : State) (i : Nat) (f : Island → Island) : (s.updIsland i f).now = s.now := rfl
@[simp] theorem State.updIsland_free (s : State) (i : Nat) (f : Island → Island) : (s.updIsland i f).free = s.free := rfl
@[simp] theorem State.updIsland_dev (s : State) (i : Nat) (f : Island → Island) : (s.updIsland i f).dev = s.dev := rfl
@[simp] theorem State.updIsland_sim (s : State) (i : Nat) (f : Island → Island) : (s.updIsland i f).sim = s.sim := rfl
@[simp] theorem State.updIsland_dram (s : State) (i : Nat) (f : Island → Island) : (s.updIsland i f).dram = s.dram := rfl
@[simp] theorem State.updIsland_mcu (s : State) (i : Nat) (f : Island → Island) : (s.updIsland i f).mcu = s.mcu := rfl
@[simp] theorem State.updIsland_excl (s : State) (i : Nat) (f : Island → Island) : (s.updIsland i f).excl = s.excl := rfl
@[simp] theorem State.updIsland_ctxs (s : State) (i : Nat) (f : Island → Island) : (s.updIsland i f).ctxs = s.ctxs := rfl
@[simp] theorem State.updIsland_xlt (s : State) (i : Nat) (f : Island → Island) : (s.updIsland i f).xlt = s.xlt := rfl
@[simp] theorem State.updIsland_qmg (s : State) (i : Nat) (f : Island → Island) : (s.updIsland i f).qmg = s.qmg := rfl
@[simp] theorem State.updIsland_host (s : State) (i : Nat) (f : Island → Island) : (s.updIsland i f).host = s.host := rfl
@[simp] theorem State.updIsland_flt (s : State) (i : Nat) (f : Island → Island) : (s.updIsland i f).flt = s.flt := rfl
@[simp] theorem State.updIsland_cores (s : State) (i : Nat) (f : Island → Island) : (s.updIsland i f).cores = s.cores := rfl
@[simp] theorem State.updIsland_ple (s : State) (i : Nat) (f : Island → Island) : (s.updIsland i f).ple = s.ple := rfl
@[simp] theorem State.updIsland_tkm (s : State) (i : Nat) (f : Island → Island) : (s.updIsland i f).tkm = s.tkm := rfl
@[simp] theorem State.updIsland_svm (s : State) (i : Nat) (f : Island → Island) : (s.updIsland i f).svm = s.svm := rfl
@[simp] theorem State.updIsland_spdm (s : State) (i : Nat) (f : Island → Island) : (s.updIsland i f).spdm = s.spdm := rfl
@[simp] theorem State.updIsland_tap (s : State) (i : Nat) (f : Island → Island) : (s.updIsland i f).tap = s.tap := rfl
@[simp] theorem State.updIsland_ports (s : State) (i : Nat) (f : Island → Island) : (s.updIsland i f).ports = s.ports := rfl
@[simp] theorem State.updIsland_cle (s : State) (i : Nat) (f : Island → Island) : (s.updIsland i f).cle = s.cle := rfl
@[simp] theorem State.updIsland_twc (s : State) (i : Nat) (f : Island → Island) : (s.updIsland i f).twc = s.twc := rfl

/-! ## State.updQueue -/

@[simp] theorem State.updQueue_pending (s : State) (q : Nat) (f : Queue → Queue) : (s.updQueue q f).pending = s.pending := rfl
@[simp] theorem State.updQueue_now (s : State) (q : Nat) (f : Queue → Queue) : (s.updQueue q f).now = s.now := rfl
@[simp] theorem State.updQueue_free (s : State) (q : Nat) (f : Queue → Queue) : (s.updQueue q f).free = s.free := rfl
@[simp] theorem State.updQueue_dev (s : State) (q : Nat) (f : Queue → Queue) : (s.updQueue q f).dev = s.dev := rfl
@[simp] theorem State.updQueue_sim (s : State) (q : Nat) (f : Queue → Queue) : (s.updQueue q f).sim = s.sim := rfl
@[simp] theorem State.updQueue_dram (s : State) (q : Nat) (f : Queue → Queue) : (s.updQueue q f).dram = s.dram := rfl
@[simp] theorem State.updQueue_mcu (s : State) (q : Nat) (f : Queue → Queue) : (s.updQueue q f).mcu = s.mcu := rfl
@[simp] theorem State.updQueue_excl (s : State) (q : Nat) (f : Queue → Queue) : (s.updQueue q f).excl = s.excl := rfl
@[simp] theorem State.updQueue_ctxs (s : State) (q : Nat) (f : Queue → Queue) : (s.updQueue q f).ctxs = s.ctxs := rfl
@[simp] theorem State.updQueue_xlt (s : State) (q : Nat) (f : Queue → Queue) : (s.updQueue q f).xlt = s.xlt := rfl
@[simp] theorem State.updQueue_host (s : State) (q : Nat) (f : Queue → Queue) : (s.updQueue q f).host = s.host := rfl
@[simp] theorem State.updQueue_flt (s : State) (q : Nat) (f : Queue → Queue) : (s.updQueue q f).flt = s.flt := rfl
@[simp] theorem State.updQueue_cores (s : State) (q : Nat) (f : Queue → Queue) : (s.updQueue q f).cores = s.cores := rfl
@[simp] theorem State.updQueue_ple (s : State) (q : Nat) (f : Queue → Queue) : (s.updQueue q f).ple = s.ple := rfl
@[simp] theorem State.updQueue_tkm (s : State) (q : Nat) (f : Queue → Queue) : (s.updQueue q f).tkm = s.tkm := rfl
@[simp] theorem State.updQueue_svm (s : State) (q : Nat) (f : Queue → Queue) : (s.updQueue q f).svm = s.svm := rfl
@[simp] theorem State.updQueue_spdm (s : State) (q : Nat) (f : Queue → Queue) : (s.updQueue q f).spdm = s.spdm := rfl
@[simp] theorem State.updQueue_tap (s : State) (q : Nat) (f : Queue → Queue) : (s.updQueue q f).tap = s.tap := rfl
@[simp] theorem State.updQueue_ports (s : State) (q : Nat) (f : Queue → Queue) : (s.updQueue q f).ports = s.ports := rfl
@[simp] theorem State.updQueue_cle (s : State) (q : Nat) (f : Queue → Queue) : (s.updQueue q f).cle = s.cle := rfl
@[simp] theorem State.updQueue_twc (s : State) (q : Nat) (f : Queue → Queue) : (s.updQueue q f).twc = s.twc := rfl
@[simp] theorem State.updQueue_pcm (s : State) (q : Nat) (f : Queue → Queue) : (s.updQueue q f).pcm = s.pcm := rfl

/-! ## State.updDesc -/

@[simp] theorem State.updDesc_pending (s : State) (i : Nat) (f : Desc → Desc) : (s.updDesc i f).pending = s.pending := rfl
@[simp] theorem State.updDesc_now (s : State) (i : Nat) (f : Desc → Desc) : (s.updDesc i f).now = s.now := rfl
@[simp] theorem State.updDesc_free (s : State) (i : Nat) (f : Desc → Desc) : (s.updDesc i f).free = s.free := rfl
@[simp] theorem State.updDesc_dev (s : State) (i : Nat) (f : Desc → Desc) : (s.updDesc i f).dev = s.dev := rfl
@[simp] theorem State.updDesc_sim (s : State) (i : Nat) (f : Desc → Desc) : (s.updDesc i f).sim = s.sim := rfl
@[simp] theorem State.updDesc_dram (s : State) (i : Nat) (f : Desc → Desc) : (s.updDesc i f).dram = s.dram := rfl
@[simp] theorem State.updDesc_mcu (s : State) (i : Nat) (f : Desc → Desc) : (s.updDesc i f).mcu = s.mcu := rfl
@[simp] theorem State.updDesc_excl (s : State) (i : Nat) (f : Desc → Desc) : (s.updDesc i f).excl = s.excl := rfl
@[simp] theorem State.updDesc_ctxs (s : State) (i : Nat) (f : Desc → Desc) : (s.updDesc i f).ctxs = s.ctxs := rfl
@[simp] theorem State.updDesc_xlt (s : State) (i : Nat) (f : Desc → Desc) : (s.updDesc i f).xlt = s.xlt := rfl
@[simp] theorem State.updDesc_host (s : State) (i : Nat) (f : Desc → Desc) : (s.updDesc i f).host = s.host := rfl
@[simp] theorem State.updDesc_flt (s : State) (i : Nat) (f : Desc → Desc) : (s.updDesc i f).flt = s.flt := rfl
@[simp] theorem State.updDesc_cores (s : State) (i : Nat) (f : Desc → Desc) : (s.updDesc i f).cores = s.cores := rfl
@[simp] theorem State.updDesc_ple (s : State) (i : Nat) (f : Desc → Desc) : (s.updDesc i f).ple = s.ple := rfl
@[simp] theorem State.updDesc_tkm (s : State) (i : Nat) (f : Desc → Desc) : (s.updDesc i f).tkm = s.tkm := rfl
@[simp] theorem State.updDesc_svm (s : State) (i : Nat) (f : Desc → Desc) : (s.updDesc i f).svm = s.svm := rfl
@[simp] theorem State.updDesc_spdm (s : State) (i : Nat) (f : Desc → Desc) : (s.updDesc i f).spdm = s.spdm := rfl
@[simp] theorem State.updDesc_tap (s : State) (i : Nat) (f : Desc → Desc) : (s.updDesc i f).tap = s.tap := rfl
@[simp] theorem State.updDesc_ports (s : State) (i : Nat) (f : Desc → Desc) : (s.updDesc i f).ports = s.ports := rfl
@[simp] theorem State.updDesc_cle (s : State) (i : Nat) (f : Desc → Desc) : (s.updDesc i f).cle = s.cle := rfl
@[simp] theorem State.updDesc_twc (s : State) (i : Nat) (f : Desc → Desc) : (s.updDesc i f).twc = s.twc := rfl
@[simp] theorem State.updDesc_pcm (s : State) (i : Nat) (f : Desc → Desc) : (s.updDesc i f).pcm = s.pcm := rfl

/-! ## State.updCtx -/

@[simp] theorem State.updCtx_pending (s : State) (c : Nat) (f : Ctx → Ctx) : (s.updCtx c f).pending = s.pending := rfl
@[simp] theorem State.updCtx_now (s : State) (c : Nat) (f : Ctx → Ctx) : (s.updCtx c f).now = s.now := rfl
@[simp] theorem State.updCtx_free (s : State) (c : Nat) (f : Ctx → Ctx) : (s.updCtx c f).free = s.free := rfl
@[simp] theorem State.updCtx_dev (s : State) (c : Nat) (f : Ctx → Ctx) : (s.updCtx c f).dev = s.dev := rfl
@[simp] theorem State.updCtx_sim (s : State) (c : Nat) (f : Ctx → Ctx) : (s.updCtx c f).sim = s.sim := rfl
@[simp] theorem State.updCtx_dram (s : State) (c : Nat) (f : Ctx → Ctx) : (s.updCtx c f).dram = s.dram := rfl
@[simp] theorem State.updCtx_mcu (s : State) (c : Nat) (f : Ctx → Ctx) : (s.updCtx c f).mcu = s.mcu := rfl
@[simp] theorem State.updCtx_excl (s : State) (c : Nat) (f : Ctx → Ctx) : (s.updCtx c f).excl = s.excl := rfl
@[simp] theorem State.updCtx_xlt (s : State) (c : Nat) (f : Ctx → Ctx) : (s.updCtx c f).xlt = s.xlt := rfl
@[simp] theorem State.updCtx_qmg (s : State) (c : Nat) (f : Ctx → Ctx) : (s.updCtx c f).qmg = s.qmg := rfl
@[simp] theorem State.updCtx_host (s : State) (c : Nat) (f : Ctx → Ctx) : (s.updCtx c f).host = s.host := rfl
@[simp] theorem State.updCtx_flt (s : State) (c : Nat) (f : Ctx → Ctx) : (s.updCtx c f).flt = s.flt := rfl
@[simp] theorem State.updCtx_cores (s : State) (c : Nat) (f : Ctx → Ctx) : (s.updCtx c f).cores = s.cores := rfl
@[simp] theorem State.updCtx_ple (s : State) (c : Nat) (f : Ctx → Ctx) : (s.updCtx c f).ple = s.ple := rfl
@[simp] theorem State.updCtx_tkm (s : State) (c : Nat) (f : Ctx → Ctx) : (s.updCtx c f).tkm = s.tkm := rfl
@[simp] theorem State.updCtx_svm (s : State) (c : Nat) (f : Ctx → Ctx) : (s.updCtx c f).svm = s.svm := rfl
@[simp] theorem State.updCtx_spdm (s : State) (c : Nat) (f : Ctx → Ctx) : (s.updCtx c f).spdm = s.spdm := rfl
@[simp] theorem State.updCtx_tap (s : State) (c : Nat) (f : Ctx → Ctx) : (s.updCtx c f).tap = s.tap := rfl
@[simp] theorem State.updCtx_ports (s : State) (c : Nat) (f : Ctx → Ctx) : (s.updCtx c f).ports = s.ports := rfl
@[simp] theorem State.updCtx_cle (s : State) (c : Nat) (f : Ctx → Ctx) : (s.updCtx c f).cle = s.cle := rfl
@[simp] theorem State.updCtx_twc (s : State) (c : Nat) (f : Ctx → Ctx) : (s.updCtx c f).twc = s.twc := rfl
@[simp] theorem State.updCtx_pcm (s : State) (c : Nat) (f : Ctx → Ctx) : (s.updCtx c f).pcm = s.pcm := rfl

/-! ## State.updEngine -/

@[simp] theorem State.updEngine_pending (s : State) (n e : Nat) (f : Sce → Sce) : (s.updEngine n e f).pending = s.pending := rfl
@[simp] theorem State.updEngine_now (s : State) (n e : Nat) (f : Sce → Sce) : (s.updEngine n e f).now = s.now := rfl
@[simp] theorem State.updEngine_free (s : State) (n e : Nat) (f : Sce → Sce) : (s.updEngine n e f).free = s.free := rfl
@[simp] theorem State.updEngine_dev (s : State) (n e : Nat) (f : Sce → Sce) : (s.updEngine n e f).dev = s.dev := rfl
@[simp] theorem State.updEngine_sim (s : State) (n e : Nat) (f : Sce → Sce) : (s.updEngine n e f).sim = s.sim := rfl
@[simp] theorem State.updEngine_dram (s : State) (n e : Nat) (f : Sce → Sce) : (s.updEngine n e f).dram = s.dram := rfl
@[simp] theorem State.updEngine_mcu (s : State) (n e : Nat) (f : Sce → Sce) : (s.updEngine n e f).mcu = s.mcu := rfl
@[simp] theorem State.updEngine_excl (s : State) (n e : Nat) (f : Sce → Sce) : (s.updEngine n e f).excl = s.excl := rfl
@[simp] theorem State.updEngine_ctxs (s : State) (n e : Nat) (f : Sce → Sce) : (s.updEngine n e f).ctxs = s.ctxs := rfl
@[simp] theorem State.updEngine_xlt (s : State) (n e : Nat) (f : Sce → Sce) : (s.updEngine n e f).xlt = s.xlt := rfl
@[simp] theorem State.updEngine_qmg (s : State) (n e : Nat) (f : Sce → Sce) : (s.updEngine n e f).qmg = s.qmg := rfl
@[simp] theorem State.updEngine_host (s : State) (n e : Nat) (f : Sce → Sce) : (s.updEngine n e f).host = s.host := rfl
@[simp] theorem State.updEngine_flt (s : State) (n e : Nat) (f : Sce → Sce) : (s.updEngine n e f).flt = s.flt := rfl
@[simp] theorem State.updEngine_ple (s : State) (n e : Nat) (f : Sce → Sce) : (s.updEngine n e f).ple = s.ple := rfl
@[simp] theorem State.updEngine_tkm (s : State) (n e : Nat) (f : Sce → Sce) : (s.updEngine n e f).tkm = s.tkm := rfl
@[simp] theorem State.updEngine_svm (s : State) (n e : Nat) (f : Sce → Sce) : (s.updEngine n e f).svm = s.svm := rfl
@[simp] theorem State.updEngine_spdm (s : State) (n e : Nat) (f : Sce → Sce) : (s.updEngine n e f).spdm = s.spdm := rfl
@[simp] theorem State.updEngine_tap (s : State) (n e : Nat) (f : Sce → Sce) : (s.updEngine n e f).tap = s.tap := rfl
@[simp] theorem State.updEngine_ports (s : State) (n e : Nat) (f : Sce → Sce) : (s.updEngine n e f).ports = s.ports := rfl
@[simp] theorem State.updEngine_cle (s : State) (n e : Nat) (f : Sce → Sce) : (s.updEngine n e f).cle = s.cle := rfl
@[simp] theorem State.updEngine_twc (s : State) (n e : Nat) (f : Sce → Sce) : (s.updEngine n e f).twc = s.twc := rfl
@[simp] theorem State.updEngine_pcm (s : State) (n e : Nat) (f : Sce → Sce) : (s.updEngine n e f).pcm = s.pcm := rfl

/-! ## State.updMx -/

@[simp] theorem State.updMx_pending (s : State) (n : Nat) (f : Mx → Mx) : (s.updMx n f).pending = s.pending := rfl
@[simp] theorem State.updMx_now (s : State) (n : Nat) (f : Mx → Mx) : (s.updMx n f).now = s.now := rfl
@[simp] theorem State.updMx_free (s : State) (n : Nat) (f : Mx → Mx) : (s.updMx n f).free = s.free := rfl
@[simp] theorem State.updMx_dev (s : State) (n : Nat) (f : Mx → Mx) : (s.updMx n f).dev = s.dev := rfl
@[simp] theorem State.updMx_sim (s : State) (n : Nat) (f : Mx → Mx) : (s.updMx n f).sim = s.sim := rfl
@[simp] theorem State.updMx_dram (s : State) (n : Nat) (f : Mx → Mx) : (s.updMx n f).dram = s.dram := rfl
@[simp] theorem State.updMx_mcu (s : State) (n : Nat) (f : Mx → Mx) : (s.updMx n f).mcu = s.mcu := rfl
@[simp] theorem State.updMx_excl (s : State) (n : Nat) (f : Mx → Mx) : (s.updMx n f).excl = s.excl := rfl
@[simp] theorem State.updMx_ctxs (s : State) (n : Nat) (f : Mx → Mx) : (s.updMx n f).ctxs = s.ctxs := rfl
@[simp] theorem State.updMx_xlt (s : State) (n : Nat) (f : Mx → Mx) : (s.updMx n f).xlt = s.xlt := rfl
@[simp] theorem State.updMx_qmg (s : State) (n : Nat) (f : Mx → Mx) : (s.updMx n f).qmg = s.qmg := rfl
@[simp] theorem State.updMx_host (s : State) (n : Nat) (f : Mx → Mx) : (s.updMx n f).host = s.host := rfl
@[simp] theorem State.updMx_flt (s : State) (n : Nat) (f : Mx → Mx) : (s.updMx n f).flt = s.flt := rfl
@[simp] theorem State.updMx_ple (s : State) (n : Nat) (f : Mx → Mx) : (s.updMx n f).ple = s.ple := rfl
@[simp] theorem State.updMx_tkm (s : State) (n : Nat) (f : Mx → Mx) : (s.updMx n f).tkm = s.tkm := rfl
@[simp] theorem State.updMx_svm (s : State) (n : Nat) (f : Mx → Mx) : (s.updMx n f).svm = s.svm := rfl
@[simp] theorem State.updMx_spdm (s : State) (n : Nat) (f : Mx → Mx) : (s.updMx n f).spdm = s.spdm := rfl
@[simp] theorem State.updMx_tap (s : State) (n : Nat) (f : Mx → Mx) : (s.updMx n f).tap = s.tap := rfl
@[simp] theorem State.updMx_ports (s : State) (n : Nat) (f : Mx → Mx) : (s.updMx n f).ports = s.ports := rfl
@[simp] theorem State.updMx_cle (s : State) (n : Nat) (f : Mx → Mx) : (s.updMx n f).cle = s.cle := rfl
@[simp] theorem State.updMx_twc (s : State) (n : Nat) (f : Mx → Mx) : (s.updMx n f).twc = s.twc := rfl
@[simp] theorem State.updMx_pcm (s : State) (n : Nat) (f : Mx → Mx) : (s.updMx n f).pcm = s.pcm := rfl

/-! ## State.drawn -/

@[simp] theorem State.drawn_pending (s : State) : (s.drawn).pending = s.pending := rfl
@[simp] theorem State.drawn_now (s : State) : (s.drawn).now = s.now := rfl
@[simp] theorem State.drawn_dev (s : State) : (s.drawn).dev = s.dev := rfl
@[simp] theorem State.drawn_sim (s : State) : (s.drawn).sim = s.sim := rfl
@[simp] theorem State.drawn_dram (s : State) : (s.drawn).dram = s.dram := rfl
@[simp] theorem State.drawn_mcu (s : State) : (s.drawn).mcu = s.mcu := rfl
@[simp] theorem State.drawn_excl (s : State) : (s.drawn).excl = s.excl := rfl
@[simp] theorem State.drawn_ctxs (s : State) : (s.drawn).ctxs = s.ctxs := rfl
@[simp] theorem State.drawn_xlt (s : State) : (s.drawn).xlt = s.xlt := rfl
@[simp] theorem State.drawn_qmg (s : State) : (s.drawn).qmg = s.qmg := rfl
@[simp] theorem State.drawn_host (s : State) : (s.drawn).host = s.host := rfl
@[simp] theorem State.drawn_flt (s : State) : (s.drawn).flt = s.flt := rfl
@[simp] theorem State.drawn_cores (s : State) : (s.drawn).cores = s.cores := rfl
@[simp] theorem State.drawn_ple (s : State) : (s.drawn).ple = s.ple := rfl
@[simp] theorem State.drawn_tkm (s : State) : (s.drawn).tkm = s.tkm := rfl
@[simp] theorem State.drawn_svm (s : State) : (s.drawn).svm = s.svm := rfl
@[simp] theorem State.drawn_spdm (s : State) : (s.drawn).spdm = s.spdm := rfl
@[simp] theorem State.drawn_tap (s : State) : (s.drawn).tap = s.tap := rfl
@[simp] theorem State.drawn_ports (s : State) : (s.drawn).ports = s.ports := rfl
@[simp] theorem State.drawn_cle (s : State) : (s.drawn).cle = s.cle := rfl
@[simp] theorem State.drawn_twc (s : State) : (s.drawn).twc = s.twc := rfl
@[simp] theorem State.drawn_pcm (s : State) : (s.drawn).pcm = s.pcm := rfl

/-! ## State.raise -/

@[simp] theorem State.raise_pending (s : State) (v : Nat) : (s.raise v).pending = s.pending := rfl
@[simp] theorem State.raise_now (s : State) (v : Nat) : (s.raise v).now = s.now := rfl
@[simp] theorem State.raise_free (s : State) (v : Nat) : (s.raise v).free = s.free := rfl
@[simp] theorem State.raise_dev (s : State) (v : Nat) : (s.raise v).dev = s.dev := rfl
@[simp] theorem State.raise_sim (s : State) (v : Nat) : (s.raise v).sim = s.sim := rfl
@[simp] theorem State.raise_dram (s : State) (v : Nat) : (s.raise v).dram = s.dram := rfl
@[simp] theorem State.raise_mcu (s : State) (v : Nat) : (s.raise v).mcu = s.mcu := rfl
@[simp] theorem State.raise_excl (s : State) (v : Nat) : (s.raise v).excl = s.excl := rfl
@[simp] theorem State.raise_ctxs (s : State) (v : Nat) : (s.raise v).ctxs = s.ctxs := rfl
@[simp] theorem State.raise_xlt (s : State) (v : Nat) : (s.raise v).xlt = s.xlt := rfl
@[simp] theorem State.raise_qmg (s : State) (v : Nat) : (s.raise v).qmg = s.qmg := rfl
@[simp] theorem State.raise_flt (s : State) (v : Nat) : (s.raise v).flt = s.flt := rfl
@[simp] theorem State.raise_cores (s : State) (v : Nat) : (s.raise v).cores = s.cores := rfl
@[simp] theorem State.raise_ple (s : State) (v : Nat) : (s.raise v).ple = s.ple := rfl
@[simp] theorem State.raise_tkm (s : State) (v : Nat) : (s.raise v).tkm = s.tkm := rfl
@[simp] theorem State.raise_svm (s : State) (v : Nat) : (s.raise v).svm = s.svm := rfl
@[simp] theorem State.raise_spdm (s : State) (v : Nat) : (s.raise v).spdm = s.spdm := rfl
@[simp] theorem State.raise_tap (s : State) (v : Nat) : (s.raise v).tap = s.tap := rfl
@[simp] theorem State.raise_ports (s : State) (v : Nat) : (s.raise v).ports = s.ports := rfl
@[simp] theorem State.raise_cle (s : State) (v : Nat) : (s.raise v).cle = s.cle := rfl
@[simp] theorem State.raise_twc (s : State) (v : Nat) : (s.raise v).twc = s.twc := rfl
@[simp] theorem State.raise_pcm (s : State) (v : Nat) : (s.raise v).pcm = s.pcm := rfl

/-! ## State.setFit -/

@[simp] theorem State.setFit_pending (s : State) (n : Nat) (b : Bool) : (s.setFit n b).pending = s.pending := rfl
@[simp] theorem State.setFit_now (s : State) (n : Nat) (b : Bool) : (s.setFit n b).now = s.now := rfl
@[simp] theorem State.setFit_free (s : State) (n : Nat) (b : Bool) : (s.setFit n b).free = s.free := rfl
@[simp] theorem State.setFit_sim (s : State) (n : Nat) (b : Bool) : (s.setFit n b).sim = s.sim := rfl
@[simp] theorem State.setFit_dram (s : State) (n : Nat) (b : Bool) : (s.setFit n b).dram = s.dram := rfl
@[simp] theorem State.setFit_mcu (s : State) (n : Nat) (b : Bool) : (s.setFit n b).mcu = s.mcu := rfl
@[simp] theorem State.setFit_excl (s : State) (n : Nat) (b : Bool) : (s.setFit n b).excl = s.excl := rfl
@[simp] theorem State.setFit_ctxs (s : State) (n : Nat) (b : Bool) : (s.setFit n b).ctxs = s.ctxs := rfl
@[simp] theorem State.setFit_xlt (s : State) (n : Nat) (b : Bool) : (s.setFit n b).xlt = s.xlt := rfl
@[simp] theorem State.setFit_qmg (s : State) (n : Nat) (b : Bool) : (s.setFit n b).qmg = s.qmg := rfl
@[simp] theorem State.setFit_host (s : State) (n : Nat) (b : Bool) : (s.setFit n b).host = s.host := rfl
@[simp] theorem State.setFit_flt (s : State) (n : Nat) (b : Bool) : (s.setFit n b).flt = s.flt := rfl
@[simp] theorem State.setFit_cores (s : State) (n : Nat) (b : Bool) : (s.setFit n b).cores = s.cores := rfl
@[simp] theorem State.setFit_ple (s : State) (n : Nat) (b : Bool) : (s.setFit n b).ple = s.ple := rfl
@[simp] theorem State.setFit_tkm (s : State) (n : Nat) (b : Bool) : (s.setFit n b).tkm = s.tkm := rfl
@[simp] theorem State.setFit_svm (s : State) (n : Nat) (b : Bool) : (s.setFit n b).svm = s.svm := rfl
@[simp] theorem State.setFit_spdm (s : State) (n : Nat) (b : Bool) : (s.setFit n b).spdm = s.spdm := rfl
@[simp] theorem State.setFit_tap (s : State) (n : Nat) (b : Bool) : (s.setFit n b).tap = s.tap := rfl
@[simp] theorem State.setFit_ports (s : State) (n : Nat) (b : Bool) : (s.setFit n b).ports = s.ports := rfl
@[simp] theorem State.setFit_cle (s : State) (n : Nat) (b : Bool) : (s.setFit n b).cle = s.cle := rfl
@[simp] theorem State.setFit_twc (s : State) (n : Nat) (b : Bool) : (s.setFit n b).twc = s.twc := rfl
@[simp] theorem State.setFit_pcm (s : State) (n : Nat) (b : Bool) : (s.setFit n b).pcm = s.pcm := rfl

/-! ## State.zeroBlock -/

@[simp] theorem State.zeroBlock_pending (s : State) (b : Nat) : (s.zeroBlock b).pending = s.pending := rfl
@[simp] theorem State.zeroBlock_now (s : State) (b : Nat) : (s.zeroBlock b).now = s.now := rfl
@[simp] theorem State.zeroBlock_free (s : State) (b : Nat) : (s.zeroBlock b).free = s.free := rfl
@[simp] theorem State.zeroBlock_dev (s : State) (b : Nat) : (s.zeroBlock b).dev = s.dev := rfl
@[simp] theorem State.zeroBlock_sim (s : State) (b : Nat) : (s.zeroBlock b).sim = s.sim := rfl
@[simp] theorem State.zeroBlock_mcu (s : State) (b : Nat) : (s.zeroBlock b).mcu = s.mcu := rfl
@[simp] theorem State.zeroBlock_excl (s : State) (b : Nat) : (s.zeroBlock b).excl = s.excl := rfl
@[simp] theorem State.zeroBlock_ctxs (s : State) (b : Nat) : (s.zeroBlock b).ctxs = s.ctxs := rfl
@[simp] theorem State.zeroBlock_xlt (s : State) (b : Nat) : (s.zeroBlock b).xlt = s.xlt := rfl
@[simp] theorem State.zeroBlock_qmg (s : State) (b : Nat) : (s.zeroBlock b).qmg = s.qmg := rfl
@[simp] theorem State.zeroBlock_host (s : State) (b : Nat) : (s.zeroBlock b).host = s.host := rfl
@[simp] theorem State.zeroBlock_flt (s : State) (b : Nat) : (s.zeroBlock b).flt = s.flt := rfl
@[simp] theorem State.zeroBlock_cores (s : State) (b : Nat) : (s.zeroBlock b).cores = s.cores := rfl
@[simp] theorem State.zeroBlock_ple (s : State) (b : Nat) : (s.zeroBlock b).ple = s.ple := rfl
@[simp] theorem State.zeroBlock_tkm (s : State) (b : Nat) : (s.zeroBlock b).tkm = s.tkm := rfl
@[simp] theorem State.zeroBlock_svm (s : State) (b : Nat) : (s.zeroBlock b).svm = s.svm := rfl
@[simp] theorem State.zeroBlock_spdm (s : State) (b : Nat) : (s.zeroBlock b).spdm = s.spdm := rfl
@[simp] theorem State.zeroBlock_tap (s : State) (b : Nat) : (s.zeroBlock b).tap = s.tap := rfl
@[simp] theorem State.zeroBlock_ports (s : State) (b : Nat) : (s.zeroBlock b).ports = s.ports := rfl
@[simp] theorem State.zeroBlock_cle (s : State) (b : Nat) : (s.zeroBlock b).cle = s.cle := rfl
@[simp] theorem State.zeroBlock_twc (s : State) (b : Nat) : (s.zeroBlock b).twc = s.twc := rfl
@[simp] theorem State.zeroBlock_pcm (s : State) (b : Nat) : (s.zeroBlock b).pcm = s.pcm := rfl

/-! ## State.zeroSpad -/

@[simp] theorem State.zeroSpad_pending (s : State) (n : Nat) : (s.zeroSpad n).pending = s.pending := rfl
@[simp] theorem State.zeroSpad_now (s : State) (n : Nat) : (s.zeroSpad n).now = s.now := rfl
@[simp] theorem State.zeroSpad_free (s : State) (n : Nat) : (s.zeroSpad n).free = s.free := rfl
@[simp] theorem State.zeroSpad_dev (s : State) (n : Nat) : (s.zeroSpad n).dev = s.dev := rfl
@[simp] theorem State.zeroSpad_sim (s : State) (n : Nat) : (s.zeroSpad n).sim = s.sim := rfl
@[simp] theorem State.zeroSpad_mcu (s : State) (n : Nat) : (s.zeroSpad n).mcu = s.mcu := rfl
@[simp] theorem State.zeroSpad_excl (s : State) (n : Nat) : (s.zeroSpad n).excl = s.excl := rfl
@[simp] theorem State.zeroSpad_ctxs (s : State) (n : Nat) : (s.zeroSpad n).ctxs = s.ctxs := rfl
@[simp] theorem State.zeroSpad_xlt (s : State) (n : Nat) : (s.zeroSpad n).xlt = s.xlt := rfl
@[simp] theorem State.zeroSpad_qmg (s : State) (n : Nat) : (s.zeroSpad n).qmg = s.qmg := rfl
@[simp] theorem State.zeroSpad_host (s : State) (n : Nat) : (s.zeroSpad n).host = s.host := rfl
@[simp] theorem State.zeroSpad_flt (s : State) (n : Nat) : (s.zeroSpad n).flt = s.flt := rfl
@[simp] theorem State.zeroSpad_cores (s : State) (n : Nat) : (s.zeroSpad n).cores = s.cores := rfl
@[simp] theorem State.zeroSpad_ple (s : State) (n : Nat) : (s.zeroSpad n).ple = s.ple := rfl
@[simp] theorem State.zeroSpad_tkm (s : State) (n : Nat) : (s.zeroSpad n).tkm = s.tkm := rfl
@[simp] theorem State.zeroSpad_svm (s : State) (n : Nat) : (s.zeroSpad n).svm = s.svm := rfl
@[simp] theorem State.zeroSpad_spdm (s : State) (n : Nat) : (s.zeroSpad n).spdm = s.spdm := rfl
@[simp] theorem State.zeroSpad_tap (s : State) (n : Nat) : (s.zeroSpad n).tap = s.tap := rfl
@[simp] theorem State.zeroSpad_ports (s : State) (n : Nat) : (s.zeroSpad n).ports = s.ports := rfl
@[simp] theorem State.zeroSpad_cle (s : State) (n : Nat) : (s.zeroSpad n).cle = s.cle := rfl
@[simp] theorem State.zeroSpad_twc (s : State) (n : Nat) : (s.zeroSpad n).twc = s.twc := rfl
@[simp] theorem State.zeroSpad_pcm (s : State) (n : Nat) : (s.zeroSpad n).pcm = s.pcm := rfl

/-! ## State.mark -/

@[simp] theorem State.mark_pending (s : State) (l : List Nat) : (s.mark l).pending = s.pending := rfl
@[simp] theorem State.mark_now (s : State) (l : List Nat) : (s.mark l).now = s.now := rfl
@[simp] theorem State.mark_free (s : State) (l : List Nat) : (s.mark l).free = s.free := rfl
@[simp] theorem State.mark_dev (s : State) (l : List Nat) : (s.mark l).dev = s.dev := rfl
@[simp] theorem State.mark_sim (s : State) (l : List Nat) : (s.mark l).sim = s.sim := rfl
@[simp] theorem State.mark_mcu (s : State) (l : List Nat) : (s.mark l).mcu = s.mcu := rfl
@[simp] theorem State.mark_excl (s : State) (l : List Nat) : (s.mark l).excl = s.excl := rfl
@[simp] theorem State.mark_ctxs (s : State) (l : List Nat) : (s.mark l).ctxs = s.ctxs := rfl
@[simp] theorem State.mark_xlt (s : State) (l : List Nat) : (s.mark l).xlt = s.xlt := rfl
@[simp] theorem State.mark_qmg (s : State) (l : List Nat) : (s.mark l).qmg = s.qmg := rfl
@[simp] theorem State.mark_host (s : State) (l : List Nat) : (s.mark l).host = s.host := rfl
@[simp] theorem State.mark_flt (s : State) (l : List Nat) : (s.mark l).flt = s.flt := rfl
@[simp] theorem State.mark_cores (s : State) (l : List Nat) : (s.mark l).cores = s.cores := rfl
@[simp] theorem State.mark_ple (s : State) (l : List Nat) : (s.mark l).ple = s.ple := rfl
@[simp] theorem State.mark_tkm (s : State) (l : List Nat) : (s.mark l).tkm = s.tkm := rfl
@[simp] theorem State.mark_svm (s : State) (l : List Nat) : (s.mark l).svm = s.svm := rfl
@[simp] theorem State.mark_spdm (s : State) (l : List Nat) : (s.mark l).spdm = s.spdm := rfl
@[simp] theorem State.mark_tap (s : State) (l : List Nat) : (s.mark l).tap = s.tap := rfl
@[simp] theorem State.mark_ports (s : State) (l : List Nat) : (s.mark l).ports = s.ports := rfl
@[simp] theorem State.mark_cle (s : State) (l : List Nat) : (s.mark l).cle = s.cle := rfl
@[simp] theorem State.mark_twc (s : State) (l : List Nat) : (s.mark l).twc = s.twc := rfl
@[simp] theorem State.mark_pcm (s : State) (l : List Nat) : (s.mark l).pcm = s.pcm := rfl

/-! ## State.dirtyBlocks -/

@[simp] theorem State.dirtyBlocks_pending (s : State) (l : List Nat) : (s.dirtyBlocks l).pending = s.pending := rfl
@[simp] theorem State.dirtyBlocks_now (s : State) (l : List Nat) : (s.dirtyBlocks l).now = s.now := rfl
@[simp] theorem State.dirtyBlocks_free (s : State) (l : List Nat) : (s.dirtyBlocks l).free = s.free := rfl
@[simp] theorem State.dirtyBlocks_dev (s : State) (l : List Nat) : (s.dirtyBlocks l).dev = s.dev := rfl
@[simp] theorem State.dirtyBlocks_sim (s : State) (l : List Nat) : (s.dirtyBlocks l).sim = s.sim := rfl
@[simp] theorem State.dirtyBlocks_mcu (s : State) (l : List Nat) : (s.dirtyBlocks l).mcu = s.mcu := rfl
@[simp] theorem State.dirtyBlocks_excl (s : State) (l : List Nat) : (s.dirtyBlocks l).excl = s.excl := rfl
@[simp] theorem State.dirtyBlocks_ctxs (s : State) (l : List Nat) : (s.dirtyBlocks l).ctxs = s.ctxs := rfl
@[simp] theorem State.dirtyBlocks_xlt (s : State) (l : List Nat) : (s.dirtyBlocks l).xlt = s.xlt := rfl
@[simp] theorem State.dirtyBlocks_qmg (s : State) (l : List Nat) : (s.dirtyBlocks l).qmg = s.qmg := rfl
@[simp] theorem State.dirtyBlocks_host (s : State) (l : List Nat) : (s.dirtyBlocks l).host = s.host := rfl
@[simp] theorem State.dirtyBlocks_flt (s : State) (l : List Nat) : (s.dirtyBlocks l).flt = s.flt := rfl
@[simp] theorem State.dirtyBlocks_cores (s : State) (l : List Nat) : (s.dirtyBlocks l).cores = s.cores := rfl
@[simp] theorem State.dirtyBlocks_ple (s : State) (l : List Nat) : (s.dirtyBlocks l).ple = s.ple := rfl
@[simp] theorem State.dirtyBlocks_tkm (s : State) (l : List Nat) : (s.dirtyBlocks l).tkm = s.tkm := rfl
@[simp] theorem State.dirtyBlocks_svm (s : State) (l : List Nat) : (s.dirtyBlocks l).svm = s.svm := rfl
@[simp] theorem State.dirtyBlocks_spdm (s : State) (l : List Nat) : (s.dirtyBlocks l).spdm = s.spdm := rfl
@[simp] theorem State.dirtyBlocks_tap (s : State) (l : List Nat) : (s.dirtyBlocks l).tap = s.tap := rfl
@[simp] theorem State.dirtyBlocks_ports (s : State) (l : List Nat) : (s.dirtyBlocks l).ports = s.ports := rfl
@[simp] theorem State.dirtyBlocks_cle (s : State) (l : List Nat) : (s.dirtyBlocks l).cle = s.cle := rfl
@[simp] theorem State.dirtyBlocks_twc (s : State) (l : List Nat) : (s.dirtyBlocks l).twc = s.twc := rfl
@[simp] theorem State.dirtyBlocks_pcm (s : State) (l : List Nat) : (s.dirtyBlocks l).pcm = s.pcm := rfl

/-! ## State.recallHost -/

@[simp] theorem State.recallHost_pending (s : State) (l : Nat) : (s.recallHost l).pending = s.pending := rfl
@[simp] theorem State.recallHost_now (s : State) (l : Nat) : (s.recallHost l).now = s.now := rfl
@[simp] theorem State.recallHost_free (s : State) (l : Nat) : (s.recallHost l).free = s.free := rfl
@[simp] theorem State.recallHost_dev (s : State) (l : Nat) : (s.recallHost l).dev = s.dev := rfl
@[simp] theorem State.recallHost_sim (s : State) (l : Nat) : (s.recallHost l).sim = s.sim := rfl
@[simp] theorem State.recallHost_dram (s : State) (l : Nat) : (s.recallHost l).dram = s.dram := rfl
@[simp] theorem State.recallHost_mcu (s : State) (l : Nat) : (s.recallHost l).mcu = s.mcu := rfl
@[simp] theorem State.recallHost_excl (s : State) (l : Nat) : (s.recallHost l).excl = s.excl := rfl
@[simp] theorem State.recallHost_ctxs (s : State) (l : Nat) : (s.recallHost l).ctxs = s.ctxs := rfl
@[simp] theorem State.recallHost_xlt (s : State) (l : Nat) : (s.recallHost l).xlt = s.xlt := rfl
@[simp] theorem State.recallHost_qmg (s : State) (l : Nat) : (s.recallHost l).qmg = s.qmg := rfl
@[simp] theorem State.recallHost_flt (s : State) (l : Nat) : (s.recallHost l).flt = s.flt := rfl
@[simp] theorem State.recallHost_cores (s : State) (l : Nat) : (s.recallHost l).cores = s.cores := rfl
@[simp] theorem State.recallHost_ple (s : State) (l : Nat) : (s.recallHost l).ple = s.ple := rfl
@[simp] theorem State.recallHost_tkm (s : State) (l : Nat) : (s.recallHost l).tkm = s.tkm := rfl
@[simp] theorem State.recallHost_svm (s : State) (l : Nat) : (s.recallHost l).svm = s.svm := rfl
@[simp] theorem State.recallHost_spdm (s : State) (l : Nat) : (s.recallHost l).spdm = s.spdm := rfl
@[simp] theorem State.recallHost_tap (s : State) (l : Nat) : (s.recallHost l).tap = s.tap := rfl
@[simp] theorem State.recallHost_ports (s : State) (l : Nat) : (s.recallHost l).ports = s.ports := rfl
@[simp] theorem State.recallHost_cle (s : State) (l : Nat) : (s.recallHost l).cle = s.cle := rfl
@[simp] theorem State.recallHost_twc (s : State) (l : Nat) : (s.recallHost l).twc = s.twc := rfl
@[simp] theorem State.recallHost_pcm (s : State) (l : Nat) : (s.recallHost l).pcm = s.pcm := rfl

/-! ## What the updates write -/

@[simp] theorem State.updCore_cores (s : State) (n : Nat) (f : Core → Core) : (s.updCore n f).cores = modAt s.cores n f := rfl
@[simp] theorem State.updPort_ports (s : State) (p : Nat) (f : Port → Port) : (s.updPort p f).ports = modAt s.ports p f := rfl
@[simp] theorem State.updMcu_mcu (s : State) (i : Nat) (f : Mcu → Mcu) : (s.updMcu i f).mcu = modAt s.mcu i f := rfl
@[simp] theorem State.updCtx_ctxs (s : State) (c : Nat) (f : Ctx → Ctx) :
    (s.updCtx c f).ctxs = Tab.upd Ctx.none s.ctxs c f := rfl
@[simp] theorem State.updIsland_islands (s : State) (i : Nat) (f : Island → Island) :
    (s.updIsland i f).pcm.islands = modAt s.pcm.islands i f := rfl
@[simp] theorem State.updPatrol_patrol (s : State) (n : Nat) (f : Patrol → Patrol) :
    (s.updPatrol n f).flt.patrol = modAt s.flt.patrol n f := rfl
@[simp] theorem State.drawn_free (s : State) : s.drawn.free = s.free + 1 := rfl
@[simp] theorem State.zeroBlock_bytes (s : State) (b : Nat) :
    (s.zeroBlock b).dram.bytes = s.dram.bytes.zero (b * 65536) 65536 := rfl
@[simp] theorem State.zeroSpad_bytes (s : State) (n : Nat) :
    (s.zeroSpad n).dram.bytes = s.dram.bytes.zero (spadBase n) 0x400000 := rfl
@[simp] theorem State.mark_bytes (s : State) (l : List Nat) : (s.mark l).dram.bytes = s.dram.bytes := rfl
@[simp] theorem State.dirtyBlocks_bytes (s : State) (l : List Nat) : (s.dirtyBlocks l).dram.bytes = s.dram.bytes := rfl

end Sys2Proof.Machine
end

