-- ==== Sys2Proof/Laws/Memory.lean ====
section
/-!
SUPPORT. Sparse tables and byte memory: a write keeps the canonical form, a read after it gives the value written, and
every other key reads as before; then the same for the operations of the device memory that every family writes through.
-/
namespace Sys2Proof.Machine

/-! ## Tables -/

/-- The keys of a canonical table lie above a bound. -/
def Tab.above {α : Type} (b : Nat) (t : Tab α) : Prop := ∀ e ∈ t, b < e.1

theorem Tab.get_above {α : Type} (d : α) (t : Tab α) (a : Nat) (h : Tab.above a t) : Tab.get d t a = d := by
  cases t with
  | nil => rfl
  | cons x r =>
    obtain ⟨k, v⟩ := x
    have := h (k, v) (by simp)
    simp only [Tab.get]
    rw [if_pos this]

section Tables

variable {α : Type} [DecidableEq α] (d : α)

theorem Tab.wf_cons (k : Nat) (v : α) (r : Tab α) :
    Tab.wf d ((k, v) :: r) = true ↔ v ≠ d ∧ Tab.above k r ∧ Tab.wf d r = true := by
  induction r generalizing k v with
  | nil => simp [Tab.wf, Tab.above]
  | cons x r ih =>
    obtain ⟨k', v'⟩ := x
    have h := ih k' v'
    simp only [Tab.wf, Bool.and_eq_true, decide_eq_true_eq]
    constructor
    · rintro ⟨⟨hv, hk⟩, hr⟩
      refine ⟨hv, ?_, hr⟩
      intro e he
      rcases List.mem_cons.1 he with rfl | he
      · exact hk
      · exact Nat.lt_trans hk ((h.1 hr).2.1 e he)
    · rintro ⟨hv, ha, hr⟩
      exact ⟨⟨hv, ha (k', v') (by simp)⟩, hr⟩

/-- A write keeps a bound that its key and the table meet. -/
theorem Tab.above_put (b : Nat) (t : Tab α) (a : Nat) (v : α) (h : Tab.above b t) (ha : b < a) :
    Tab.above b (Tab.put d t a v) := by
  induction t with
  | nil =>
    intro e he
    simp only [Tab.put] at he
    split at he
    · cases he
    · simp at he; subst he; exact ha
  | cons x r ih =>
    obtain ⟨k, w⟩ := x
    have hk : b < k := h (k, w) (by simp)
    have hr : Tab.above b r := fun e he => h e (by simp [he])
    intro e he
    simp only [Tab.put] at he
    split at he
    · split at he
      · exact h e he
      · rcases List.mem_cons.1 he with rfl | he
        · exact ha
        · exact h e he
    · split at he
      · split at he
        · exact hr e he
        · rcases List.mem_cons.1 he with rfl | he
          · exact ha
          · exact hr e he
      · rcases List.mem_cons.1 he with rfl | he
        · exact hk
        · exact ih hr e he

/-- A write keeps the canonical form. -/
theorem Tab.wf_put (t : Tab α) (a : Nat) (v : α) (h : Tab.wf d t = true) : Tab.wf d (Tab.put d t a v) = true := by
  induction t with
  | nil =>
    by_cases hv : v = d
    · simp [Tab.put, Tab.wf, hv]
    · simp [Tab.put, Tab.wf, hv]
  | cons x r ih =>
    obtain ⟨k, w⟩ := x
    have h' := (Tab.wf_cons d k w r).1 h
    simp only [Tab.put]
    split
    · rename_i hak
      split
      · exact h
      · rename_i hv
        refine (Tab.wf_cons d a v _).2 ⟨hv, ?_, h⟩
        intro e he
        rcases List.mem_cons.1 he with rfl | he
        · exact hak
        · exact Nat.lt_trans hak (h'.2.1 e he)
    · split
      · rename_i hak
        subst hak
        split
        · exact h'.2.2
        · rename_i hv
          exact (Tab.wf_cons d a v r).2 ⟨hv, h'.2.1, h'.2.2⟩
      · rename_i h1 h2
        exact (Tab.wf_cons d k w _).2 ⟨h'.1, Tab.above_put d k r a v h'.2.1 (by omega), ih h'.2.2⟩

/-- A read after a write to the same key gives the value written. -/
theorem Tab.get_put_same (t : Tab α) (a : Nat) (v : α) (h : Tab.wf d t = true) : Tab.get d (Tab.put d t a v) a = v := by
  induction t with
  | nil =>
    by_cases hv : v = d
    · simp [Tab.put, Tab.get, hv]
    · simp [Tab.put, Tab.get, hv]
  | cons x r ih =>
    obtain ⟨k, w⟩ := x
    have h' := (Tab.wf_cons d k w r).1 h
    simp only [Tab.put]
    split
    · rename_i hak
      split
      · rename_i hv
        simp [Tab.get, hak, hv]
      · simp [Tab.get]
    · split
      · rename_i hak
        subst hak
        split
        · rename_i hv
          rw [hv]
          exact Tab.get_above d r a h'.2.1
        · simp [Tab.get]
      · rename_i h1 h2
        simp only [Tab.get]
        rw [if_neg h1, if_neg h2]
        exact ih h'.2.2

/-- A write leaves every other key as it reads. -/
theorem Tab.get_put_other (t : Tab α) (a b : Nat) (v : α) (h : Tab.wf d t = true) (hab : b ≠ a) :
    Tab.get d (Tab.put d t a v) b = Tab.get d t b := by
  induction t with
  | nil =>
    by_cases hv : v = d
    · simp [Tab.put, hv]
    · simp [Tab.put, hv, Tab.get, hab]
  | cons x r ih =>
    obtain ⟨k, w⟩ := x
    have h' := (Tab.wf_cons d k w r).1 h
    simp only [Tab.put]
    split
    · rename_i hak
      split
      · rfl
      · simp only [Tab.get]
        by_cases hba : b < a
        · rw [if_pos hba, if_pos (by omega)]
        · rw [if_neg hba, if_neg hab]
    · split
      · rename_i hak
        subst hak
        split
        · simp only [Tab.get]
          by_cases hba : b < a
          · rw [if_pos hba]
            exact Tab.get_above d r b (fun e he => Nat.lt_trans hba (h'.2.1 e he))
          · rw [if_neg hba, if_neg hab]
        · simp only [Tab.get]
          by_cases hba : b < a
          · simp [hba]
          · simp [hba, hab]
      · simp only [Tab.get]
        split
        · rfl
        · split
          · rfl
          · exact ih h'.2.2

theorem Tab.get_put (t : Tab α) (a b : Nat) (v : α) (h : Tab.wf d t = true) :
    Tab.get d (Tab.put d t a v) b = if b = a then v else Tab.get d t b := by
  by_cases hb : b = a
  · subst hb; rw [if_pos rfl]; exact Tab.get_put_same d t b v h
  · rw [if_neg hb]; exact Tab.get_put_other d t a b v h hb

/-- Removing entries keeps the canonical form. -/
theorem Tab.wf_filter (t : Tab α) (p : Nat × α → Bool) (h : Tab.wf d t = true) : Tab.wf d (t.filter p) = true := by
  induction t with
  | nil => rfl
  | cons x r ih =>
    obtain ⟨k, w⟩ := x
    have h' := (Tab.wf_cons d k w r).1 h
    simp only [List.filter]
    split
    · exact (Tab.wf_cons d k w _).2 ⟨h'.1, fun e he => h'.2.1 e ((List.mem_filter.1 he).1), ih h'.2.2⟩
    · exact ih h'.2.2

/-- Keys that are removed read as the default, and every other key as before. -/
theorem Tab.get_drop (t : Tab α) (p : Nat → Bool) (a : Nat) (h : Tab.wf d t = true) :
    Tab.get d (Tab.drop t p) a = if p a then d else Tab.get d t a := by
  induction t with
  | nil => simp [Tab.drop, Tab.get]
  | cons x r ih =>
    obtain ⟨k, w⟩ := x
    have h' := (Tab.wf_cons d k w r).1 h
    have ih' := ih h'.2.2
    simp only [Tab.drop, List.filter] at *
    by_cases hk : p k = true
    · simp only [hk, Bool.not_true]
      rw [ih']
      simp only [Tab.get]
      by_cases hp : p a = true
      · simp [hp]
      · rw [if_neg hp, if_neg hp]
        by_cases hak : a < k
        · rw [if_pos hak]
          exact Tab.get_above d r a (fun e he => Nat.lt_trans hak (h'.2.1 e he))
        · rw [if_neg hak, if_neg (fun e => by subst e; exact hp hk)]
    · have hk' : p k = false := by simpa using hk
      simp only [hk', Bool.not_false, Tab.get]
      by_cases hak : a < k
      · simp [hak]
      · rw [if_neg hak, if_neg hak]
        by_cases hka : a = k
        · subst hka; simp [hk']
        · rw [if_neg hka, if_neg hka, ih']

theorem Tab.wf_upd (t : Tab α) (a : Nat) (f : α → α) (h : Tab.wf d t = true) : Tab.wf d (Tab.upd d t a f) = true :=
  Tab.wf_put d t a _ h

theorem Tab.get_upd (t : Tab α) (a b : Nat) (f : α → α) (h : Tab.wf d t = true) :
    Tab.get d (Tab.upd d t a f) b = if b = a then f (Tab.get d t a) else Tab.get d t b := Tab.get_put d t a b _ h

end Tables

/-! ## Byte memory -/

theorem Mem.wf_write (m : Mem) (a : Nat) (b : Byte) (h : m.wf = true) : (m.write a b).wf = true := Tab.wf_put 0 m a b h

theorem Mem.read_write (m : Mem) (a c : Nat) (b : Byte) (h : m.wf = true) :
    (m.write a b).read c = if c = a then b else m.read c := Tab.get_put 0 m a c b h

theorem Mem.wf_zero (m : Mem) (a n : Nat) (h : m.wf = true) : (m.zero a n).wf = true := Tab.wf_filter 0 m _ h

theorem Mem.read_zero (m : Mem) (a n c : Nat) (h : m.wf = true) :
    (m.zero a n).read c = if a ≤ c ∧ c < a + n then 0 else m.read c := by
  have := Tab.get_drop (0 : Byte) m (fun k => decide (a ≤ k) && decide (k < a + n)) c h
  simpa [Mem.read, Mem.zero] using this

theorem Mem.wf_writeBytes (m : Mem) (a : Nat) (bs : List Byte) (h : m.wf = true) : (m.writeBytes a bs).wf = true := by
  induction bs generalizing m a with
  | nil => exact h
  | cons b r ih => exact ih (m.write a b) (a + 1) (Mem.wf_write m a b h)

/-- Bytes written at rising addresses read back, and no other byte changes. -/
theorem Mem.read_writeBytes (m : Mem) (a c : Nat) (bs : List Byte) (h : m.wf = true) :
    (m.writeBytes a bs).read c = if a ≤ c ∧ c < a + bs.length then bs.getD (c - a) 0 else m.read c := by
  induction bs generalizing m a with
  | nil => simp [Mem.writeBytes] <;> omega
  | cons b r ih =>
    rw [Mem.writeBytes, ih (m.write a b) (a + 1) (Mem.wf_write m a b h), Mem.read_write m a c b h]
    by_cases h1 : c = a
    · subst h1
      have h0 : ¬(c + 1 ≤ c ∧ c < c + 1 + r.length) := by omega
      simp [h0]
    · by_cases h2 : a + 1 ≤ c ∧ c < a + 1 + r.length
      · have e : c - a = (c - (a + 1)) + 1 := by omega
        simp only [List.length_cons]
        rw [if_pos h2, if_pos (by omega), e]
        simp
      · simp only [List.length_cons]
        rw [if_neg h2, if_neg h1, if_neg (by omega)]

/-- A read of n bytes, byte by byte. -/
theorem Mem.readBytes_eq (m : Mem) (a n : Nat) : m.readBytes a n = (List.range n).map (fun i => m.read (a + i)) := by
  induction n generalizing a with
  | zero => rfl
  | succ k ih =>
    rw [Mem.readBytes, ih, List.range_succ_eq_map]
    simp [Nat.add_comm 1, Nat.add_assoc, Function.comp_def]

/-- Bytes written read back as a string. -/
theorem Mem.readBytes_writeBytes (m : Mem) (a n : Nat) (bs : List Byte) (h : m.wf = true) (hn : n ≤ bs.length) :
    (m.writeBytes a bs).readBytes a n = bs.take n := by
  rw [Mem.readBytes_eq]
  apply List.ext_getElem
  · simp [hn]
  · intro k h1 h2
    have hk : k < bs.length := by simp at h2; omega
    simp [Mem.read_writeBytes m a _ bs h, hk]

theorem Mem.wf_writeLe (m : Mem) (a n v : Nat) (h : m.wf = true) : (m.writeLe a n v).wf = true :=
  Mem.wf_writeBytes m a _ h

theorem leBytes_length (n v : Nat) : (leBytes n v).length = n := by
  induction n generalizing v with
  | zero => rfl
  | succ n ih => simp [leBytes, ih]

/-! ## Numbers in sorted sets -/

theorem nsHas_nsIns (t : List Nat) (a b : Nat) : nsHas (nsIns t a) b = (decide (b = a) || nsHas t b) := by
  induction t with
  | nil => simp [nsIns, nsHas]
  | cons k r ih =>
    simp only [nsIns]
    split
    · simp [nsHas]
    · split
      · rename_i h; subst h; simp [nsHas]
      · simp only [nsHas, List.contains_cons] at *
        rw [ih]
        cases decide (b = a) <;> simp [Bool.or_comm]

theorem nsHas_nsDel (t : List Nat) (a b : Nat) : nsHas (nsDel t a) b = (decide (b ≠ a) && nsHas t b) := by
  rw [Bool.eq_iff_iff]
  simp [nsHas, nsDel, and_comm]

/-! ## Lists as files -/

@[simp] theorem length_modAt {α : Type} (l : List α) (n : Nat) (f : α → α) : (modAt l n f).length = l.length := by
  induction l generalizing n with
  | nil => rfl
  | cons x r ih => cases n with
    | zero => rfl
    | succ n => simp [modAt, ih]

/-- An entry of a file after a change of one of its entries. -/
theorem getD_modAt {α : Type} (l : List α) (n k : Nat) (f : α → α) (d : α) :
    (modAt l n f).getD k d = if k = n ∧ n < l.length then f (l.getD k d) else l.getD k d := by
  induction l generalizing n k with
  | nil => simp [modAt]
  | cons x r ih =>
    cases n with
    | zero =>
      cases k with
      | zero => simp [modAt]
      | succ k => simp [modAt]
    | succ n =>
      cases k with
      | zero => simp [modAt]
      | succ k => simpa [modAt] using ih n k

/-- Changing an entry is setting it. -/
theorem modAt_eq_set {α : Type} (l : List α) (n : Nat) (f : α → α) (d : α) : modAt l n f = l.set n (f (l.getD n d)) := by
  induction l generalizing n with
  | nil => rfl
  | cons x r ih =>
    cases n with
    | zero => simp [modAt]
    | succ n => simpa [modAt] using ih n

/-! ## Device memory -/

/-- Writing bytes changes the bytes of device memory alone, to a canonical memory. -/
theorem State.putCells_spec (s : State) (cs : List (Nat × Byte)) :
    ∃ m, s.putCells cs = { s with dram := { s.dram with bytes := m } }
      ∧ (Mem.wf s.dram.bytes = true → Mem.wf m = true) := by
  induction cs generalizing s with
  | nil => exact ⟨s.dram.bytes, rfl, id⟩
  | cons c r ih =>
    obtain ⟨a, b⟩ := c
    by_cases hu : s.unreadable a = true
    · have h1 : s.putCells ((a, b) :: r) = s.putCells r := by simp [State.putCells, hu]
      rw [h1]
      exact ih s
    · obtain ⟨m, hm, hw⟩ := ih { s with dram := { s.dram with bytes := s.dram.bytes.write a b } }
      refine ⟨m, ?_, fun h => hw (Mem.wf_write _ a b h)⟩
      simp only [State.putCells, hu]
      exact hm

/-- A store changes bytes and the marks of sectors alone, and keeps memory canonical. -/
theorem State.store_spec (s : State) (cs : List (Nat × Byte)) :
    ∃ m p l, s.store cs = { s with dram := { s.dram with bytes := m, poison := p, lost := l } }
      ∧ (Mem.wf s.dram.bytes = true → Mem.wf m = true) := by
  obtain ⟨m, hm, hw⟩ := s.putCells_spec cs
  exact ⟨m, _, _, by simp only [State.store, hm]; rfl, hw⟩

/-- A movement of bytes changes bytes and the marks of sectors alone, and keeps memory canonical. -/
theorem State.moveBytes_spec (s : State) (ps : List (Nat × Nat)) :
    ∃ m p l, s.moveBytes ps = { s with dram := { s.dram with bytes := m, poison := p, lost := l } }
      ∧ (Mem.wf s.dram.bytes = true → Mem.wf m = true) := by
  obtain ⟨m, p, l, hm, hw⟩ := s.store_spec (ps.map (fun p => (p.2, s.rdByte p.1)))
  exact ⟨m, _, _, by simp only [State.moveBytes, State.mark, hm]; rfl, hw⟩

/-! ## Requests of the slices -/

/-- What the slices do for a request: State.translated with the translation unit as it was. -/
def State.sliceOnly (s t : State) : Prop := s.translated t ∧ t.xlt = s.xlt

theorem State.translated_refl (s : State) : s.translated s := ⟨rfl, rfl, fun _ => rfl⟩

theorem State.translated.trans {s t u : State} (h : s.translated t) (k : t.translated u) : s.translated u := by
  obtain ⟨h1, h2, h3⟩ := h
  obtain ⟨k1, k2, k3⟩ := k
  refine ⟨?_, k2.trans h2, fun i => ?_⟩
  · rw [k1, h1]
  · rw [k3 i, h3 i]

theorem State.sliceOnly_refl (s : State) : s.sliceOnly s := ⟨s.translated_refl, rfl⟩

theorem State.sliceOnly.trans {s t u : State} (h : s.sliceOnly t) (k : t.sliceOnly u) : s.sliceOnly u :=
  ⟨h.1.trans k.1, k.2.trans h.2⟩

theorem State.sliceOnly_of {s t : State}
    (h : t = { s with
      dram := { s.dram with
        poison := t.dram.poison
        lost := t.dram.lost
        nsc := t.dram.nsc
        dir := t.dram.dir
        nscClock := t.dram.nscClock
        arrivals := t.dram.arrivals }
      mcu := t.mcu }) : s.sliceOnly t := by
  have hc : t.cores = s.cores := by rw [h]
  refine ⟨⟨?_, by rw [hc], fun k => ?_⟩, by rw [h]⟩
  · rw [h]
  · simp only [State.core, hc]

theorem State.sliceOnly_foldl {α : Type} (l : List α) (f : State → α → State) (hf : ∀ (s : State) (x : α), s.sliceOnly (f s x))
    (s : State) : s.sliceOnly (l.foldl f s) := by
  induction l generalizing s with
  | nil => exact s.sliceOnly_refl
  | cons x r ih => exact (hf s x).trans (ih _)

/-- A core's caches change. -/
theorem State.updCore_sliceOnly (s : State) (n : Nat) (f : Core → Core)
    (hf : ∀ c, f c = { c with l1 := (f c).l1, priv := (f c).priv }) : s.sliceOnly (s.updCore n f) := by
  refine ⟨⟨rfl, by simp, fun k => ?_⟩, rfl⟩
  simp only [State.core, State.updCore_cores, getD_modAt]
  split
  · exact hf _
  · rfl

theorem State.putDir_sliceOnly (s : State) (l : Nat) (d : DirEntry) : s.sliceOnly (s.putDir l d) := State.sliceOnly_of rfl
theorem State.mark_sliceOnly (s : State) (pas : List Nat) : s.sliceOnly (s.mark pas) := State.sliceOnly_of rfl
theorem State.touchLine_sliceOnly (s : State) (l : Nat) (f : NscLine → NscLine) : s.sliceOnly (s.touchLine l f) :=
  State.sliceOnly_of rfl

theorem State.sendTxn_sliceOnly (s : State) (narrow : Bool) (cls : Nat) (write : Bool) (l : Nat) (m : BitVec 8)
    (be : BitVec 256) : s.sliceOnly (s.sendTxn narrow cls write l m be) := by
  simp only [State.sendTxn]
  refine State.sliceOnly.trans (t := { s with dram := { s.dram with arrivals := s.dram.arrivals + 1 } })
    (State.sliceOnly_of rfl) (State.sliceOnly_foldl _ _ (fun t _ => State.sliceOnly_of rfl) _)

theorem State.evict_sliceOnly (s : State) (l : Nat) : s.sliceOnly (s.evict l) := by
  have h := State.sliceOnly_foldl (s.sharersOf l none) (fun t n => t.updCore n (fun c => c.dropLine l))
    (fun t _ => t.updCore_sliceOnly _ _ (fun _ => rfl)) s
  simp only [State.evict]
  split
  · exact h.trans (State.sliceOnly.trans (State.putDir_sliceOnly _ _ _) (State.sliceOnly_of rfl))
  · exact (h.trans (State.sliceOnly.trans (State.putDir_sliceOnly _ _ _) (State.sliceOnly_of rfl))).trans
      (State.sendTxn_sliceOnly _ _ _ _ _ _ _)

theorem State.allocate_sliceOnly (s : State) (l : Nat) (m fresh dirty : BitVec 8) : s.sliceOnly (s.allocate l m fresh dirty) := by
  have go : ∀ (t : State) (ps : List Nat) (f : NscLine → NscLine), t.sliceOnly ((t.mark ps).touchLine l f) :=
    fun t ps f => (t.mark_sliceOnly ps).trans (State.touchLine_sliceOnly _ _ _)
  simp only [State.allocate]
  split
  · exact go s _ _
  · exact (s.evict_sliceOnly _).trans (go _ _ _)
  · exact s.sliceOnly_refl

theorem State.recallCores_sliceOnly (s : State) (l : Nat) (ns : List Nat) (keep : Bool) : s.sliceOnly (s.recallCores l ns keep) := by
  have h := State.sliceOnly_foldl ns (fun t n => t.updCore n (fun c => if keep then c.shareLine l else c.dropLine l))
    (fun t _ => t.updCore_sliceOnly _ _ (fun c => by cases keep <;> rfl)) s
  simp only [State.recallCores]
  split
  · exact h
  · exact h.trans (State.allocate_sliceOnly _ _ _ _ _)

theorem State.takeCopy_sliceOnly (s : State) (l : Nat) (core : Option Nat) (excl : Bool) : s.sliceOnly (s.takeCopy l core excl) := by
  have k : ∀ (b : Bool) (ns : List Nat) (d : DirEntry),
      s.sliceOnly ((if b then s.recallCores l ns true else s).putDir l d) := by
    intro b ns d
    cases b
    · exact State.putDir_sliceOnly _ _ _
    · exact (s.recallCores_sliceOnly _ _ _).trans (State.putDir_sliceOnly _ _ _)
  cases excl
  · exact k _ _ _
  · exact (s.recallCores_sliceOnly _ _ _).trans (State.putDir_sliceOnly _ _ _)

/-- R326: a read moves lines and copies of lines, and changes no byte. -/
theorem State.serveRead_sliceOnly (s : State) (who : Requester) (core : Option Nat) (excl : Bool) (l : Nat) (m : BitVec 8) :
    s.sliceOnly (s.serveRead who core excl l m) := by
  have h := s.takeCopy_sliceOnly l core excl
  simp only [State.serveRead]
  split
  · exact h.trans (State.touchLine_sliceOnly _ _ _)
  · split
    · exact h.trans (State.allocate_sliceOnly _ _ _ _ _)
    · split
      · exact h.trans (State.allocate_sliceOnly _ _ _ _ _)
      · split
        · exact h.trans (State.touchLine_sliceOnly _ _ _)
        · exact h

/-- R326: so does the part of a write that the slices see. -/
theorem State.serveWrite_sliceOnly (s : State) (who : Requester) (core : Option Nat) (l : Nat) (m : BitVec 8) (be : BitVec 256) :
    s.sliceOnly (s.serveWrite who core l m be) := by
  have h := s.takeCopy_sliceOnly l core true
  unfold State.serveWrite
  generalize s.takeCopy l core true = s1 at h
  dsimp only
  split
  · split
    · exact h.trans (State.allocate_sliceOnly _ _ _ _ _)
    · exact (h.trans (State.allocate_sliceOnly _ _ _ _ _)).trans (State.sendTxn_sliceOnly _ _ _ _ _ _ _)
  · split
    · exact h.trans (State.allocate_sliceOnly _ _ _ _ _)
    · have k : s.sliceOnly (if (s1.line l).valid &&& m ≠ 0 then s1.touchLine l id else s1) := by
        split
        · exact h.trans (State.touchLine_sliceOnly _ _ _)
        · exact h
      split
      · exact k
      · exact k.trans (State.sendTxn_sliceOnly _ _ _ _ _ _ _)

theorem State.unitRead_sliceOnly (s : State) (who : Requester) (pas : List Nat) : s.sliceOnly (s.unitRead who pas) :=
  State.sliceOnly_foldl _ _ (fun t _ => t.serveRead_sliceOnly _ _ _ _ _) s

theorem State.unitWrite_sliceOnly (s : State) (who : Requester) (pas : List Nat) : s.sliceOnly (s.unitWrite who pas) :=
  State.sliceOnly_foldl _ _ (fun t _ => t.serveWrite_sliceOnly _ _ _ _ _) s

/-- Zeroing blocks keeps memory canonical, and changes memory, the cores' caches and the controllers alone. -/
theorem State.fill_spec (s : State) (bs : List Nat) :
    ∃ d c m, s.fill bs = { s with dram := d, cores := c, mcu := m } ∧ (Mem.wf s.dram.bytes = true → Mem.wf d.bytes = true) := by
  induction bs generalizing s with
  | nil => exact ⟨s.dram, s.cores, s.mcu, rfl, id⟩
  | cons b r ih =>
    obtain ⟨d, c, m, h, hw⟩ := ih (s.fillBlock b)
    obtain ⟨⟨h1, _, _⟩, hx⟩ := State.sliceOnly_foldl (s.blockLines b)
      (fun t l => t.serveWrite .bulk none l 0xFF (BitVec.allOnes 256)) (fun t _ => t.serveWrite_sliceOnly _ _ _ _ _) s
    have hb : ∃ t : State, s.fillBlock b = t.zeroBlock b ∧ t.dram.bytes = s.dram.bytes
        ∧ t = { s with dram := t.dram, cores := t.cores, mcu := t.mcu } := by
      refine ⟨_, rfl, ?_, ?_⟩
      · rw [h1]
      · rw [h1, hx]
    obtain ⟨t, hb, hbytes, ht⟩ := hb
    refine ⟨d, c, m, ?_, fun k => hw ?_⟩
    · show (s.fillBlock b).fill r = _
      rw [h, hb, ht]
      rfl
    · rw [hb]
      exact Mem.wf_zero _ _ _ (by rw [hbytes]; exact k)

theorem State.zeroSpad_wf (s : State) (n : Nat) (h : Mem.wf s.dram.bytes = true) : Mem.wf (s.zeroSpad n).dram.bytes = true :=
  Mem.wf_zero _ _ _ h

end Sys2Proof.Machine
end

