-- ==== Sys2Proof/Laws/Dram.lean ====
section
/-!
SUPPORT. What reads of DRAM that find errors can do (R338): memory and its marks, the controllers' counts and queues, and
the records of it, and nothing else.
-/
namespace Sys2Proof.Machine

/-- The parts of a state that errors found in DRAM can change, and the channels that stay. -/
def State.dramOnly (s t : State) : Prop :=
  t = { s with dram := t.dram, mcu := t.mcu, flt := t.flt, host := t.host, dev := { s.dev with faultNew := t.dev.faultNew } }
    ∧ t.mcu.map (·.ch.length) = s.mcu.map (·.ch.length) ∧ (s.dev.faultNew = true → t.dev.faultNew = true)

theorem State.dramOnly_refl (s : State) : s.dramOnly s := ⟨rfl, rfl, id⟩

theorem State.dramOnly.trans {s t u : State} (h : s.dramOnly t) (k : t.dramOnly u) : s.dramOnly u := by
  obtain ⟨h1, h2, h3⟩ := h
  obtain ⟨k1, k2, k3⟩ := k
  refine ⟨?_, k2.trans h2, fun z => k3 (h3 z)⟩
  rw [k1, h1]

theorem ite_dramOnly {s t u : State} {p : Prop} [Decidable p] (h : s.dramOnly t) (k : s.dramOnly u) :
    s.dramOnly (if p then t else u) := by
  split
  · exact h
  · exact k

theorem map_modAt {α β : Type} (l : List α) (n : Nat) (f : α → α) (g : α → β) (h : ∀ x, g (f x) = g x) :
    (modAt l n f).map g = l.map g := by
  induction l generalizing n with
  | nil => cases n <;> rfl
  | cons x r ih => cases n with
    | zero => simp [modAt, h]
    | succ n => simp [modAt, ih]

theorem State.updMcu_dramOnly (s : State) (i : Nat) (f : Mcu → Mcu) (h : ∀ m, (f m).ch.length = m.ch.length) :
    s.dramOnly (s.updMcu i f) := ⟨rfl, map_modAt _ _ _ _ h, id⟩

theorem State.updChan_dramOnly (s : State) (c : Nat) (f : Chan → Chan) : s.dramOnly (s.updChan c f) :=
  ⟨rfl, map_modAt _ _ _ _ (fun _ => length_modAt _ _ _), id⟩

theorem State.post_dramOnly (s : State) (r : LogRec) : s.dramOnly (s.post r) := by
  unfold State.post State.setFaultNew
  dsimp only
  split
  · next h => exact ⟨by rw [h]; exact congrArg (fun d => ({ s with dev := d, flt := _ } : State)) (by rw [← h]), rfl, id⟩
  · exact ⟨rfl, rfl, fun _ => rfl⟩

theorem State.sendTxn_dramOnly (s : State) (narrow : Bool) (cls : Nat) (write : Bool) (l : Nat) (m : BitVec 8)
    (be : BitVec 256) : s.dramOnly (s.sendTxn narrow cls write l m be) := by
  have go : ∀ (ps : List (Nat × BitVec 8)) (g : Nat × BitVec 8 → Txn) (t : State), s.dramOnly t →
      s.dramOnly (ps.foldl (fun t p => t.updMcu p.1 (fun x => { x with waiting := x.waiting ++ [g p] })) t) := by
    intro ps g
    induction ps with
    | nil => exact fun _ h => h
    | cons p r ih => exact fun t h => ih _ (h.trans (t.updMcu_dramOnly _ _ (fun _ => rfl)))
  exact go _ _ _ ⟨rfl, rfl, id⟩

theorem State.trigger_dramOnly (s : State) (ch : Nat) : s.dramOnly (s.trigger ch) := by
  unfold State.trigger
  dsimp only
  split
  · exact s.dramOnly_refl
  · split
    · split
      · exact s.dramOnly_refl
      · exact s.updMcu_dramOnly _ _ (fun _ => rfl)
    · exact (s.updChan_dramOnly _ _).trans (State.updMcu_dramOnly _ _ _ (fun _ => rfl))

theorem State.corrected_dramOnly (s : State) (q k y : Nat) : s.dramOnly (s.corrected q k y) := by
  unfold State.corrected
  refine State.dramOnly.trans ?_ (ite_dramOnly (State.trigger_dramOnly _ _) (State.dramOnly_refl _))
  refine State.dramOnly.trans ?_ (State.post_dramOnly _ _)
  refine State.dramOnly.trans ?_ (ite_dramOnly (State.dramOnly_refl _) (State.sendTxn_dramOnly _ _ _ _ _ _ _))
  exact (s.updChan_dramOnly _ _).trans (State.updMcu_dramOnly _ _ _ (fun _ => rfl))

theorem State.putCells_dramOnly (s : State) (cs : List (Nat × Byte)) : s.dramOnly (s.putCells cs) := by
  induction cs generalizing s with
  | nil => exact s.dramOnly_refl
  | cons c r ih =>
    refine State.dramOnly.trans (t := if s.unreadable c.1 then s else { s with dram := { s.dram with bytes := s.dram.bytes.write c.1 c.2 } }) ?_ (ih _)
    split
    · exact s.dramOnly_refl
    · exact ⟨rfl, rfl, id⟩

theorem State.uncorrectable_dramOnly (s : State) (q k y : Nat) : s.dramOnly (s.uncorrectable q k y) := by
  unfold State.uncorrectable
  dsimp only
  refine State.dramOnly.trans ?_ (State.post_dramOnly _ _)
  refine State.dramOnly.trans ?_ (State.sendTxn_dramOnly _ _ _ _ _ _ _)
  refine State.dramOnly.trans ?_ (State.updMcu_dramOnly _ _ _ (fun _ => rfl))
  split
  · exact s.dramOnly_refl
  · split <;> exact ⟨rfl, rfl, id⟩

theorem State.wrongBytes_dramOnly (s : State) (q k : Nat) (bs : List Byte) : s.dramOnly (s.wrongBytes q k bs) := by
  unfold State.wrongBytes
  split
  · exact s.dramOnly_refl
  · exact s.putCells_dramOnly _

/-- R338: what a read of a codeword finds changes memory, controllers and records alone. -/
theorem State.found_dramOnly (s : State) (q : Nat) (ks : List Nat) (e : DramErr) : s.dramOnly (s.found q ks e) := by
  unfold State.found
  split
  · exact s.dramOnly_refl
  · split
    · exact s.corrected_dramOnly _ _ _
    · exact s.dramOnly_refl
  · split
    · exact s.uncorrectable_dramOnly _ _ _
    · exact s.dramOnly_refl
  · split
    · exact (s.wrongBytes_dramOnly _ _ _).trans (State.corrected_dramOnly _ _ _ _)
    · exact s.dramOnly_refl
  · split
    · exact s.wrongBytes_dramOnly _ _ _
    · exact s.dramOnly_refl

theorem State.foundAll_dramOnly (s : State) (q : Nat) (ks : List Nat) (es : List DramErr) : s.dramOnly (s.foundAll q ks es) := by
  unfold State.foundAll
  induction es generalizing s with
  | nil => exact s.dramOnly_refl
  | cons e r ih => exact (s.found_dramOnly q ks e).trans (ih _)

end Sys2Proof.Machine
end

