-- ==== Sys2Proof/Laws/Ops.lean ====
section
/-!
SUPPORT. What each shared operation does, said once: a BAR0 write that a block takes, an instruction that reaches its own
effect, a word that an engine runs, and the updates of cores, engines and units.
-/
namespace Sys2Proof.Machine

/-! ## BAR0 -/

/-- A write within the BAR that its block takes at once is the block's own write. -/
theorem State.barWrite_serves (s : State) (off size v : Nat) (b : Block) (o : Nat) (hb : barOk off size = true)
    (ha : blockAt off = some (b, o)) (h : s.serves b) : s.barWrite off size v = s.blockWrite b o size v := by
  obtain ⟨h1, h2, h3⟩ := h
  simp [State.barWrite, hb, ha, h1, h2, h3]

/-! ## Cores -/

theorem State.core_updCore (s : State) (n k : Nat) (f : Core → Core) :
    (s.updCore n f).core k = if k = n ∧ n < s.cores.length then f (s.core k) else s.core k := by
  simp only [State.core, State.updCore_cores, getD_modAt]

theorem State.core_updCore_same (s : State) (n : Nat) (f : Core → Core) (h : n < s.cores.length) :
    (s.updCore n f).core n = f (s.core n) := by simp [State.core_updCore, h]

theorem State.core_updCore_other (s : State) (n k : Nat) (f : Core → Core) (h : k ≠ n) :
    (s.updCore n f).core k = s.core k := by simp [State.core_updCore, h]

theorem State.cores_length_updCore (s : State) (n : Nat) (f : Core → Core) :
    (s.updCore n f).cores.length = s.cores.length := by simp

/-- R147: reading a register after it is written. -/
theorem Core.rg_wg (c : Core) (r q : BitVec 5) (v : Word) (h : c.g.length = 32) :
    (c.wg r v).rg q = if q = 0 then 0 else if q = r then v else c.rg q := by
  by_cases hq : q = 0
  · simp [Core.rg, hq]
  · by_cases hr : r = 0
    · subst hr
      simp only [Core.rg, Core.wg, hq, if_true, if_false]
    · have hlt : r.toNat < c.g.length := by rw [h]; exact r.isLt
      by_cases hqr : q = r
      · subst hqr
        simp only [Core.rg, Core.wg, hq, if_false, if_true]
        rw [getD_modAt]
        simp [hlt]
      · have hne : q.toNat ≠ r.toNat := fun e => hqr (BitVec.eq_of_toNat_eq e)
        simp only [Core.rg, Core.wg, hq, hr, hqr, if_false]
        rw [getD_modAt]
        simp [hne]

/-- R147: a write of g0 is discarded. -/
theorem Core.wg_zero (c : Core) (v : Word) : c.wg 0 v = c := by simp [Core.wg]

/-- R147: g0 reads as zero. -/
theorem Core.rg_zero (c : Core) : c.rg 0 = 0 := by simp [Core.rg]

/-! ## Instructions -/

theorem State.translated.ctxs {s t : State} (h : s.translated t) : t.ctxs = s.ctxs := by rw [h.1]
theorem State.translated.ple {s t : State} (h : s.translated t) : t.ple = s.ple := by rw [h.1]
theorem State.translated.bytes {s t : State} (h : s.translated t) : t.dram.bytes = s.dram.bytes := by rw [h.1]

/-- R365: the use of a range that is held, or whose entry reads without poison, changes only what State.translated says. -/
theorem State.rtbUse_translated (s : State) (buf c i : Nat)
    (h : (s.xlt.rtb.getD buf []).contains (c * 64 + i) = true ∨ (s.tableRead c i).bad (32 * (64 * c + i)) = false) :
    s.translated (s.rtbUse buf c i) := by
  have hput : ∀ t : State, t.translated
      { t with xlt := { t.xlt with rtb := modAt t.xlt.rtb buf (fun l => rtbPut l (c * 64 + i)) } } :=
    fun t => ⟨rfl, rfl, fun _ => rfl⟩
  by_cases hh : (s.xlt.rtb.getD buf []).contains (c * 64 + i) = true
  · simp only [State.rtbUse, hh, if_true]
    exact hput s
  · have hb := h.resolve_left hh
    have hr : s.translated (s.tableRead c i) :=
      State.translated.trans (t := { s with xlt := { s.xlt with rtbMiss := s.xlt.rtbMiss + 1 } }) ⟨rfl, rfl, fun _ => rfl⟩
        (State.unitRead_sliceOnly _ _ _).1
    simp only [State.rtbUse, hh, hb]
    exact hr.trans (hput _)

theorem State.useAll_translated (buf c : Nat) (is : List Nat) (s : State) (h : State.tablesGood buf c is s) :
    s.translated (is.foldl (fun t i => t.rtbUse buf c i) s) := by
  induction is generalizing s with
  | nil => exact s.translated_refl
  | cons i r ih => exact (s.rtbUse_translated buf c i h.1).trans (ih _ h.2)

/-- R365: work whose ranges are good goes on in a state that State.translated relates. -/
theorem State.withCoreRanges_good (s : State) (n : Nat) (vas : List Nat) (k : State → State) (h : s.rangesGood n vas) :
    s.withCoreRanges n vas k = k (s.withCoreRanges n vas id) ∧ s.translated (s.withCoreRanges n vas id) := by
  by_cases hp : (s.core (s.leadOf n)).work = .pack
  · simp only [State.withCoreRanges, hp, if_true]
    exact ⟨rfl, s.translated_refl⟩
  · have ht := State.useAll_translated _ _ _ _ (h.resolve_left hp)
    have hk : ∀ x, ((s.useRanges (n / 8) (s.core (s.leadOf n)).ctx vas).ctx x) = s.ctx x := by
      intro x
      exact congrArg (fun l => Tab.get Ctx.none l x) ht.ctxs
    simp only [State.withCoreRanges, hp, if_false, State.withRanges, hk]
    cases hq : (s.ctx (s.core (s.leadOf n)).ctx).killed <;> simp <;> exact ht

/-- A register that no poison names is good. -/
theorem State.regBad_false (s : State) (n : Nat) (r : RegName) (h : (s.core n).regPoison = [])
    (hm : ∀ k ∈ s.machineOf n, (s.core k).regPoison = []) : s.regBad n r = false := by
  cases r with
  | g k => simp [State.regBad, h]
  | d k => simp [State.regBad, h]
  | v k =>
    simp only [State.regBad, List.any_eq_false]
    intro x hx
    simp [hm x (List.mem_of_mem_take hx)]
  | p k =>
    simp only [State.regBad, Bool.and_eq_false_iff, List.any_eq_false]
    right
    intro x hx
    simp [hm x (List.mem_of_mem_take hx)]

/-- Registers that no poison names hold up no instruction. -/
theorem State.operands_good (s : State) (n unit : Nat) (reads : List RegName) (f : State → State)
    (h : (s.core n).regPoison = []) (hm : ∀ k ∈ s.machineOf n, (s.core k).regPoison = []) :
    s.operands n unit reads f = f s := by
  have : reads.any (s.regBad n) = false := by
    simp only [List.any_eq_false]
    intro x _
    simp [s.regBad_false n x h hm]
  simp [State.operands, this]

/-- The fetch of an instruction that issues raises nothing. -/
theorem State.fetchExc_issues (s : State) (n len : Nat) (h : s.issues n len) : s.fetchExc n len = none := by
  obtain ⟨_, _, _, _, _, _, _, _, _, _, hf⟩ := h
  rcases hf with hs | ⟨pas, hx, hb, _⟩
  · simp [State.fetchExc, hs]
  · by_cases hs : (s.core n).steward = true
    · simp [State.fetchExc, hs]
    · simp only [State.fetchExc, hs, hx]
      have : ((vAddrs (s.core n).pc.toNat len).zip pas).find? (fun p => (addrs (lineOf p.2) 64).any s.bad) = none := by
        rw [List.find?_eq_none]
        intro p hp
        have hp2 : p.2 ∈ pas := (List.of_mem_zip hp).2
        simp only [Bool.not_eq_true, List.any_eq_false]
        intro b hbm
        simp [hb p.2 hp2 b hbm]
      simp [this]

/-- R365: what the fetch of an instruction that issues changes. -/
theorem State.fetched_translated (s : State) (n len : Nat) (h : s.issues n len) : s.translated (s.fetched n len) := by
  obtain ⟨_, _, _, _, _, _, _, _, _, _, hf⟩ := h
  by_cases hs : (s.core n).steward = true ∨ (s.core (s.leadOf n)).work = .pack
  · simp only [State.fetched, hs, if_true]
    exact s.translated_refl
  · simp only [State.fetched, hs, if_false]
    rw [not_or] at hs
    rcases hf with hs' | ⟨_, _, _, hg⟩
    · exact absurd hs' hs.1
    · exact State.useAll_translated _ _ _ _ (hg.resolve_left hs.2)

/-- R161, R163, R164: an instruction that issues has its own effect, once its words are translated. -/
theorem State.instr_issues (s : State) (n len : Nat) (reads : List RegName) (unit : Nat) (f : State → State)
    (h : s.issues n len) : s.instr n len reads unit f = f (s.fetched n len) := by
  have hf := s.fetchExc_issues n len h
  have ht := s.fetched_translated n len h
  obtain ⟨_, _, _, _, _, _, he, hd, hr, hm, hx⟩ := h
  have hc : ((s.fetched n len).core n).regPoison = [] := by rw [ht.2.2 n]; exact hr
  have hmm : ∀ k ∈ (s.fetched n len).machineOf n, ((s.fetched n len).core k).regPoison = [] := by
    intro k hk
    rw [ht.2.2 k]
    refine hm k ?_
    have : (s.fetched n len).machineOf n = s.machineOf n := by
      simp only [State.machineOf, State.vmOf, ht.ple]
    rw [← this]
    exact hk
  have ho := (s.fetched n len).operands_good n unit reads f hc hmm
  by_cases hs : (s.core n).steward = true
  · have hu : s.fetched n len = s := by simp [State.fetched, hs]
    rw [hu] at ho ⊢
    simp [State.instr, he, hd, hf, hs, ho]
  · have hg : s.rangesGood n (vAddrs (s.core n).pc.toNat len) := by
      rcases hx with hs' | ⟨_, _, _, hg⟩
      · exact absurd hs' hs
      · exact hg
    have hw := (s.withCoreRanges_good n _ (fun t => t.operands n unit reads f) hg).1
    have hu : s.withCoreRanges n (vAddrs (s.core n).pc.toNat len) id = s.fetched n len := by
      by_cases hp : (s.core (s.leadOf n)).work = .pack
      · simp [State.withCoreRanges, State.fetched, hp]
      · simp only [State.withCoreRanges, State.fetched, hp, hs, if_false, State.withRanges, id]
        split <;> rfl
    rw [hu] at hw
    simp [State.instr, he, hd, hf, hs, hw, ho]

theorem State.scalar_issues (s : State) (n : Nat) (reads : List RegName) (f : State → State) (h : s.issues n 4) :
    s.scalar n reads f = f (s.fetched n 4) := s.instr_issues n 4 reads 1 f h

/-! ## Stream chain engines -/

/-- R264: a word that an engine reaches runs when it is the word that the command names. -/
theorem State.word_at (s : State) (n e : Nat) (w : SeqWord) (want : SeqWord → Bool) (f : State → Sce → SeqWord → State)
    (h : s.atWord n e w) : s.word n e want f = if want w then f s (s.engine n e) w else s := by
  obtain ⟨_, _, _, hr, hp, hb, hd⟩ := h
  have h1 : ¬4095 < (s.engine n e).pc := by omega
  simp [State.word, hr, h1, hb, hd]

/-- An update of one engine is an update of that engine and of nothing else. -/
theorem State.updEngine_is (s : State) (n e : Nat) (f : Sce → Sce) (h : n < s.cores.length) :
    s.engineIs (s.updEngine n e f) n e (f (s.engine n e)) := by
  refine ⟨rfl, fun k hk => s.core_updCore_other n k _ hk, ?_⟩
  rw [State.updEngine, s.core_updCore_same n _ h]
  simp only [State.engine]
  rw [modAt_eq_set _ e f Sce.reset]

end Sys2Proof.Machine
end

