-- ==== Sys2Proof/WellFormed.lean ====
section
/-!
DEFINITION. Which commands are well formed: every operand lies in the range the manual gives it (a core is one of 64, a
port one of 16, an island one of 18, a written value has 64 bits). exec answers for every command, well formed or not.
-/
namespace Sys2Proof

/-- Whether every operand of a command is in range. -/
def Instr.wf : Instr → Bool
  | .porNAssert => true
  | .powerOnReset => true
  | .wrstNAssert => true
  | .perstNAssert => true
  | .warmResetRelease => true
  | .bootHoldTimeout => true
  | .thermalSample _ _ => true
  | .pmbAlert i => decide (i < 18)
  | .droop i _ _ => decide (i < 18)
  | .twnHbToggle => true
  | .twnAliveRise => true
  | .heartbeatLost _ => true
  | .linkSignalDetect p => decide (p < 16)
  | .linkTrained p _ _ => decide (p < 16)
  | .laneLockLoss p => decide (p < 16)
  | .relockTimeout p => decide (p < 16)
  | .portLost p => decide (p < 16)
  | .keepaliveSend p => decide (p < 16)
  | .holdRefresh => true
  | .holdLapse p _ => decide (p < 16)
  | .rekey p => decide (p < 16)
  | .frameEgress p => decide (p < 16)
  | .train h => decide (h.port < 16)
  | .spdm h _ => decide (h.port < 16)
  | .kem h _ => decide (h.port < 16)
  | .keymark h => decide (h.port < 16)
  | .credit h _ => decide (h.port < 16)
  | .keepalive h => decide (h.port < 16)
  | .node h _ => decide (h.port < 16)
  | .cancel h _ _ seq st => decide (h.port < 16) && decide (seq < 2 ^ 32) && decide (st < 256)
  | .twinState h _ => decide (h.port < 16)
  | .replay h lseq => decide (h.port < 16) && decide (lseq < 2 ^ 32)
  | .winWrite h info _ => decide (h.port < 16) && decide (info.length = 16)
  | .winRead h info => decide (h.port < 16) && decide (info.length = 16)
  | .winData h info _ => decide (h.port < 16) && decide (info.length = 16)
  | .winAck h info => decide (h.port < 16) && decide (info.length = 16)
  | .partialFrame h info _ => decide (h.port < 16) && decide (info.length = 16)
  | .resultFrame h info _ => decide (h.port < 16) && decide (info.length = 16)
  | .blockFrame h info _ => decide (h.port < 16) && decide (info.length = 16)
  | .grantFrame h info => decide (h.port < 16) && decide (info.length = 16)
  | .receiptFrame h info => decide (h.port < 16) && decide (info.length = 16)
  | .mirror h info _ _ => decide (h.port < 16) && decide (info.length = 16)
  | .mirrorAck h info => decide (h.port < 16) && decide (info.length = 16)
  | .hold h info => decide (h.port < 16) && decide (info.length = 16)
  | .lost h info => decide (h.port < 16) && decide (info.length = 16)
  | .wake h info => decide (h.port < 16) && decide (info.length = 16)
  | .wakeAck h info => decide (h.port < 16) && decide (info.length = 16)
  | .portRetrain p => decide (p < 16)
  | .lnkClose p _ => decide (p < 16)
  | .lnkAbort p => decide (p < 16)
  | .lnkCntReset p => decide (p < 16)
  | .getVersion => true
  | .getCapabilities => true
  | .negotiateAlgorithms _ => true
  | .getDigests => true
  | .getCertificate => true
  | .challenge _ => true
  | .getMeasurements index _ => decide (index < 256)
  | .keyExchange => true
  | .finish _ => true
  | .keyUpdate _ => true
  | .heartbeat _ => true
  | .endSession _ => true
  | .unsupportedRequest => true
  | .cdatRead => true
  | .mctpRequest => true
  | .bypass => true
  | .idcode => true
  | .samplePreload => true
  | .extest => true
  | .extestPulse => true
  | .extestTrain => true
  | .clamp => true
  | .highz => true
  | .dbgUnlock secret => decide (secret.length = 32)
  | .configurationRequest write _ => decide (write.all (fun v => decide (v < 2 ^ 32)))
  | .cxlMemRead _ => true
  | .cxlMemWrite _ data _ => decide (data.length = 64)
  | .birsp _ => true
  | .hostSnoop => true
  | .hdmDecoderCommit i _ _ _ _ => decide (i < 4)
  | .hdmDecoderUncommit i => decide (i < 4)
  | .ideIntegrityFailure => true
  | .cxlHotReset => true
  | .functionLevelReset => true
  | .busMasterEnable => true
  | .d3hotEnter => true
  | .d0Enter => true
  | .sqTailWrite c slot v => decide (c < 4096) && decide (slot < 64) && decide (v < 2 ^ 64)
  | .cqHeadWrite c slot v => decide (c < 4096) && decide (slot < 64) && decide (v < 2 ^ 32)
  | .registerWrite _ _ v => decide (v < 2 ^ 64)
  | .heldAccessApply => true
  | .clear => true
  | .deposit => true
  | .verify => true
  | .commit => true
  | .release => true
  | .simChunkWrite _ _ v => decide (v < 2 ^ 64)
  | .submit => true
  | .claim => true
  | .transfer => true
  | .renounce => true
  | .readImage => true
  | .readT2 => true
  | .debugToken => true
  | .respRelease => true
  | .tkmReqWrite _ _ v => decide (v < 2 ^ 64)
  | .fullScrubComplete => true
  | .enterRecovery => true
  | .fwBegin => true
  | .fwChunk _ => true
  | .fwEnd => true
  | .exitRecovery => true
  | .debugClose => true
  | .debugCountdownExpiry => true
  | .packBegin => true
  | .packChunk _ => true
  | .packRun => true
  | .packRunEnd => true
  | .testExit => true
  | .svmChunkWrite _ _ v => decide (v < 2 ^ 64)
  | .ctxCreate c => decide (c < 4096)
  | .ctxDestroy c => decide (c < 4096)
  | .rangeCreate c i => decide (c < 4096) && decide (i < 64)
  | .rangeDestroy c i => decide (c < 4096) && decide (i < 64)
  | .rangeChange c i => decide (c < 4096) && decide (i < 64)
  | .invalidate c => decide (c < 4096)
  | .resolveRetry => true
  | .resolveEnd => true
  | .winOpen c i e => decide (c < 4096) && decide (i < 64) && decide (e < 16384)
  | .winClose e => decide (e < 16384)
  | .invalidateDrainEnd => true
  | .rtbFill buf c i => decide (buf < 9) && decide (c < 4096) && decide (i < 64)
  | .deferredFaultRecord => true
  | .changeRequest n range _ va => decide (n < 64) && decide (range < 64) && decide (va < 2 ^ 64)
  | .zeroFillComplete => true
  | .qCreate c slot q => decide (c < 4096) && decide (slot < 64) && decide (q < 2 ^ 18)
  | .qDestroy q => decide (q < 2 ^ 18)
  | .close q => decide (q < 2 ^ 18)
  | .abort q => decide (q < 2 ^ 18)
  | .reopen q => decide (q < 2 ^ 18)
  | .clearOverrun q => decide (q < 2 ^ 18)
  | .ctxReset => true
  | .descriptorFetch => true
  | .queueStateRead q => decide (q < 2 ^ 18)
  | .descriptorReadReturn _ raw _ => decide (raw.length = 64)
  | .kernel _ => true
  | .chainDescriptor _ => true
  | .copy _ => true
  | .copyChunkDone _ => true
  | .collective _ => true
  | .collectiveStart _ => true
  | .phase _ => true
  | .fence _ => true
  | .wait _ => true
  | .waitReevaluate _ => true
  | .signal _ => true
  | .checkpoint _ _ => true
  | .timer _ => true
  | .completionRecordWrite q => decide (q < 2 ^ 18)
  | .cellStart _ => true
  | .splitKCombine _ => true
  | .combineDone n => decide (n < 64)
  | .moveStart c i => decide (c < 4096) && decide (i < 64)
  | .moveCopyDone c i => decide (c < 4096) && decide (i < 64)
  | .cellClose _ => true
  | .moveClose _ => true
  | .pleCntReset => true
  | .integerOp n _ _ _ _ => decide (n < 64)
  | .integerDivide n _ _ _ _ _ => decide (n < 64)
  | .branch n _ => decide (n < 64)
  | .scalarLoad n _ _ _ _ _ _ => decide (n < 64)
  | .scalarStore n _ _ _ _ _ => decide (n < 64)
  | .scalarFpOp n _ => decide (n < 64)
  | .storeDrain n => decide (n < 64)
  | .ldaqW n _ _ => decide (n < 64)
  | .ldaqD n _ _ => decide (n < 64)
  | .strlW n _ _ => decide (n < 64)
  | .strlD n _ _ => decide (n < 64)
  | .amoaddW n _ _ _ => decide (n < 64)
  | .amoaddD n _ _ _ => decide (n < 64)
  | .amoswapW n _ _ _ => decide (n < 64)
  | .amoswapD n _ _ _ => decide (n < 64)
  | .amocasW n _ _ _ => decide (n < 64)
  | .amocasD n _ _ _ => decide (n < 64)
  | .mfsr n _ _ => decide (n < 64)
  | .mtsr n _ _ => decide (n < 64)
  | .fenceLl n => decide (n < 64)
  | .fenceSs n => decide (n < 64)
  | .fenceFull n => decide (n < 64)
  | .fenceEng n => decide (n < 64)
  | .fenceDev n => decide (n < 64)
  | .isync n => decide (n < 64)
  | .xret n => decide (n < 64)
  | .halt n => decide (n < 64)
  | .exceptionTaken n _ => decide (n < 64)
  | .abortTaken n => decide (n < 64)
  | .killTaken n => decide (n < 64)
  | .pmcReset n => decide (n < 64)
  | .setvl n _ _ _ => decide (n < 64)
  | .setvli n _ _ _ => decide (n < 64)
  | .getvl n _ => decide (n < 64)
  | .vadd n _ => decide (n < 64)
  | .vsub n _ => decide (n < 64)
  | .vmul n _ => decide (n < 64)
  | .vmulh n _ => decide (n < 64)
  | .vmulhu n _ => decide (n < 64)
  | .vmin n _ => decide (n < 64)
  | .vmax n _ => decide (n < 64)
  | .vminu n _ => decide (n < 64)
  | .vmaxu n _ => decide (n < 64)
  | .vand n _ => decide (n < 64)
  | .vor n _ => decide (n < 64)
  | .vxor n _ => decide (n < 64)
  | .vsll n _ => decide (n < 64)
  | .vsrl n _ => decide (n < 64)
  | .vsra n _ => decide (n < 64)
  | .vsadd n _ => decide (n < 64)
  | .vssub n _ => decide (n < 64)
  | .vmacc n _ => decide (n < 64)
  | .vid n _ => decide (n < 64)
  | .vfadd n _ => decide (n < 64)
  | .vfsub n _ => decide (n < 64)
  | .vfmul n _ => decide (n < 64)
  | .vfdiv n _ => decide (n < 64)
  | .vfsqrt n _ => decide (n < 64)
  | .vfrec n _ => decide (n < 64)
  | .vfrsqrt n _ => decide (n < 64)
  | .vfmin n _ => decide (n < 64)
  | .vfmax n _ => decide (n < 64)
  | .vfabs n _ => decide (n < 64)
  | .vfneg n _ => decide (n < 64)
  | .vfsgnj n _ => decide (n < 64)
  | .vfma n _ => decide (n < 64)
  | .vfms n _ => decide (n < 64)
  | .vfnma n _ => decide (n < 64)
  | .vfnms n _ => decide (n < 64)
  | .vfwmul n _ => decide (n < 64)
  | .vfwma n _ => decide (n < 64)
  | .vfwadd n _ => decide (n < 64)
  | .vfwaddw n _ => decide (n < 64)
  | .vdot4I8 n _ => decide (n < 64)
  | .vdot2H n _ => decide (n < 64)
  | .vdot4E4m3 n _ => decide (n < 64)
  | .vdot4E5m2 n _ => decide (n < 64)
  | .vdot4E4e5 n _ => decide (n < 64)
  | .vcmpeq n _ => decide (n < 64)
  | .vcmpne n _ => decide (n < 64)
  | .vcmplt n _ => decide (n < 64)
  | .vcmple n _ => decide (n < 64)
  | .vcmpltu n _ => decide (n < 64)
  | .vcmpleu n _ => decide (n < 64)
  | .vfcmpeq n _ => decide (n < 64)
  | .vfcmpne n _ => decide (n < 64)
  | .vfcmplt n _ => decide (n < 64)
  | .vfcmple n _ => decide (n < 64)
  | .vfcmpun n _ => decide (n < 64)
  | .pAnd n _ => decide (n < 64)
  | .pOr n _ => decide (n < 64)
  | .pXor n _ => decide (n < 64)
  | .pAndn n _ => decide (n < 64)
  | .pNot n _ => decide (n < 64)
  | .pSet n _ => decide (n < 64)
  | .pcnt n _ => decide (n < 64)
  | .pfirst n _ => decide (n < 64)
  | .vredsum n _ => decide (n < 64)
  | .vredmin n _ => decide (n < 64)
  | .vredmax n _ => decide (n < 64)
  | .vredminu n _ => decide (n < 64)
  | .vredmaxu n _ => decide (n < 64)
  | .vfredsum n _ => decide (n < 64)
  | .vfredosum n _ => decide (n < 64)
  | .vfredmin n _ => decide (n < 64)
  | .vfredmax n _ => decide (n < 64)
  | .vscansum n _ => decide (n < 64)
  | .vscanmin n _ => decide (n < 64)
  | .vscanmax n _ => decide (n < 64)
  | .vfscansum n _ => decide (n < 64)
  | .vfscanmin n _ => decide (n < 64)
  | .vfscanmax n _ => decide (n < 64)
  | .vperm n _ => decide (n < 64)
  | .vbcaste n _ => decide (n < 64)
  | .vslidedn n _ => decide (n < 64)
  | .vslideup n _ => decide (n < 64)
  | .vrev n _ => decide (n < 64)
  | .vcompress n _ => decide (n < 64)
  | .vexpand n _ => decide (n < 64)
  | .vectorConversion n _ => decide (n < 64)
  | .vmv n _ => decide (n < 64)
  | .vbcast n _ => decide (n < 64)
  | .vgetx n _ => decide (n < 64)
  | .vgetf n _ => decide (n < 64)
  | .vput n _ => decide (n < 64)
  | .vld n _ => decide (n < 64)
  | .vldff n _ => decide (n < 64)
  | .vst n _ => decide (n < 64)
  | .vlds n _ => decide (n < 64)
  | .vldsff n _ => decide (n < 64)
  | .vgath n _ => decide (n < 64)
  | .vgathff n _ => decide (n < 64)
  | .vsts n _ => decide (n < 64)
  | .vscat n _ => decide (n < 64)
  | .mxgo n _ => decide (n < 64)
  | .mxStationaryLoad n => decide (n < 64)
  | .mxRowEnter n => decide (n < 64)
  | .mxOutputRow n => decide (n < 64)
  | .drizzleLimit n => decide (n < 64)
  | .arrayCold n => decide (n < 64)
  | .mxCancel n => decide (n < 64)
  | .mxClose n _ => decide (n < 64)
  | .mxAbort n => decide (n < 64)
  | .mxCntReset n => decide (n < 64)
  | .scload n _ _ _ => decide (n < 64)
  | .scgo n _ _ _ => decide (n < 64)
  | .heldStartBegin n _ => decide (n < 64)
  | .nop n _ => decide (n < 64)
  | .haltWord n _ => decide (n < 64)
  | .chain n _ => decide (n < 64)
  | .ldcf n _ => decide (n < 64)
  | .dma n _ => decide (n < 64)
  | .waitd n _ => decide (n < 64)
  | .waitc n _ => decide (n < 64)
  | .lds n _ => decide (n < 64)
  | .ldc n _ => decide (n < 64)
  | .addss n _ => decide (n < 64)
  | .addsn n _ => decide (n < 64)
  | .movs n _ => decide (n < 64)
  | .setlen n _ => decide (n < 64)
  | .addni n _ => decide (n < 64)
  | .loop n _ => decide (n < 64)
  | .chainBeatEnter n _ => decide (n < 64)
  | .stageWrite n _ => decide (n < 64)
  | .terminalWrite n _ => decide (n < 64)
  | .dmaTransferDone n _ _ => decide (n < 64)
  | .scClose n e _ => decide (n < 64) && decide (e < 2)
  | .scAbort n e => decide (n < 64) && decide (e < 2)
  | .scCntReset n e => decide (n < 64) && decide (e < 2)
  | .sliceRequest _ => true
  | .controllerAccept i _ => decide (i < 8)
  | .controllerReadComplete i _ _ _ => decide (i < 8)
  | .controllerWritePerformed i _ _ _ => decide (i < 8)
  | .patrolScrub i _ _ => decide (i < 8)
  | .sramUncorrectable _ => true
  | .retrain i c => decide (i < 8) && decide (c < 32)
  | .declareFailed i c => decide (i < 8) && decide (c < 32)
  | .exclude i c => decide (i < 8) && decide (c < 32)
  | .parityError i c => decide (i < 8) && decide (c < 32)
  | .periodicRetrainTurn i => decide (i < 8)
  | .retrainComplete r => decide (r.stack < 8)
  | .retrainTimeout i => decide (i < 8)
  | .exclusionSliceCopy => true
  | .importEntry e c => decide (e < 256) && decide (c < 4096)
  | .send e => decide (e < 256)
  | .discard e => decide (e < 256)
  | .ackEmptied => true
  | .twinCopyChunk _ => true
  | .twcClose _ => true
  | .twcAbort => true
  | .cleClose _ => true
  | .cleAbort => true
  | .nodeWrite v => decide (v < 2 ^ 64)
  | .groupWrite g v => decide (g < 64) && decide (v < 2 ^ 64)
  | .rankmapWrite g i v => decide (g < 64) && decide (i < 1024) && decide (v < 2 ^ 64)
  | .recheck c => decide (c < 4096)
  | .recheckRunComplete => true
  | .clearLog => true
  | .squallExit => true
  | .svpLoadStage _ _ => true
  | .fatalError _ _ => true
  | .patrolDue n => decide (n < 64)
  | .patrolTestEnd n _ => decide (n < 64)
  | .patrolDeadline n => decide (n < 64)
  | .powerStateSelect => true
  | .frostEntryComplete => true
  | .deviceWakeComplete => true
  | .islandWakeComplete i => decide (i < 18)
  | .powerMeasure _ => true
  | .capControl => true
  | .voltageSettled k => decide (k < 18)
  | .timerArm t micros => decide (t < 16) && decide (micros < 2 ^ 32)
  | .timerDisarm t => decide (t < 16)
  | .timerExpiry i => decide (i < 16)
  | .monSelWrite _ index => decide (index < 256)
  | .softReset => true
  | .warmReset => true
  | .coreReset n => decide (n < 64)
  | .partnerSignalLoss p => decide (p < 16)
  | .laneLockRegained p => decide (p < 16)
  | .linkCodewordUncorrectable p => decide (p < 16)
  | .twnHbInChange => true
  | .bootComplete => true
  | .imageChecksComplete => true
  | .requestChecksComplete => true
  | .bundleChecksComplete => true
  | .debugPortAccess _ => true
  | .doeDiscovery => true

end Sys2Proof
end

