-- ==== Sys2Proof/Tests/Slice0.lean ====
section
/-!
SUPPORT. The model's own tests: ill-formed terms that WellFormed refuses, worked examples of the spec, and for every statement of
Certificates/Slice0/Obligations.lean a `wit_` theorem that shows states and operands meeting its hypotheses.
-/
namespace Sys2Proof.Tests
open Sys2Proof Sys2Proof.Machine

/-! ## Well-formedness: a term that each check refuses, its other operands in range -/

/-- A frame header on port 0, and the operand words of vector instructions, all zero. -/
def hdr : RxHdr := ⟨0, 0, 0, true, 0⟩
def vw : VecWord := ⟨0, 0, 0, 0, false, false, false⟩
def cw : ConvWord := ⟨0, 0, 0, false, 0, false, false, 0, 0⟩
def mw : MemWord := ⟨0, 0, 0, 0, false, 0, false, false⟩

theorem test_wf_refuses_1 : ([
    .pmbAlert 18, .droop 18 0 0, .linkSignalDetect 16, .linkTrained 16 false false, .laneLockLoss 16,
    .relockTimeout 16, .portLost 16, .keepaliveSend 16, .holdLapse 16 0, .rekey 16, .frameEgress 16,
    .train { hdr with port := 16 }, .spdm { hdr with port := 16 } (.proof 0),
    .kem { hdr with port := 16 } ⟨false, [], false⟩, .keymark { hdr with port := 16 },
    .credit { hdr with port := 16 } [], .keepalive { hdr with port := 16 }, .node { hdr with port := 16 } 0,
    .cancel { hdr with port := 16 } 0 0 0 0, .cancel hdr 0 0 (2 ^ 32) 0, .cancel hdr 0 0 0 256,
    .twinState { hdr with port := 16 } false, .replay { hdr with port := 16 } 0, .replay hdr (2 ^ 32)] : List Instr).all (fun i => !i.wf) = true := by decide

theorem test_wf_refuses_2 : ([
    .winWrite { hdr with port := 16 } (zeros 16) [], .winWrite hdr [] [], .winRead { hdr with port := 16 } (zeros 16),
    .winRead hdr [], .winData { hdr with port := 16 } (zeros 16) [], .winData hdr [] [],
    .winAck { hdr with port := 16 } (zeros 16), .winAck hdr [], .partialFrame { hdr with port := 16 } (zeros 16) [],
    .partialFrame hdr [] [], .resultFrame { hdr with port := 16 } (zeros 16) [], .resultFrame hdr [] [],
    .blockFrame { hdr with port := 16 } (zeros 16) [], .blockFrame hdr [] [],
    .grantFrame { hdr with port := 16 } (zeros 16), .grantFrame hdr [],
    .receiptFrame { hdr with port := 16 } (zeros 16), .receiptFrame hdr [],
    .mirror { hdr with port := 16 } (zeros 16) [] none, .mirror hdr [] [] none,
    .mirrorAck { hdr with port := 16 } (zeros 16), .mirrorAck hdr [], .hold { hdr with port := 16 } (zeros 16),
    .hold hdr []] : List Instr).all (fun i => !i.wf) = true := by decide

theorem test_wf_refuses_3 : ([
    .lost { hdr with port := 16 } (zeros 16), .lost hdr [], .wake { hdr with port := 16 } (zeros 16), .wake hdr [],
    .wakeAck { hdr with port := 16 } (zeros 16), .wakeAck hdr [], .portRetrain 16, .lnkClose 16 false, .lnkAbort 16,
    .lnkCntReset 16, .getMeasurements 256 false, .dbgUnlock [],
    .configurationRequest (some (2 ^ 32)) 0, .cxlMemWrite 0 [] false, .hdmDecoderCommit 4 0 0 0 0,
    .hdmDecoderUncommit 4, .sqTailWrite 4096 0 0, .sqTailWrite 0 64 0, .sqTailWrite 0 0 (2 ^ 64),
    .cqHeadWrite 4096 0 0, .cqHeadWrite 0 64 0, .cqHeadWrite 0 0 (2 ^ 32), .registerWrite ⟨0, 0⟩ 0 (2 ^ 64)] : List Instr).all (fun i => !i.wf) = true := by decide

theorem test_wf_refuses_4 : ([
    .simChunkWrite 0 0 (2 ^ 64), .tkmReqWrite 0 0 (2 ^ 64), .svmChunkWrite 0 0 (2 ^ 64), .ctxCreate 4096,
    .ctxDestroy 4096, .rangeCreate 4096 0, .rangeCreate 0 64, .rangeDestroy 4096 0, .rangeDestroy 0 64,
    .rangeChange 4096 0, .rangeChange 0 64, .invalidate 4096, .winOpen 4096 0 0, .winOpen 0 64 0, .winOpen 0 0 16384,
    .winClose 16384, .rtbFill 9 0 0, .rtbFill 0 4096 0, .rtbFill 0 0 64, .changeRequest 64 0 0 0,
    .changeRequest 0 64 0 0, .changeRequest 0 0 0 (2 ^ 64), .qCreate 4096 0 0, .qCreate 0 64 0] : List Instr).all (fun i => !i.wf) = true := by decide

theorem test_wf_refuses_5 : ([
    .qCreate 0 0 (2 ^ 18), .qDestroy (2 ^ 18), .close (2 ^ 18), .abort (2 ^ 18), .reopen (2 ^ 18),
    .clearOverrun (2 ^ 18), .queueStateRead (2 ^ 18), .descriptorReadReturn 0 [] false,
    .completionRecordWrite (2 ^ 18), .combineDone 64, .moveStart 4096 0, .moveStart 0 64, .moveCopyDone 4096 0,
    .moveCopyDone 0 64, .integerOp 64 .add 0 0 (.reg 0), .integerDivide 64 false false 0 0 (.reg 0),
    .branch 64 (.jump 0 0), .scalarLoad 64 0 false false 0 0 0, .scalarStore 64 0 false 0 0 0,
    .scalarFpOp 64 (.compare .lt false 0 0 0), .storeDrain 64, .ldaqW 64 0 0, .ldaqD 64 0 0, .strlW 64 0 0] : List Instr).all (fun i => !i.wf) = true := by decide

theorem test_wf_refuses_6 : ([
    .strlD 64 0 0, .amoaddW 64 0 0 0, .amoaddD 64 0 0 0, .amoswapW 64 0 0 0, .amoswapD 64 0 0 0, .amocasW 64 0 0 0,
    .amocasD 64 0 0 0, .mfsr 64 0 0, .mtsr 64 0 0, .fenceLl 64, .fenceSs 64, .fenceFull 64, .fenceEng 64, .fenceDev 64,
    .isync 64, .xret 64, .halt 64, .exceptionTaken 64 .illegal, .abortTaken 64, .killTaken 64, .pmcReset 64,
    .setvl 64 0 0 0, .setvli 64 0 0 0, .getvl 64 0] : List Instr).all (fun i => !i.wf) = true := by decide

theorem test_wf_refuses_7 : ([
    .vadd 64 vw, .vsub 64 vw, .vmul 64 vw, .vmulh 64 vw, .vmulhu 64 vw, .vmin 64 vw, .vmax 64 vw, .vminu 64 vw,
    .vmaxu 64 vw, .vand 64 vw, .vor 64 vw, .vxor 64 vw, .vsll 64 vw, .vsrl 64 vw, .vsra 64 vw, .vsadd 64 vw,
    .vssub 64 vw, .vmacc 64 vw, .vid 64 vw, .vfadd 64 vw, .vfsub 64 vw, .vfmul 64 vw, .vfdiv 64 vw, .vfsqrt 64 vw] : List Instr).all (fun i => !i.wf) = true := by decide

theorem test_wf_refuses_8 : ([
    .vfrec 64 vw, .vfrsqrt 64 vw, .vfmin 64 vw, .vfmax 64 vw, .vfabs 64 vw, .vfneg 64 vw, .vfsgnj 64 vw, .vfma 64 vw,
    .vfms 64 vw, .vfnma 64 vw, .vfnms 64 vw, .vfwmul 64 vw, .vfwma 64 vw, .vfwadd 64 vw, .vfwaddw 64 vw,
    .vdot4I8 64 vw, .vdot2H 64 vw, .vdot4E4m3 64 vw, .vdot4E5m2 64 vw, .vdot4E4e5 64 vw, .vcmpeq 64 vw, .vcmpne 64 vw,
    .vcmplt 64 vw, .vcmple 64 vw] : List Instr).all (fun i => !i.wf) = true := by decide

theorem test_wf_refuses_9 : ([
    .vcmpltu 64 vw, .vcmpleu 64 vw, .vfcmpeq 64 vw, .vfcmpne 64 vw, .vfcmplt 64 vw, .vfcmple 64 vw, .vfcmpun 64 vw,
    .pAnd 64 vw, .pOr 64 vw, .pXor 64 vw, .pAndn 64 vw, .pNot 64 vw, .pSet 64 vw, .pcnt 64 vw, .pfirst 64 vw,
    .vredsum 64 vw, .vredmin 64 vw, .vredmax 64 vw, .vredminu 64 vw, .vredmaxu 64 vw, .vfredsum 64 vw,
    .vfredosum 64 vw, .vfredmin 64 vw, .vfredmax 64 vw] : List Instr).all (fun i => !i.wf) = true := by decide

theorem test_wf_refuses_10 : ([
    .vscansum 64 vw, .vscanmin 64 vw, .vscanmax 64 vw, .vfscansum 64 vw, .vfscanmin 64 vw, .vfscanmax 64 vw,
    .vperm 64 vw, .vbcaste 64 vw, .vslidedn 64 vw, .vslideup 64 vw, .vrev 64 vw, .vcompress 64 vw, .vexpand 64 vw,
    .vectorConversion 64 cw, .vmv 64 vw, .vbcast 64 vw, .vgetx 64 vw, .vgetf 64 vw, .vput 64 vw, .vld 64 mw,
    .vldff 64 mw, .vst 64 mw, .vlds 64 mw, .vldsff 64 mw] : List Instr).all (fun i => !i.wf) = true := by decide

theorem test_wf_refuses_11 : ([
    .vgath 64 mw, .vgathff 64 mw, .vsts 64 mw, .vscat 64 mw, .mxgo 64 0, .mxStationaryLoad 64, .mxRowEnter 64,
    .mxOutputRow 64, .drizzleLimit 64, .arrayCold 64, .mxCancel 64, .mxClose 64 false, .mxAbort 64, .mxCntReset 64,
    .scload 64 false 0 0, .scgo 64 false 0 0, .heldStartBegin 64 false, .nop 64 false, .haltWord 64 false,
    .chain 64 false, .ldcf 64 false, .dma 64 false, .waitd 64 false, .waitc 64 false] : List Instr).all (fun i => !i.wf) = true := by decide

theorem test_wf_refuses_12 : ([
    .lds 64 false, .ldc 64 false, .addss 64 false, .addsn 64 false, .movs 64 false, .setlen 64 false, .addni 64 false,
    .loop 64 false, .chainBeatEnter 64 false, .stageWrite 64 false, .terminalWrite 64 false,
    .dmaTransferDone 64 false 0, .scClose 64 0 false, .scClose 0 2 false, .scAbort 64 0, .scAbort 0 2,
    .scCntReset 64 0, .scCntReset 0 2, .controllerAccept 8 false, .controllerReadComplete 8 false 0 [],
    .controllerWritePerformed 8 false 0 [], .patrolScrub 8 [] [], .retrain 8 0, .retrain 0 32] : List Instr).all (fun i => !i.wf) = true := by decide

theorem test_wf_refuses_13 : ([
    .declareFailed 8 0, .declareFailed 0 32, .exclude 8 0, .exclude 0 32, .parityError 8 0, .parityError 0 32,
    .periodicRetrainTurn 8, .retrainComplete ⟨8, []⟩, .retrainTimeout 8, .importEntry 256 0, .importEntry 0 4096,
    .send 256, .discard 256, .nodeWrite (2 ^ 64), .groupWrite 64 0, .groupWrite 0 (2 ^ 64), .rankmapWrite 64 0 0,
    .rankmapWrite 0 1024 0, .rankmapWrite 0 0 (2 ^ 64), .recheck 4096, .patrolDue 64, .patrolTestEnd 64 false,
    .patrolDeadline 64, .islandWakeComplete 18] : List Instr).all (fun i => !i.wf) = true := by decide

theorem test_wf_refuses_14 : ([
    .voltageSettled 18, .timerArm 16 0, .timerArm 0 (2 ^ 32), .timerDisarm 16, .timerExpiry 16, .monSelWrite 0 256,
    .coreReset 64, .partnerSignalLoss 16, .laneLockRegained 16, .linkCodewordUncorrectable 16] : List Instr).all (fun i => !i.wf) = true := by decide


/-! ## States that the tests start from -/

/-- A core that runs a test pack (R469) at Job level. -/
def packCore : Core := { Core.reset with run := .running, work := .pack, pc := 0x100000000, ctxValid := true }

/-- The machine after reset, but for core 0. -/
def pk (c : Core) : State := { State.reset with cores := c :: List.replicate 63 Core.reset }

theorem pk_issues_4 : (pk packCore).issues 0 4 := by
  refine ⟨by decide, by decide, by decide, by decide, by decide, by decide, by decide, by decide, by decide, by decide,
    .inr ⟨_, rfl, by decide, .inl (by decide)⟩⟩

theorem pk_issues_8 : (pk packCore).issues 0 8 := by
  refine ⟨by decide, by decide, by decide, by decide, by decide, by decide, by decide, by decide, by decide, by decide,
    .inr ⟨_, rfl, by decide, .inl (by decide)⟩⟩

/-- The machine after reset, in another state of its lifecycle. -/
def inLife (l : Life) : State := { State.reset with dev := { State.reset.dev with life := l } }

/-- Whether a command answers a next state that meets a test. -/
def gives (o : Host.Outcome State Fault Refusal) (p : State → Bool) : Bool :=
  match o with
  | .next t => p t
  | _ => false


/-- The reset slices hold no line of the host. -/
theorem pk_unheld (c : Core) : (pk c).unheld := fun _ => rfl

/-- The channels as they are after reset, and no sector marked, leave every address sound. -/
theorem sound_of (s : State) (hm : s.mcu = State.reset.mcu) (hp : s.dram.poison = []) (hl : s.dram.lost = []) (a : Nat) : s.sound a := by
  have h : ∀ i, (s.chan i).st = .ready := by
    intro i
    rw [State.chan, hm]
    have e : ∀ r < 32, (Mcu.reset.ch.getD r Chan.reset).st = .ready := by decide
    by_cases h8 : i / 32 < 8
    · rw [show State.reset.mcu = List.replicate 8 Mcu.reset from rfl, List.getElem?_replicate, if_pos h8]
      exact e _ (Nat.mod_lt _ (by decide))
    · rw [show State.reset.mcu = List.replicate 8 Mcu.reset from rfl, List.getElem?_replicate, if_neg h8]
      rfl
  refine ⟨?_, by rw [hp]; rfl, by rw [hl]; rfl⟩
  simp [State.chanDead, h]

/-! ## Chapters 1 to 4: witnesses of the hypotheses, and small tests -/

theorem wit_StepRunsFront :
    ({ State.reset with pending := [.idcode, .bypass] } : State).pending = .idcode :: [.bypass] ∧ State.reset.pending = [] := ⟨rfl, rfl⟩

theorem wit_StepInvariant :
    Mem.wf State.reset.dram.bytes = true ∧ State.reset.cores.length = 64 ∧ State.reset.mcu.length = 8
      ∧ State.reset.ports.length = 16 ∧ State.reset.pcm.islands.length = 18 ∧ State.reset.flt.patrol.length = 64
      ∧ ∃ t, step { State.reset with pending := [.idcode] } = .next t :=
  ⟨by decide, by decide, by decide, by decide, by decide, by decide, _, rfl⟩

/-- UNCLAIMED, with a deposit of LENGTH bytes at OFFSET asked for. -/
def deposits (l : Life) (len off : Nat) : State :=
  { inLife l with sim := { State.reset.sim with chunkLen := len, chunkOff := off, chunk := [(0, 7)] } }

theorem wit_SimStaging :
    (∀ x ∈ [(Life.unclaimed, 64, 65472), (.held, 4096, 61440), (.service, 64, 0), (.held, 4160, 0), (.unclaimed, 64, 65473),
        (.service, 4096, 61504)],
      let s := deposits x.1 x.2.1 x.2.2
      s.serves .sim ∧ s.settled ∧ Mem.wf s.sim.staging = true ∧ Mem.wf s.sim.chunk = true ∧ s.sim.cmd.busy = false)
    ∧ (64 ≤ 4096 ∧ 4096 % 64 = 0 ∧ 61440 % 64 = 0 ∧ 61440 + 4096 ≤ 65536) ∧ ¬(61504 + 4096 ≤ 65536) ∧ 65473 % 64 ≠ 0
    ∧ 0xFF8 < 0x1000 ∧ 0xFF8 % 8 = 0 := by
  refine ⟨?_, by decide⟩
  simp only [State.serves, State.settled]; decide

/-- R41, Table 6 of 02: the last granule takes a deposit; one past the staging SRAM is BAD_CHUNK. -/
theorem test_deposit : gives (exec .deposit (deposits .unclaimed 64 65472))
      (fun t => decide (t.sim.present = [1023]) && decide (Mem.read t.sim.staging 65472 = 7) && decide (t.sim.cmd.code = 0)) = true
    ∧ gives (exec .deposit (deposits .unclaimed 128 65472))
      (fun t => decide (t.sim.present = []) && decide (t.sim.cmd.code = 0x12)) = true := by decide

/-- SERVICE or HELD, with the SIM running a command. -/
def simRuns (l : Life) (r : Option SimRun) : State := { inLife l with sim := { State.reset.sim with run := r } }

/-- SERVICE, with a move begun or not. -/
def moving (b : Bool) : State :=
  { inLife .service with ple := { State.reset.ple with moves := [⟨0, 0, 0, 0, 0, b, []⟩] } }

theorem wit_SimVerifyCommitRelease :
    (∀ s ∈ [inLife .unclaimed, inLife .held, inLife .service, moving true],
      s.serves .sim ∧ s.settled ∧ s.sim.cmd.busy = false)
    ∧ (∃ m ∈ (moving true).ple.moves, m.started = true)
    ∧ ((inLife .service).qmg.descs = [] ∧ ∀ m ∈ (inLife .service).ple.moves, m.started = false)
    ∧ (simRuns .held (some .verify)).sim.run = some .verify
    ∧ ((simRuns .held (some .commit)).sim.run = some .commit ∧ (simRuns .held (some .commit)).simCheck = .bad 1 0 0)
    ∧ ((simRuns .test (some .release)).sim.run = some .release ∧ (simRuns .test (some .release)).dev.life = .test
      ∧ (simRuns .test (some .release)).svm.packRun = none) := by
  simp only [State.serves, State.settled]; decide

/-! A structure image of the six required sections, for the owner role, with the key of no bytes. -/

/-- Bytes 0 to 0x3F of the image: its header (Table 1 of 02). -/
def imgHead : List Byte :=
  leBytes 4 0x41525051 ++ leBytes 2 1 ++ leBytes 2 64 ++ leBytes 2 0x7A21 ++ leBytes 2 0x0100 ++ [2, 6] ++ zeros 2 ++ leBytes 4 0
    ++ leBytes 4 368 ++ leBytes 8 5 ++ leBytes 4 5059 ++ zeros 4 ++ keyId [] ++ zeros 8

/-- The section table and the sections GANG, STORE, PORT, TWIN, POWER and CTX. -/
def imgBody : List Byte :=
  let e := fun (t o n : Nat) => leBytes 2 t ++ leBytes 2 1 ++ leBytes 4 o ++ leBytes 4 n ++ zeros 4
  e 1 160 8 ++ e 2 168 64 ++ e 6 232 16 ++ e 7 248 40 ++ e 8 288 72 ++ e 9 360 8
    ++ List.replicate 8 1 ++ List.replicate 64 4 ++ zeros 16
    ++ ([2, 0, 0, 0, 0, 0, 0, 0] ++ identity)
    ++ (leBytes 2 1200 ++ zeros 6 ++ (List.replicate 8 (leBytes 2 400 ++ leBytes 2 2100 ++ leBytes 2 850 ++ zeros 2)).flatten)
    ++ (leBytes 2 16 ++ [8, 16] ++ leBytes 4 64)

/-- The digest and a signature of zeros. -/
def imgTail : List Byte := digestBytes (Config.sha3 (imgHead ++ imgBody)) ++ zeros 4627

/-- HELD with the empty key, the image staged. -/
def imgState : State :=
  { State.reset with
    dev := { State.reset.dev with life := .held, coreAvail := BitVec.allOnes 64 }
    tkm := { State.reset.tkm with ownerKey := some [] }
    sim := { State.reset.sim with run := some .commit, present := List.range 80
                                  staging := Mem.writeBytes [] 0 (imgHead ++ imgBody ++ imgTail) } }

def img : List Byte := imgHead ++ imgBody ++ imgTail

set_option maxRecDepth 20000 in
theorem img_length : img.length = 5059 := by
  simp only [img, imgTail, List.length_append, zeros, List.length_replicate]
  have a : imgHead.length = 64 := rfl
  have b : imgBody.length = 304 := rfl
  have c : ∀ d, (digestBytes d).length = 64 := fun _ => rfl
  rw [a, b, c]

set_option maxRecDepth 20000 in
theorem img_staged (n : Nat) (h : n ≤ img.length) : imgState.staged 0 n = img.take n := by
  have e : imgState.sim.staging = Mem.writeBytes [] 0 img := by simp only [imgState, img]
  rw [State.staged, e, Mem.readBytes_writeBytes _ _ _ _ rfl h]

set_option maxRecDepth 20000 in
/-- R34 to R39, R45, R46: an image that meets every rule passes when its signature verifies. -/
theorem wit_simCheck_ok (h : Config.mldsaVerify [] (digestBytes (Config.sha3 (imgHead ++ imgBody))) (zeros 4627) = true) :
    ∃ i, imgState.simCheck = .ok i ∧ i.seq = 5 ∧ i.gang = List.replicate 8 1 ∧ i.capW = 1200 := by
  have hi : img = imgHead ++ (imgBody ++ imgTail) := by rw [img, List.append_assoc]
  have h0 : imgState.staged 0 64 = imgHead := by
    rw [img_staged _ (by rw [img_length] <;> decide), hi, ← show imgHead.length = 64 from rfl, List.take_left]
  have h1 : imgState.staged 0 5059 = img := by
    rw [img_staged _ (by rw [img_length] <;> omega), ← img_length, List.take_length]
  have h2 : img.take 368 = imgHead ++ imgBody := by
    rw [img, ← show (imgHead ++ imgBody).length = 368 from rfl, List.take_left]
  have h3 : sliceAt img 368 64 = digestBytes (Config.sha3 (imgHead ++ imgBody)) := rfl
  have h4 : sliceAt img 432 4627 = zeros 4627 := by
    have e : img = (imgHead ++ imgBody ++ digestBytes (Config.sha3 (imgHead ++ imgBody))) ++ zeros 4627 := by
      simp only [img, imgTail, List.append_assoc]
    have l : (imgHead ++ imgBody ++ digestBytes (Config.sha3 (imgHead ++ imgBody))).length = 432 := rfl
    rw [sliceAt, e, ← l, List.drop_left, List.take_of_length_le (by rw [zeros, List.length_replicate] <;> exact Nat.le_refl _)]
  have h5 : sliceAt img 0x28 16 = keyId [] := rfl
  let es := (List.range 6).map (secEnt img)
  have hw : (imageOf img es 368 5059).waiver = leNat identity := rfl
  have hs : imgState.seqOk false 5 (BitVec.ofNat 512 (leNat (digestBytes (Config.sha3 (imgHead ++ imgBody))))) = true := by
    simp [State.seqOk, imgState, State.reset, Sim.reset]
  have hn : imgState.inconsistent (imageOf img es 368 5059) = none := by
    rw [State.inconsistent, hw]
    simp only [show (imageOf img es 368 5059).paired = false from rfl, show (imageOf img es 368 5059).mirrorGib = 0 from rfl,
      show (imageOf img es 368 5059).vendor = false from rfl, show (imageOf img es 368 5059).spares = [0, 0, 0, 0, 0, 0, 0, 2] from rfl,
      show (imageOf img es 368 5059).gang = List.replicate 8 1 from rfl, show (imageOf img es 368 5059).spad = List.replicate 64 4 from rfl,
      show (imageOf img es 368 5059).role = List.replicate 16 0 from rfl, ne_eq, not_true, decide_false]
    decide
  refine ⟨imageOf img es 368 5059, ?_, rfl, rfl, rfl⟩
  rw [State.simCheck, h0]
  simp only [show leAt imgHead 0x14 4 = 368 from rfl, show leAt imgHead 0x20 4 = 5059 from rfl, show leAt imgHead 0x0D 1 = 6 from rfl,
    show leAt imgHead 0x0C 1 = 2 from rfl, h1, h2, h3]
  rw [if_neg (by decide), show imgState.roleKey (decide ((2 : Nat) = 1)) = some [] from rfl]
  simp only [Nat.reduceAdd, h4, h5, h, ne_eq, not_true, decide_false, Bool.not_true, Bool.or_false,
    show decide ((2 : Nat) = 1) = false from rfl, show leAt img 24 8 = 5 from rfl, hs,
    show tableBad 6 368 (List.map (secEnt img) (List.range 6)) = none from rfl,
    show fieldBad img (List.map (secEnt img) (List.range 6)) = none from rfl, hn, es]
  rfl

theorem wit_SequenceRule (h : Config.mldsaVerify [] (digestBytes (Config.sha3 (imgHead ++ imgBody))) (zeros 4627) = true) :
    ∃ i, imgState.simCheck = .ok i :=
  let ⟨i, hi, _⟩ := wit_simCheck_ok h
  ⟨i, hi⟩


theorem wit_SimVerifyCommitRelease_ok (h : Config.mldsaVerify [] (digestBytes (Config.sha3 (imgHead ++ imgBody))) (zeros 4627) = true) :
    imgState.sim.run = some .commit ∧ ∃ i, imgState.simCheck = .ok i := by
  obtain ⟨i, hi, _⟩ := wit_simCheck_ok h
  exact ⟨rfl, i, hi⟩

/-! Requests of the owner. -/

/-- A request of type `ty` with LENGTH `len` and COUNTER 1. -/
def ask (ty len : Nat) (rest : List Byte) : List Byte :=
  leBytes 4 0x4E574F51 ++ leBytes 2 ty ++ zeros 2 ++ leBytes 4 len ++ zeros 4 ++ leBytes 8 1 ++ zeros 8 ++ identity ++ rest

/-- HELD or SERVICE with the empty owner key and a request whose checks run. -/
def asked (l : Life) (r : List Byte) : State :=
  { inLife l with tkm := { State.reset.tkm with ownerKey := some [], checking := some r } }

/-- A debug token: 60 s, scope 3. -/
def token : List Byte := leBytes 4 60 ++ leBytes 4 3 ++ zeros 72

theorem wit_TkmCommands :
    (∀ s ∈ [inLife .held, { inLife .held with tkm := { State.reset.tkm with cmd := ⟨true, false, false, 1, 0⟩ } }],
      s.serves .tkm ∧ Mem.wf s.tkm.req = true)
    ∧ (inLife .held).tkm.cmd.busy = false
    ∧ ({ inLife .held with tkm := { State.reset.tkm with cmd := ⟨true, false, false, 1, 0⟩ } } : State).tkm.cmd.busy = true
    ∧ (∀ ty ∈ [1, 2, 3, 4, 5, 6], Mem.readLe [(4, BitVec.ofNat 8 ty)] 4 2 = ty)
    ∧ leAt ((inLife .held).tkm.req.readBytes 0 4) 0 4 ≠ 0x4E574F51 ∧ 0x1FF8 < 0x2000 ∧ 0x1FF8 % 8 = 0 := by
  simp only [State.serves]; decide

theorem askCode (s : State) (r : List Byte) (h0 : s.tkm.ownerKey = some []) (h1 : s.reqEarly r = 0)
    (h2 : leAt r 4 2 ≠ 1) (h3 : s.tkm.ownerCtr < leAt r 0x10 8) (h4 : s.tkm.resp = [])
    (h : Config.mldsaVerify [] (digestBytes (Config.sha3 (r.take (leAt r 8 4)))) (sliceAt r (leAt r 8 4) 4627) = true) :
    s.reqCode r = 0 := by
  have h5 : ¬leAt r 0x10 8 ≤ s.tkm.ownerCtr := by omega
  simp [State.reqCode, h0, h1, h2, h4, h, h5, firstCode]

theorem wit_RequestChecks_fails : (asked .held []).tkm.checking = some [] ∧ (asked .held []).tkm.scrubActive = false
    ∧ (asked .held []).reqCode [] = 1 := by decide

/-- R66: what the request checks accept where the opaque signature and key checks accept (notes/assumptions/1.md). -/
theorem wit_RequestChecks (hv : ∀ k d g, Config.mldsaVerify k d g = true) (hk : ∀ k, Config.mldsaKeyOk k = true)
    (hq : ∀ k, Config.kemKeyOk k = true) (hd : Config.debugDisable = false) :
    (asked .unclaimed (ask 1 2656 [])).reqCode (ask 1 2656 []) = 0 ∧ (asked .held (ask 2 2656 [])).reqCode (ask 2 2656 []) = 0
    ∧ (asked .held (ask 3 64 [])).reqCode (ask 3 64 []) = 0 ∧ (asked .service (ask 4 1632 [])).reqCode (ask 4 1632 []) = 0
    ∧ (asked .held (ask 5 1632 [])).reqCode (ask 5 1632 []) = 0 ∧ (asked .held (ask 6 144 token)).reqCode (ask 6 144 token) = 0 := by
  have e : ∀ (ty len : Nat) (x : List Byte), sliceAt (ask ty len x) 0x20 32 = identity := fun _ _ _ => rfl
  refine ⟨?_, askCode _ _ rfl ?_ (by decide) (by decide) rfl (hv _ _ _), askCode _ _ rfl ?_ (by decide) (by decide) rfl (hv _ _ _),
    askCode _ _ rfl ?_ (by decide) (by decide) rfl (hv _ _ _), askCode _ _ rfl ?_ (by decide) (by decide) rfl (hv _ _ _),
    askCode _ _ rfl ?_ (by decide) (by decide) rfl (hv _ _ _)⟩
  · have h1 : (asked .unclaimed (ask 1 2656 [])).reqEarly (ask 1 2656 []) = 0 := by
      rw [State.reqEarly, e]; simp only [hk, ne_eq, not_true, decide_false]; decide
    simp [State.reqCode, h1, hv, firstCode, show leAt (ask 1 2656 []) 4 2 = 1 from rfl, show leAt (ask 1 2656 []) 0x10 8 = 1 from rfl]
  all_goals rw [State.reqEarly, e]; simp only [hk, hq, ne_eq, not_true, decide_false, State.reqPermits, hd]; decide

/-- A device whose full scrub runs for a pending record. -/
def scrubs (l : Life) (p : PendRec) : State :=
  { inLife l with tkm := { State.reset.tkm with scrubActive := true, pending := some p } }

theorem wit_FullScrub : ∀ p, (scrubs .recovery p).tkm.scrubActive = true ∧ (scrubs .recovery p).tkm.pending = some p
    ∧ (scrubs .recovery p).dev.life = .recovery := fun _ => ⟨rfl, rfl, rfl⟩

/-- R79: the change that a full scrub guards happens at its end: RENOUNCE leaves no owner key, UNCLAIMED. -/
theorem test_renounce : gives (exec .fullScrubComplete { scrubs .recovery .renounce with
      tkm := { (scrubs .recovery .renounce).tkm with ownerKey := some [9], ownerCtr := 4 } })
    (fun t => decide (t.tkm.ownerKey = none) && decide (t.tkm.ownerCtr = 0) && decide (t.dev.life = .unclaimed)) = true := by decide

/-- A debug session that counts wrong secrets. -/
def session (h : Digest) (wrong : Nat) : DbgSession := ⟨60000000, 3, h, wrong, 0⟩

def debugs (l : Life) (d : DbgSession) : State :=
  { inLife l with
    dev := { State.reset.dev with life := l, dbgOpen := true }
    svm := { State.reset.svm with dbg := some d }
    tkm := { State.reset.tkm with pending := some .session } }

theorem wit_DebugSession : (∀ d ∈ [session (Config.sha3 []) 0, session (~~~Config.sha3 []) 6, session (~~~Config.sha3 []) 7],
      let s := debugs .held d
      s.svm.dbg = some d ∧ s.serves .svm ∧ s.svm.cmd.busy = false ∧ s.tkm.pending = some .session ∧ s.dev.life ≠ .off)
    ∧ Config.sha3 [] = (session (Config.sha3 []) 0).secretHash ∧ Config.sha3 [] ≠ (session (~~~Config.sha3 []) 6).secretHash := by
  refine ⟨?_, rfl, ?_⟩
  · simp only [State.serves, List.forall_mem_cons]
    exact ⟨⟨rfl, by decide, rfl, rfl, by decide⟩, ⟨rfl, by decide, rfl, rfl, by decide⟩, ⟨rfl, by decide, rfl, rfl, by decide⟩,
      fun _ h => nomatch h⟩
  · intro h
    have := congrArg (·.getLsbD 0) h
    simp [session] at this

theorem wit_DebugSession_end :
    let s := debugs .held (session 0 0)
    s.now < (session 0 0).endsAt ∧ (session 0 0).endsAt ≤ ({ s with now := 60000000 } : State).now := by decide

/-- RECOVERY with a bundle begun and FW_FILL at a value. -/
def firmware (fill : Nat) : State :=
  { inLife .recovery with svm := { State.reset.svm with
      banks := [⟨true, []⟩, ⟨false, []⟩], fwBegun := true, fill := fill, chunk := [(0, 5)] } }

theorem wit_FirmwareUpdate : (∀ s ∈ [inLife .unclaimed, inLife .held, firmware 0, firmware 4194304],
      s.svm.banks.length = 2 ∧ s.svm.bank < 2 ∧ s.serves .svm ∧ s.svm.cmd.busy = false ∧ s.tkm.pending = none)
    ∧ ((firmware 0).svm.fwBegun = true ∧ Mem.wf ((firmware 0).svm.bankMem 1) = true ∧ Mem.wf (firmware 0).svm.chunk = true)
    ∧ (4194304 < (firmware 4194304).svm.fill + 64 ∧ (firmware 0).svm.fill + 4096 ≤ 4194304 ∧ 63 < 64 ∧ 100 % 64 ≠ 0)
    ∧ ({ firmware 64 with svm := { (firmware 64).svm with run := some .fwEnd } } : State).svm.run = some .fwEnd := by
  simp only [State.serves]; decide

/-- R108: a chunk lies where FW_FILL stood; one that passes 4 MiB is OVERRUN. -/
theorem test_fwChunk : gives (exec (.fwChunk 64) (firmware 128))
      (fun t => decide (t.svm.fill = 192) && decide (Mem.read (t.svm.bankMem 1) 128 = 5) && decide (t.svm.cmd.code = 0)) = true
    ∧ gives (exec (.fwChunk 128) (firmware 4194240)) (fun t => decide (t.svm.cmd.code = 3) && decide (t.svm.fill = 4194240)) = true := by
  decide

theorem wit_TapInstructions : (inLife .service).dev.life ≠ .off ∧ State.reset.dev.life ≠ .off := by decide

/-- R110: EXTEST loads as BYPASS in SERVICE. -/
theorem test_extest : gives (exec .extest (inLife .service)) (fun t => decide (t.tap.ir = .bypass)) = true
    ∧ gives (exec .extest (inLife .held)) (fun t => decide (t.tap.ir = .extest)) = true := by decide

/-- HELD with the alias secret key or without, and a session. -/
def spdmState (k : Option (List Byte)) : State :=
  { inLife .held with svm := { State.reset.svm with aliasSeed := k }, spdm := { State.reset.spdm with sessions := [⟨0, false, 0⟩] } }

theorem wit_SpdmResponder : (∀ k ∈ [some [], none], (spdmState k).configured = true ∧ (spdmState k).romOnly = false
      ∧ (spdmState k).svm.aliasSeed = k ∧ ⟨0, false, 0⟩ ∈ (spdmState k).spdm.sessions)
    ∧ ({ inLife .recovery with dev := { (inLife .recovery).dev with romRecovery := true } } : State).romOnly = true
    ∧ ({ inLife .recovery with dev := { (inLife .recovery).dev with romRecovery := true } } : State).configured = true := by decide

/-! ## Chapters 6 and 7: cores. The core runs a test pack, whose area is readable and writable (R469) -/

/-- The core with a g register set. -/
def pkG (r : Nat) (v : Word) : Core := { packCore with g := (List.replicate 32 0).set r v }

/-- Core 0 with g1 at the foot of the readable area, g2 and g3 set, and a store of two bytes that waits. -/
def loadCore : Core :=
  { packCore with g := (((List.replicate 32 0).set 1 0x200000000).set 2 0x1122334455667788).set 3 5
                  sb := [⟨0x200000001, 2, [(0x1010001, 0xAA), (0x1010002, 0xBB)], false⟩] }

theorem wit_ScalarCompute : (pk packCore).issues 0 4
    ∧ (∃ a b, NumFmt.ofCode (1 : BitVec 4).toNat = some a ∧ NumFmt.ofCode (10 : BitVec 4).toNat = some b ∧ convPairOk a b = true)
    ∧ (∀ a b, NumFmt.ofCode (0 : BitVec 4).toNat = some a → NumFmt.ofCode (15 : BitVec 4).toNat = some b → convPairOk a b = false) :=
  ⟨pk_issues_4, ⟨_, _, rfl, rfl, rfl⟩, fun _ _ _ h => nomatch h⟩

theorem loadCore_issues : (pk loadCore).issues 0 4 := by
  refine ⟨by decide, by decide, by decide, by decide, by decide, by decide, by decide, by decide, by decide, by decide,
    .inr ⟨_, rfl, by decide, .inl (by decide)⟩⟩

theorem wit_ScalarMemory : (pk loadCore).issues 0 4 ∧ (pk loadCore).unheld ∧ (pk loadCore).sbOk 0 ∧ (pk packCore).sbOk 0
    ∧ ((pk packCore).core 0).sb = [] ∧ (∃ e r, ((pk loadCore).core 0).sb = e :: r)
    ∧ (∃ pas q, (pk loadCore).coreXlate 0 .read (vAddrs 0x200000000 8) = .ok pas ∧ (∀ a ∈ pas, (pk loadCore).sound a)
      ∧ (pk loadCore).coreXlate 0 .write (vAddrs 0x200000000 8) = .ok q ∧ pas.Nodup ∧ q.Nodup)
    ∧ (∃ pas, (pk loadCore).coreXlate 0 .write (vAddrs 0x23FFEFFFF 1) = .ok pas ∧ pas.Nodup)
    ∧ ((pk loadCore).core 0).rg 1 = 0x200000000 ∧ (((pk loadCore).core 0).rg 3).toNat % 4 ≠ 0 := by
  refine ⟨loadCore_issues, pk_unheld _, ⟨by decide, by decide⟩, ⟨by decide, by decide⟩, by decide, ⟨_, _, rfl⟩,
    ⟨_, _, rfl, by simp only [State.sound]; decide, rfl, by decide, by decide⟩, ⟨_, rfl, by decide⟩, by decide, by decide⟩

/-- A machine whose oldest store meets a line that the host holds. -/
def heldStore : State :=
  { pk loadCore with
    dram := { State.reset.dram with dir := [(0x10100, ⟨false, 0, true⟩)] }
    host := { State.reset.host with hdm := [⟨true, false, 0, 0x40000000, 0, 0⟩], bisnp := [0] } }

theorem wit_ScalarMemory_held : heldStore.sbOk 0 ∧ (heldStore.core 0).sb ≠ [] ∧ heldStore.host.bisnp ≠ []
    ∧ heldStore.heldLines (heldStore.coreWaits [0x1010001, 0x1010002]) = [0x10100]
    ∧ (pk loadCore).heldLines ((pk loadCore).coreWaits [0x1010001, 0x1010002]) = []
    ∧ (∀ va len, (pk loadCore).entriesSound 0 (vAddrs va len)) :=
  ⟨⟨by decide, by decide⟩, by decide, by decide, by decide, by decide, fun _ _ => .inl (by decide)⟩

/-- The core at Steward level. -/
def stewCore : Core := { packCore with steward := true }

/-- A job of a chain engine that runs on core 0's machine. -/
def busyCore : Core := { packCore with sce := [{ Sce.reset with run := .running }, Sce.reset] }

theorem wit_SystemRegisters : (pk packCore).issues 0 4 ∧ (pk stewCore).issues 0 4 ∧ (pk packCore).sbOk 0
    ∧ ((pk stewCore).core 0).steward = true ∧ ((pk packCore).core 0).steward = false
    ∧ (pk packCore).unitsIdle 0 ∧ ¬(pk busyCore).unitsIdle 0 ∧ (pk packCore).host.bisnp = []
    ∧ ((((pk (pkG 1 5)).core 0).rg 1).setWidth 3 : BitVec 3).toNat = 5
    ∧ ((((pk (pkG 1 4)).core 0).rg 1).setWidth 3 : BitVec 3).toNat = 4
    ∧ (3 < (4 : BitVec 12).toNat ∧ (0xF : BitVec 12).toNat < 0x10 ∧ 0x804 < (0xFFF : BitVec 12).toNat) := by
  refine ⟨pk_issues_4, ⟨by decide, by decide, by decide, by decide, by decide, by decide, by decide, by decide, by decide,
    by decide, .inl rfl⟩, ⟨by decide, by decide⟩, rfl, rfl, by simp only [State.unitsIdle]; decide,
    by simp only [State.unitsIdle]; decide, rfl, by decide, by decide, by decide⟩

/-- The core with an exception that waits for its boundary. -/
def waitsFor (cause : Nat) : Core := { packCore with deliver := some ⟨cause, 0, 0, 1, none⟩ }

theorem wit_CoreExceptions : (pk packCore).issues 0 4 ∧ (pk stewCore).issues 0 4 ∧ (pk packCore).sbOk 0
    ∧ (pk packCore).unitsIdle 0 ∧ (∀ k ∈ (pk packCore).machineOf 0, ((pk packCore).core k).mx.jobs = [])
    ∧ ((pk packCore).core 0).deliver = none
    ∧ (∀ x ∈ [3, 5, 7, 8], ((pk (waitsFor x)).core 0).deliver = some ⟨x, 0, 0, 1, none⟩
      ∧ ((pk (waitsFor x)).core 0).ending = false ∧ ((pk (waitsFor x)).core 0).work ≠ .none ∧ (pk (waitsFor x)).cores.length = 64)
    ∧ (inLife .service).serves (.core 0) ∧ (inLife .service).serves (.core 63) := by
  refine ⟨pk_issues_4, wit_SystemRegisters.2.1, ⟨by decide, by decide⟩, wit_SystemRegisters.2.2.2.2.2.1, by decide, rfl, by decide,
    by simp only [State.serves]; decide, by simp only [State.serves]; decide⟩

/-- R149, R147: -2^63 / -1 wraps; a quotient by zero is all ones; g0 discards its write. -/
theorem test_divide :
    let s := pk { packCore with g := ((List.replicate 32 0).set 1 0x8000000000000000).set 2 0xFFFFFFFFFFFFFFFF }
    gives (exec (.integerDivide 0 true false 3 1 (.reg 2)) s) (fun t => decide ((t.core 0).rg 3 = 0x8000000000000000)) = true
    ∧ gives (exec (.integerDivide 0 false false 3 1 (.reg 0)) s) (fun t => decide ((t.core 0).rg 3 = 0xFFFFFFFFFFFFFFFF)) = true
    ∧ gives (exec (.integerOp 0 .add 0 1 (.imm 1)) s) (fun t => decide ((t.core 0).rg 0 = 0)) = true := by decide

/-- The example after R156: the store of 8 bytes at 0x10 forwards to the load at 0x14 and covers a part of the load at
0xC. -/
theorem test_forwarding :
    let s := pk { packCore with g := ((List.replicate 32 0).set 2 0x200001000).set 5 0x1122334455667788 }
    gives (exec (.scalarStore 0 3 false 5 2 0x10) s) (fun a =>
      gives (exec (.scalarLoad 0 2 false false 6 2 0x14) a) (fun b => decide ((b.core 0).rg 6 = 0x11223344)
        && decide ((b.core 0).pmc.getD 8 0 = 1)
        && gives (exec (.scalarLoad 0 3 false false 7 2 0xC) b) (fun c => decide ((c.core 0).rg 7 = 0x5566778800000000)
          && decide ((c.core 0).pmc.getD 7 0 = 1) && decide ((c.core 0).pmc.getD 8 0 = 1)))) = true := by
  decide +kernel

/-- R159: AMOCAS stores only on equality and returns what memory held. -/
theorem test_amocas :
    let s := pk { packCore with g := ((List.replicate 32 0).set 1 0x200000000).set 3 7 }
    gives (exec (.amocasD 0 2 1 3) s) (fun t => decide (t.rdByte 0x1010000 = 7) && decide ((t.core 0).rg 2 = 0)) = true
    ∧ gives (exec (.amocasD 0 1 1 3) s) (fun t => decide (t.rdByte 0x1010000 = 0) && decide ((t.core 0).rg 1 = 0)) = true := by
  decide +kernel

/-- R161, Table 8 of 06: a misaligned ordered load. -/
theorem test_misaligned :
    gives (exec (.ldaqD 0 2 1) (pk (pkG 1 0x200000004))) (fun t => decide ((t.core 0).xcause = 3)
      && decide ((t.core 0).xpc = 0x100000000) && decide ((t.core 0).xaddr = 0x200000004)) = true := by decide

/-! ### Vectors -/

/-- A core with a vector state. -/
def vecCore (vl sew : Nat) (regs : List (Nat × List Nat)) : Core :=
  let x : Vec := { Vec.reset with vl := vl, sew := sew }
  let put := fun (x : Vec) (r : Nat × List Nat) => r.2.zipIdx.foldl (fun (y : Vec) p => y.setEl (2 ^ sew) r.1 p.2 p.1) x
  { packCore with vec := regs.foldl put x }

def vw3 : VecWord := ⟨3, 1, 2, 0, false, false, false⟩

/-- A gang of two that leads on core 0. -/
def gang2 (c : Core) : State := { pk c with ple := { State.reset.ple with vms := [⟨[0, 1], false, 0, 0⟩] } }

theorem wit_VectorConfig : (pk packCore).issues 0 4 ∧ (gang2 packCore).issues 0 4 ∧ (pk packCore).vecOk 0
    ∧ (gang2 (vecCore 1024 3 [])).vecOk 0 := by
  refine ⟨pk_issues_4, ⟨by decide, by decide, by decide, by decide, by decide, by decide, by decide, by decide, by decide,
    by decide, .inr ⟨_, rfl, by decide, .inl (by decide)⟩⟩, ?_, ?_⟩ <;> (simp only [State.vecOk]; decide)

theorem vec_issues : (pk (vecCore 6 3 [(1, [10, 11, 12, 13, 14, 15]), (2, [5, 0, 7, 2, 6, 1])])).issues 0 4
    ∧ (pk (vecCore 6 3 [(1, [10, 11, 12, 13, 14, 15]), (2, [5, 0, 7, 2, 6, 1])])).vecOk 0 := by
  refine ⟨⟨by decide, by decide, by decide, by decide, by decide, by decide, by decide, by decide, by decide, by decide,
    .inr ⟨_, rfl, by decide, .inl (by decide)⟩⟩, ?_⟩
  simp only [State.vecOk]; decide

theorem wit_VectorInteger : (pk (vecCore 6 3 [(1, [10, 11, 12, 13, 14, 15]), (2, [5, 0, 7, 2, 6, 1])])).issues 0 4
    ∧ (pk (vecCore 6 3 [(1, [10, 11, 12, 13, 14, 15]), (2, [5, 0, 7, 2, 6, 1])])).vecOk 0 := vec_issues

set_option maxRecDepth 20000 in
/-- The example after R195: VPERM with two indices out of range. -/
theorem test_vperm :
    gives (exec (.vperm 0 vw3) (pk (vecCore 6 3 [(1, [10, 11, 12, 13, 14, 15]), (2, [5, 0, 7, 2, 6, 1])])))
      (fun t => decide ((List.range 6).map ((t.core 0).vec.el 8 3) = [15, 10, 0, 12, 0, 11])
        && (t.core 0).vec.vxr.getLsbD 6) = true := by decide


/-- A vector core of two FP32 elements and one of two FP64 elements whose base is 8 bytes before the end of the area. -/
def vec32 : Core := vecCore 2 2 [(1, [0x3F800000, 0x7F800001]), (2, [0x40000000, 0x3F800000])]
def edge : Core := { vecCore 2 3 [(1, [1, 2])] with g := (List.replicate 32 0).set 1 0x23FFEFFF8 }

theorem wit_VectorFloat : (pk vec32).issues 0 4 ∧ (pk vec32).vecOk 0 ∧ vec32.vec.sew = 2
    ∧ (∃ a b, NumFmt.ofCode (1 : BitVec 4).toNat = some a ∧ NumFmt.ofCode (0 : BitVec 4).toNat = some b ∧ convPairOk a b = true
      ∧ 8 * 2 ^ vec32.vec.sew = a.bits ∧ a.bits < b.bits)
    ∧ NumFmt.ofCode (11 : BitVec 4).toNat = none := by
  refine ⟨⟨by decide, by decide, by decide, by decide, by decide, by decide, by decide, by decide, by decide, by decide,
    .inr ⟨_, rfl, by decide, .inl (by decide)⟩⟩, by simp only [State.vecOk]; decide, by decide, ⟨_, _, rfl, rfl, by decide⟩, by decide⟩

theorem wit_VectorReduce : (pk vec32).issues 0 4 ∧ (pk vec32).vecOk 0 := ⟨wit_VectorFloat.1, wit_VectorFloat.2.1⟩

theorem wit_VectorMemory : (pk edge).issues 0 4 ∧ (pk edge).vecOk 0 ∧ (pk edge).sbOk 0
    ∧ (∃ pas, (pk edge).coreXlate 0 .read (vAddrs 0x23FFEFFF8 8) = .ok pas ∧ (∀ a ∈ pas, (pk edge).bad a = false))
    ∧ (∃ pas, (pk edge).coreXlate 0 .write (vAddrs 0x23FFEFFF8 8) = .ok pas ∧ pas.Nodup)
    ∧ (∃ cause va r, (pk edge).coreXlate 0 .read (vAddrs 0x23FFF0000 8) = .fault cause va r)
    ∧ (∃ cause va r, (pk edge).coreXlate 0 .write (vAddrs 0x23FFF0000 8) = .fault cause va r)
    ∧ (((pk edge).core 0).rg 1).toNat = 0x23FFEFFF8 ∧ edge.vec.active 0 1 = true := by
  refine ⟨⟨by decide, by decide, by decide, by decide, by decide, by decide, by decide, by decide, by decide, by decide,
    .inr ⟨_, rfl, by decide, .inl (by decide)⟩⟩, by simp only [State.vecOk]; decide, ⟨by decide, by decide⟩, ⟨_, rfl, by decide⟩, ⟨_, rfl, by decide⟩,
    ⟨_, _, _, rfl⟩, ⟨_, _, _, rfl⟩, by decide, by decide⟩

set_option maxRecDepth 20000 in
/-- R216: VLDFF trims vl at the element that faults and keeps the one below; VLD takes the fault. -/
theorem test_vldff :
    gives (exec (.vldff 0 ⟨4, 1, 0, 0, false, 0, false, false⟩) (pk edge))
      (fun t => decide ((t.core 0).vec.vl = 1) && decide ((t.core 0).xcause = 0)) = true
    ∧ gives (exec (.vld 0 ⟨4, 1, 0, 0, false, 0, false, false⟩) (pk edge))
      (fun t => decide ((t.core 0).vec.vl = 2) && decide ((t.core 0).xaddr = 0x23FFF0000)) = true := by decide

/-- R119, R121: 1 + 2 = 3 in FP32, and a NaN operand gives the default NaN with IV (bit 4). -/
theorem test_fpAdd : FpFmt.sum .fp32 .rne false [FpFmt.decode .fp32 0x3F800000, FpFmt.decode .fp32 0x40000000] = (0x40400000, 0)
    ∧ FpFmt.sum .fp32 .rne false [FpFmt.decode .fp32 0x7FC00000, FpFmt.decode .fp32 0x40000000] = (0x7FC00000, 16) := by decide

/-- The example after R132: FP32 1 + 2^-9 to BF16 under SR rounds up exactly below 0x4000_0000. -/
theorem test_stochastic : (NumFmt.convert .fp32 .bf16 (.sr 0x3FFFFFFF) false 0x3F804000).1 = 0x3F81
    ∧ (NumFmt.convert .fp32 .bf16 (.sr 0x40000000) false 0x3F804000).1 = 0x3F80 := by decide

/-- Table 9 of 05: the worked quantisation. -/
theorem test_quantise :
    quantBlock .e4m3 ([0x40466666, 0xBF400000, 0x3CA3D70A, 0x41700000, 0, 0xB951B717, 0x3F800000, 0x3727C5AC].map
      (fun w => (FpFmt.decode .fp32 w, Rm.rne)))
      = ⟨0x7A, [0x6C, 0xDC, 0x32, 0x7E, 0x00, 0x83, 0x60, 0x00], 2, Cond.unf ||| Cond.nx⟩ := by decide

/-- R182, Table 3 of 07: VADD v3, v1, v2; its word holds no other integer function, and function 0x13 none. -/
theorem test_word_vadd :
    let w := 0b100001_00011_00001_00010_000_0_0_000000#32
    (Instr.vadd 0 vw3).inVector w = true ∧ (Instr.vmin 0 vw3).inVector w = false
    ∧ (Instr.vadd 0 vw3).inVector 0b100001_00011_00001_00010_000_0_0_010011#32 = false := by decide

theorem wit_VectorInteger_words :
    (majorOf 0x7FFFFFFF < 0x20 ∧ 0x2F < majorOf 0xC0000000 ∧ majorOf 0xA8000000 = 0x2A ∧ majorOf 0xAC000000 = 0x2B)
    ∧ majorOf 0x84000013 = 0x21 ∧ 0x12 < fnOf 0x84000013 ∧ fnOf 0x84000005 = 0x05 := by decide

/-- R182, Table 2 of 07: SETVLI g3, SEW 32, 256. -/
theorem test_word_setvli :
    (Instr.setvli 0 3 2 256).inVector 0b100000_00011_00000_10_01_000100000000#32 = true
    ∧ (Instr.setvl 0 3 0 2).inVector 0b100000_00011_00000_10_00_000100000000#32 = false := by decide

/-- R207, Tables 1 and 2 of 08: VGATHFF v3, base g1, indices v2 times 8. -/
theorem test_word_vgathff :
    let w := 0b101110_00011_00001_00010_000_0_1_1_11_0_00#32
    let x : MemWord := ⟨3, 1, 2, 0, false, 3, false, false⟩
    (Instr.vgathff 0 x).inVector w = true ∧ (Instr.vgath 0 x).inVector w = false ∧ (Instr.vldsff 0 x).inVector w = false := by decide

/-! ## Chapter 9: the matrix unit -/

/-- FP32 1 x 1 x 1: A at 0x100, B at 0x200, C at 0x300, STATUS at 0x340 of the readable area. -/
def mxRaw : List Byte :=
  leBytes 4 0x1111 ++ zeros 4 ++ leBytes 2 1 ++ [0, 1] ++ leBytes 4 1 ++ leBytes 4 1 ++ zeros 4 ++ leBytes 8 0x200000100
    ++ leBytes 8 0x200000200 ++ leBytes 8 0x200000300 ++ leBytes 4 4 ++ leBytes 4 4 ++ leBytes 4 4 ++ zeros 52
    ++ leBytes 8 0x200000340 ++ zeros 8

def mxJob (ph : MxPhase) : MxJob :=
  { id := 0, raw := mxRaw, ext := [], member := 0, gang := 1, m0 := 0, mN := 1, n0 := 0, nN := 1, k0 := 0, kN := 1
    partialBase := none, pass := 0, kc := 0, nt := 0, row := 0, phase := ph, blk := 0, second := false, stop := false
    tile := FpFmt.decode .fp32 0x40400000 :: List.replicate 1023 FpVal.zero, carry := [], flags := 0, under := 0 }

/-- A core whose g1 holds the descriptor's address, with jobs; memory holds the descriptor, A = 2 and B = 3. -/
def mxState (jobs : List MxJob) (z : Mem) : State :=
  let s := pk { packCore with g := (List.replicate 32 0).set 1 0x200000000, mx := { Mx.reset with jobs := jobs, z := z } }
  { s with dram := { s.dram with bytes :=
      ((Mem.writeBytes [] 0x1010000 mxRaw).writeBytes 0x1010100 (leBytes 4 0x40000000)).writeBytes 0x1010200 (leBytes 4 0x40400000) } }

theorem mx_issues : (mxState [] []).issues 0 8 := by
  refine ⟨by decide, by decide, by decide, by decide, by decide, by decide, by decide, by decide, by decide, by decide,
    .inr ⟨_, rfl, by decide, .inl (by decide)⟩⟩

set_option maxRecDepth 20000 in
theorem wit_MatrixProduct_mxgo : (mxState [] []).issues 0 8 ∧ (mxState [] []).sbOk 0 ∧ (mxState [] []).unheld
    ∧ (mxState [] []).leadOf 0 < 64 ∧ (∀ va len, (mxState [] []).entriesSound 0 (vAddrs va len))
    ∧ ((mxState [] []).core 0).rg 1 = 0x200000000
    ∧ (∃ pas, (mxState [] []).coreXlate 0 .read (vAddrs 0x200000000 128) = .ok pas ∧ (∀ a ∈ pas, (mxState [] []).sound a)
      ∧ mxRaw = pas.map ((mxState [] []).seen 0))
    ∧ (MxD.parse mxRaw).ok 1 Option.none ((mxState [] []).spadBytes 0) = true
    ∧ (MxD.parse (zeros 128)).ok 1 Option.none ((mxState [] []).spadBytes 0) = false
    ∧ (∀ x ∈ (MxD.parse mxRaw).extents Option.none,
      ((mxState [] []).coreCtx 0).extent ((mxState [] []).reachOf 0) (if x.2.2 then .write else .read) x.1 x.2.1 = .ok ())
    ∧ (∃ k ∈ (mxState (List.replicate 4 (mxJob .load)) []).machineOf 0,
      4 ≤ ((mxState (List.replicate 4 (mxJob .load)) []).core k).mx.jobs.length)
    ∧ (mxState [] []).machineOf 0 = [0] ∧ memberTiles (ceilDiv 1 32) 1 0 ≠ 0 := by
  refine ⟨mx_issues, ⟨by decide, by decide⟩, fun _ => rfl, by decide, fun _ _ => .inl (by decide), by decide,
    ⟨_, rfl, by simp only [State.sound]; decide, by decide⟩, by decide, by decide, ?_,
    by decide, by decide, by decide⟩
  rw [show (MxD.parse mxRaw).extents Option.none = [(0x200000100, 4, false), (0x200000200, 4, false), (0x200000300, 4, true),
    (0x200000340, 16, true)] from rfl]
  simp only [List.forall_mem_cons]
  exact ⟨rfl, rfl, rfl, rfl, fun _ h => nomatch h⟩

theorem wit_MatrixProduct : (∀ k ∈ (mxState [] []).machineOf 0, (mxState [] []).mxStep1 k = none)
    ∧ (∀ ph ∈ [MxPhase.load, .stream, .output], ∀ k ∈ ((mxState [mxJob ph] []).core 0).mx.jobs, k.phase = ph ∧ k.stop = false)
    ∧ Mem.wf ((mxState [mxJob .load] []).core 0).mx.z = true ∧ (mxState [mxJob .load] []).leadOf 0 = 0
    ∧ ((mxState [mxJob .load] []).core 0).ending = false ∧ ((mxState [mxJob .load] []).core 0).deliver = none
    ∧ (let v := (mxJob .output).view
       v.mN - v.m0 = 1 ∧ v.tiles 0 * 1 = 1 ∧ v.passes = 1 ∧ (MxD.parse mxRaw).op = 1 ∧ (MxD.parse mxRaw).keep = false
       ∧ (MxD.parse mxRaw).init ≠ 2 ∧ (MxD.parse mxRaw).c.fmt = some .fp32 ∧ NumFmt.isBx .fp32 = false
       ∧ (MxD.parse mxRaw).status ≠ 0)
    ∧ ((mxState [mxJob .output] []).heldPas 0 .write (vAddrs 0x200000300 4)).Nodup
    ∧ ((mxState [mxJob .output] []).heldPas 0 .write (vAddrs 0x200000340 16)).Nodup
    ∧ (inLife .service).serves (.core 5) := by
  simp only [State.serves]; decide

set_option maxRecDepth 20000 in
/-- R253, R254: the accumulator's 6 is written to C and the unit completes with its status record. -/
theorem test_outputRow : gives (exec (.mxOutputRow 0) (mxState [mxJob .output] (Mem.writeBytes [] 0 (leBytes 4 0x40C00000))))
    (fun t => decide (t.dram.bytes.readLe 0x1010300 4 = 0x40C00000) && decide (t.dram.bytes.readLe 0x1010340 1 = 1)
      && decide ((t.core 0).mx.jobs = []) && decide ((t.core 0).mx.desc = 1)) = true := by
  decide +kernel

/-- R230: two dot blocks of one pair each, each added with one rounding: 1 + 2 * 3 + 4 * 0.5. -/
theorem test_dotBlocks : dotBlocks .fp32 1 2 ([(0x40000000, 0x40400000), (0x40800000, 0x3F000000)].map
      (fun p => (FpFmt.decode .fp32 p.1, FpFmt.decode .fp32 p.2))) (0x3F800000, 0) = (0x41100000, 0) := by decide

/-! ## Chapter 10: stream chain engines -/

/-- Table 12 of 10: the words of the normalisation program, each but its stage words. -/
theorem test_tableTwelve :
    [0x0328, 0x0370, 0x2A00, 0x100E, 0x29D0, 0x2888, 0x0240, 0x28B8, 0x02AC, 0x0100].map SeqWord.decode
      = [some (.ldcf 0 5), some (.ldcf 1 6), some (.setlen 0), some (.loop 0 14), some (.movs 7 2), some (.movs 2 1),
        some (.chain 3 0 false), some (.movs 2 7), some (.chain 6 1 true), some .halt]
    ∧ (stOp 0x31C6, stSa 0x31C6, stSb 0x31C6) = (3, 4, 3) ∧ (stOp 0x3740, stSa 0x3740) = (0x0E, 4)
    ∧ (stOp 0x31EA, stSa 0x31EA, stSb 0x31EA) = (3, 6, 5) ∧ stOp 0x3C40 = 0x18 ∧ stOp 0x3E40 = 0x1C := by decide

/-- Words that the encodings of Tables 5 and 6 of 10 reserve. -/
theorem test_reservedWords : [0x0700, 0x0108, 0x1000, 0x2E00, 0x2401, 0x3000].map SeqWord.decode = List.replicate 6 none := by decide

/-- A core whose engine 0 is x. -/
def sceState (x : Sce) : State :=
  let s := pk { packCore with sce := [x, Sce.reset], g := (List.replicate 32 0).set 1 0x200000000 }
  let m := Mem.writeBytes [] 0x1010000 (leBytes 8 0x200000100 ++ leBytes 2 7 ++ leBytes 2 1)
  { s with dram := { s.dram with bytes := m.writeBytes 0x1010100 (leBytes 2 0x0100) } }

/-- An engine that runs and stands at a word at address 0, with the stage word after it. -/
def atW (w stage : Nat) : Sce := { Sce.reset with run := .running, pm := (Tab.put 0 (Tab.put 0 [] 0 w) 1 stage), len := 2 }

theorem sce_issues : (sceState Sce.reset).issues 0 8 := by
  refine ⟨by decide, by decide, by decide, by decide, by decide, by decide, by decide, by decide, by decide, by decide,
    .inr ⟨_, rfl, by decide, .inl (by decide)⟩⟩

set_option maxRecDepth 20000 in
theorem wit_StreamProgram_issue : (sceState Sce.reset).issues 0 8 ∧ (sceState Sce.reset).sbOk 0 ∧ (sceState Sce.reset).unheld
    ∧ (∀ va len, (sceState Sce.reset).entriesSound 0 (vAddrs va len))
    ∧ ((sceState Sce.reset).machineOf 0)[(0 : BitVec 2).toNat]? = some 0 ∧ ((sceState Sce.reset).machineOf 0)[(1 : BitVec 2).toNat]? = none
    ∧ ((sceState Sce.reset).core 0).rg 1 = 0x200000000
    ∧ (∃ pas raw, (sceState Sce.reset).coreXlate 0 .read (vAddrs 0x200000000 16) = .ok pas
      ∧ (∀ a ∈ pas, (sceState Sce.reset).sound a) ∧ raw = pas.map ((sceState Sce.reset).seen 0)
      ∧ loadBlock raw = some (0x200000100, 7, 1))
    ∧ (∃ pas raw, (sceState Sce.reset).coreXlate 0 .read (vAddrs 0x200000100 2) = .ok pas
      ∧ (∀ a ∈ pas, (sceState Sce.reset).sound a) ∧ raw = pas.map ((sceState Sce.reset).seen 0) ∧ leAt raw 0 2 = 0x0100)
    ∧ (startBlock (zeros 64) = some (0, List.replicate 8 0, List.replicate 4 0, List.replicate 4 0))
    ∧ startBlock (leBytes 8 4096 ++ zeros 56) = none ∧ loadBlock (zeros 16) = none
    ∧ Sce.reset.quiet = true ∧ (atW 0x0600 0).quiet = false ∧ (sceState Sce.reset).pairNames 0 0 = false
    ∧ Tab.wf 0 Sce.reset.pm = true ∧ 2 ^ 14 ≤ leAt (leBytes 2 0x4000) 0 2 := by
  refine ⟨sce_issues, ⟨by decide, by decide⟩, fun _ => rfl, fun _ _ => .inl (by decide), by decide, by decide, by decide,
    ⟨_, _, rfl, by simp only [State.sound]; decide, rfl, by decide⟩, ⟨_, _, rfl, by simp only [State.sound]; decide, rfl, by decide⟩, by decide, by decide, by decide, by decide, by decide, by decide, by decide, by decide⟩

theorem wit_StreamProgram_words :
    (∀ w ∈ [0x0000, 0x0600, 0x0100, 0x1001, 0x100F, 0x2048, 0x2248, 0x2448, 0x2650, 0x2848, 0x2A80, 0x2CFF, 0x0340, 0x0508],
      ∃ x, (sceState (atW w 0)).atWord 0 0 x ∧ some x = SeqWord.decode w)
    ∧ (sceState { Sce.reset with held := some ⟨0, [], [], [], false⟩ }).cores.length = 64
    ∧ SeqWord.decode 0x3000 = none
    ∧ (∀ k, k < 4 → ¬((atW 0 0).act.getD k false = true))
    ∧ (∃ x : Sce, x.act.getD 1 false = true ∧ x.le.getD 1 0 = 5 ∧ x.lc.getD 1 0 = 1)
    ∧ (∃ x : Sce, x.act.getD 3 false = true ∧ x.le.getD 3 0 = 4095 ∧ x.lc.getD 3 0 = 65535)
    ∧ (inLife .service).serves (.core 63) := by
  refine ⟨?_, by decide, by decide, by decide, ⟨{ Sce.reset with act := [false, true], le := [0, 5], lc := [0, 1] }, by decide⟩,
    ⟨{ Sce.reset with act := [false, false, false, true], le := [0, 0, 0, 4095], lc := [0, 0, 0, 65535] }, by decide⟩,
    by simp only [State.serves]; decide⟩
  simp only [List.forall_mem_cons, State.atWord]
  exact ⟨⟨_, ⟨by decide, rfl, by decide, rfl, by decide, rfl, rfl⟩, rfl⟩, ⟨_, ⟨by decide, rfl, by decide, rfl, by decide, rfl, rfl⟩, rfl⟩,
    ⟨_, ⟨by decide, rfl, by decide, rfl, by decide, rfl, rfl⟩, rfl⟩, ⟨_, ⟨by decide, rfl, by decide, rfl, by decide, rfl, rfl⟩, rfl⟩,
    ⟨_, ⟨by decide, rfl, by decide, rfl, by decide, rfl, rfl⟩, rfl⟩, ⟨_, ⟨by decide, rfl, by decide, rfl, by decide, rfl, rfl⟩, rfl⟩,
    ⟨_, ⟨by decide, rfl, by decide, rfl, by decide, rfl, rfl⟩, rfl⟩, ⟨_, ⟨by decide, rfl, by decide, rfl, by decide, rfl, rfl⟩, rfl⟩,
    ⟨_, ⟨by decide, rfl, by decide, rfl, by decide, rfl, rfl⟩, rfl⟩, ⟨_, ⟨by decide, rfl, by decide, rfl, by decide, rfl, rfl⟩, rfl⟩,
    ⟨_, ⟨by decide, rfl, by decide, rfl, by decide, rfl, rfl⟩, rfl⟩, ⟨_, ⟨by decide, rfl, by decide, rfl, by decide, rfl, rfl⟩, rfl⟩,
    ⟨_, ⟨by decide, rfl, by decide, rfl, by decide, rfl, rfl⟩, rfl⟩, ⟨_, ⟨by decide, rfl, by decide, rfl, by decide, rfl, rfl⟩, rfl⟩, fun _ h => nomatch h⟩

/-- A chain of one stage, I0 times I0 in FP32, written by the stage. -/
def sqSlot : Slot := { Slot.zero with i0 := 1, o := 1 }
def sqRun (entered : Nat) (pend : List ChainWrite) : ChainRun := ⟨0, 2, [0, 0, 64, 0, 0], sqSlot, [0x181], entered, [0, 0, 0], [], [], pend, 0⟩

theorem wit_StreamChains :
    chainCheck sqSlot [0x181] [0, 0, 64, 0, 0] 2 0x300000 = 0 ∧ chainCheck sqSlot [0x181] [0x300000 - 4, 0, 64, 0, 0] 2 0x300000 = 3
    ∧ chainCheck sqSlot [0x181] [2, 0, 64, 0, 0] 2 0x300000 = 4 ∧ chainCheck sqSlot [0x180] [0, 0, 64, 0, 0] 2 0x300000 = 2
    ∧ SeqWord.decode 0x0200 = some (.chain 1 0 false) ∧ bits 0x3181 12 2 = 3 ∧ SeqWord.decode 0x0400 = some (.dma 0 0)
    ∧ (let x := { atW 0x0200 0x3181 with chains := [sqRun 0 []] }
       (sceState x).cores.length = 64 ∧ ((sceState x).core 0).sce.length = 2 ∧ x.chains[0]? = some (sqRun 0 []) ∧ (sqRun 0 []).entered < (sqRun 0 []).beats
       ∧ ∀ p ∈ (sqRun 0 []).reads 0, (sceState x).spadBad 0 p.1 p.2 = none)
    ∧ (sqRun 1 []).beats ≤ (sqRun 1 []).entered
    ∧ (sqRun 1 [⟨0, false, 64, [1]⟩]).pend = ⟨0, false, 64, [1]⟩ :: []
    ∧ (DmaD.parse (leBytes 8 0x200000000 ++ leBytes 4 64 ++ leBytes 4 4 ++ leBytes 2 1 ++ [1, 0] ++ zeros 12)).ok = true
    ∧ Mem.wf (sceState Sce.reset).dram.bytes = true
    ∧ ((sceState Sce.reset).heldPas 0 .write (vAddrs 0x200000000 4)).length = 4
    ∧ ((sceState Sce.reset).heldPas 0 .write (vAddrs 0x200000000 4)).Nodup := by decide

set_option maxRecDepth 20000 in
/-- R276, R277: a beat squares its two elements; the write of its stage is queued at s2. -/
theorem test_beat :
    let s := sceState { atW 0x0200 0x3181 with chains := [sqRun 0 []] }
    let s1 : State := { s with dram := { s.dram with bytes := (s.dram.bytes.writeBytes (spadBase 0) (leBytes 4 0x40400000)) } }
    gives (exec (.chainBeatEnter 0 false) s1) (fun t =>
      decide (((t.engine 0 0).chains.map (·.pend)) = [[⟨0, false, 64, leBytes 4 0x41100000 ++ zeros 4⟩]])) = true := by decide

/-- R260, Table 2 of 10: SCLOAD and SCGO on SCE1 of member 2 with the block's address in g7; a second word's low bits are 0. -/
theorem test_word_stream :
    (Instr.scload 0 true 2 7).inStream 0b111111_0010_000001_10_00000000000000#32 0b00111_000000000000000000000000000#32 = true
    ∧ (Instr.scgo 0 true 2 7).inStream 0b111111_0010_000010_10_00000000000000#32 0b00111_000000000000000000000000000#32 = true
    ∧ (Instr.scgo 0 true 2 7).inStream 0b111111_0010_000010_10_00000000000000#32 0b00111_000000000000000000000000001#32 = false := by
  decide

/-! ## Chapters 11 to 14: a device in SERVICE with a context, two machines, a queue and a descriptor -/

def svcImage : Image :=
  { seq := 1, digest := 0, vendor := false, gang := List.replicate 8 1, spad := List.replicate 64 6, spares := List.replicate 8 0
    pinWays := 8, ctxPinMib := 64, policy := 0, fixedAllowed := true, defaultClass := 0, role := List.replicate 16 1
    paired := false, mirrorGib := 0, waiver := 0, capW := 1200, drizzle := 16, fmin := List.replicate 8 400
    fmax := List.replicate 8 2100, vmax := List.replicate 8 850, maxCtx := 16, queuesPerCtx := 8, rangesPerCtx := 16
    totalQueues := 128, t1Host := true, faultData := true, interval := 24, deadline := 24, allowUnordered := true, srSeed := 0
    bytes := [] }

/-- Context 7: range 0 is 1 MiB of device memory at 0x40_0000_0000, read-write; range 1 is placed, 64 KiB, in block 768;
range 2 is 64 KiB of device memory at 0x40_0020_0000, read-execute. -/
def ctx7 : Ctx :=
  let r0 : Range := { Range.none with valid := true, kind := .device, vbase := 0x4000000000, len := 0x100000, target := 0x2000000, perm := 3 }
  let r1 : Range := { Range.none with valid := true, kind := .placed, vbase := 0x5000000000, len := 65536, segs := [0x3000000], perm := 3 }
  let r2 : Range := { Range.none with valid := true, kind := .device, vbase := 0x4000200000, len := 65536, target := 0x2200000, perm := 5 }
  ⟨true, false, [(0, r0), (1, r1), (2, r2)], List.replicate 16 0⟩

def queue7 : Queue := { Queue.none with st := .opened, ctx := 7, slot := 2, sqBase := 0x4000080000, cqBase := 0x4000090000, log2 := 8 }

/-- A descriptor of queue 100 by its type, its flags and what stands from offset 0x10 on. -/
def dsc (id ty fl : Nat) (st : DescSt) (rest : List Byte) : Desc :=
  { id := id, queue := 100, index := 0, ctx := 7, st := st
    raw := leBytes 1 ty ++ leBytes 1 fl ++ zeros 6 ++ leBytes 8 0x55 ++ rest ++ zeros (48 - rest.length)
    marks := [], stop := false, pos := 0, detail := 0, status := 0, waiting := false, ready := false, stales := [] }

/-- The device with descriptors in flight and bytes of device memory at 0x2000000. -/
def world (ds : List Desc) (bs : List Byte) : State :=
  let s := inLife .service
  { s with
    dev := { s.dev with coreAvail := BitVec.allOnes 64 }
    sim := { s.sim with image := some svcImage }
    ctxs := [(7, ctx7)]
    dram := { s.dram with bytes := Mem.writeBytes [] 0x2000000 bs }
    ple := { s.ple with vms := [⟨[0], false, 0, 0⟩, ⟨[1], false, 0, 0⟩] }
    qmg := { s.qmg with queues := [(100, queue7)], descs := ds } }

/-- A program grid's block: 1 x 1 cells, the program at the foot of range 2, ARG 9. -/
def gridBlk : List Byte := [1, 0, 0, 0, 0, 0, 0, 0] ++ leBytes 2 1 ++ leBytes 2 1 ++ zeros 4 ++ leBytes 8 0x4000200000 ++ leBytes 8 9 ++ zeros 32

def kernelD : Desc := dsc 1 1 0 .fetched (leBytes 8 0x4000000000)

theorem world_ctxs : Tab.wf Ctx.none (world [] []).ctxs = true ∧ Tab.wf Range.none ctx7.ranges = true
    ∧ Tab.wf Queue.none (world [] []).qmg.queues = true := by decide

theorem wit_GridChecks :
    let s := world [kernelD] gridBlk
    s.desc? 1 = some kernelD ∧ s.canStart kernelD = true ∧ kernelD.type = tyKernel ∧ kernelD.fld 0x10 8 = 0x4000000000
    ∧ (dsc 1 1 0 .fetched (leBytes 8 0x4000000020)).fld 0x10 8 % 64 ≠ 0
    ∧ (s.ctx 7).extent .other .read 0x4000000000 64 = .ok ()
    ∧ (∃ pas, s.xlateSpan 7 .other .read 0x4000000000 64 = .ok pas ∧ (∀ a ∈ pas, s.bad a = false) ∧ s.rdAt pas = gridBlk)
    ∧ gridBlockOk gridBlk = true ∧ gridBlockOk (zeros 64) = false ∧ leAt gridBlk 0 1 = 1 ∧ leAt gridBlk 0x30 8 = 0
    ∧ (s.ctx 7).extent .other .fetch 0x4000200000 4 = .ok ()
    ∧ (∃ m ∈ s.ple.vms, m.members.length = 1 ∧ (s.ctx 7).scratch.1 ≤ 1 * s.spadBytes (m.members.headD 0))
    ∧ (∀ m ∈ s.ple.vms, m.members.length ≠ 2)
    ∧ (dsc 1 2 0 .fetched []).type = tyChain ∧ (∀ vas, s.ctxSound 7 vas) := by
  refine ⟨by decide, by decide, by decide, by decide, by decide, rfl, ⟨_, rfl, by decide, by decide⟩, by decide, by decide, by decide,
    by decide, rfl, by decide, by decide, by decide, fun vas i _ => sound_of _ rfl rfl rfl _⟩

set_option maxRecDepth 20000 in
/-- R295: a good block makes a grid of one cell; the descriptor runs. -/
theorem test_kernel : gives (exec (.kernel 1) (world [kernelD] gridBlk)) (fun t =>
    decide (t.ple.grids.map (fun g => (g.gm, g.gn, g.ks, g.next)) = [(1, 1, 1, 0)])
      && decide (t.qmg.descs.map (fun d => d.st) = [.running])) = true := by decide

/-- The example of 11: the grid choice for M = 2,400, N = 1,800 in FP32 with V = 62 and ZCOUNT 64. -/
theorem test_gridChoice :
    let c : MxOperand := ⟨some .fp32, 0, 7200, false, 0, 0, 0⟩
    let d : MxD := { MxD.parse [] with op := 1, a := ⟨some .bf16, 0, 2304, false, 0, 0, 0⟩, b := ⟨some .bf16, 0, 3600, false, 0, 0, 0⟩, c := c
                                       m := 2400, n := 1800, k := 1152, zcount := 64, init := 0 }
    gridUnits c = (32, 32) ∧ gridAuto d .fp32 1 62 = some (5, 12) := by decide

def cellGrid (kind : GridKind) (next : Nat) (ready : List Nat) : Grid :=
  { desc := 1, ctx := 7, kind := kind, block := gridBlk, mraw := mxRaw, fixed := [], gm := 1, gn := 1, ks := 1, gang := 0, hint := 0
    vmMax := 0, engine := 0, load := 0, startAt := 0, next := next, running := [], ended := [], ready := ready, combining := []
    combined := [], stopping := false, flags := 0, spill := 0, under := 0 }

/-- The device with a grid; its core 0 may run a combine, and its islands may be gated. -/
def gridState (g : Grid) (w : Work) (isl : IslSt) (busy : Bool) : State :=
  let s := world [dsc 1 1 0 .running (leBytes 8 0x4000000000)] gridBlk
  { s with
    ple := { s.ple with grids := [g], vms := [⟨[0], busy, 7, 1⟩] }
    cores := { Core.reset with work := w } :: List.replicate 63 Core.reset
    pcm := { s.pcm with islands := { Island.reset 0 with st := isl } :: (s.pcm.islands.drop 1) } }

theorem calm_of (s : State) (h : s.pcm.failed = 0) (q : s.flt.patrol = (State.reset).flt.patrol) : s.calm := by
  intro n hn
  constructor
  · simp [h]
  · have : ∀ m, m < 64 → ((State.reset).flt.patrol.getD m Patrol.reset).due = false := by decide
    rw [State.patrol, q]
    exact this n hn

theorem wit_CellStart :
    (∀ g ∈ [cellGrid .program 0 [], cellGrid .program 1 [], cellGrid .product 0 [0]],
      (gridState g .none .running false).grid? 1 = some g ∧ (gridState g .none .running false).cores.length = 64)
    ∧ (gridState (cellGrid .program 0 []) .none .running false).calm
    ∧ (gridState (cellGrid .program 0 []) .none .running false).cellDue (cellGrid .program 0 []) = true
    ∧ (gridState (cellGrid .program 1 []) .none .running false).cellDue (cellGrid .program 1 []) = false
    ∧ (gridState (cellGrid .program 0 []) .none .running false).pickVm (cellGrid .program 0 []) 0 = .run ⟨[0], false, 7, 1⟩
    ∧ (gridState (cellGrid .program 0 []) .none .lull false).pickVm (cellGrid .program 0 []) 0 = .run ⟨[0], false, 7, 1⟩
    ∧ ((gridState (cellGrid .program 0 []) .none .lull false).island 0).st = .lull
    ∧ (gridState (cellGrid .program 0 []) .none .running true).pickVm (cellGrid .program 0 []) 0 = .later
    ∧ (gridState (cellGrid .program 0 []) .none .running false).pickVm { cellGrid .program 0 [] with fixed := [5] } 0 = .unfit
    ∧ (gridState (cellGrid .program 0 []) .none .running false).machineOf 0 = [0]
    ∧ Mem.wf (gridState (cellGrid .program 0 []) .none .running false).dram.bytes = true
    ∧ (gridState (cellGrid .product 0 [0]) .none .running false).working = true
    ∧ (let s := gridState (cellGrid .product 0 [0]) .none .running false
       s.chooseVm (cellGrid .product 0 [0]) 0 (s.ple.vms.filter (fun m => s.vmFree m && s.recheckOk (cellGrid .product 0 [0]) m)) =
        some ⟨[0], false, 7, 1⟩) := by
  refine ⟨by decide, calm_of _ rfl rfl, ?_⟩
  decide

/-- A product cell starts on a machine whose matrix unit is closed. -/
theorem wit_CellStart_product :
    let g := cellGrid .product 0 []
    let s0 := gridState g .none .running false
    let s : State := { s0 with cores := { Core.reset with mx := { Mx.reset with close := true } } :: List.replicate 63 Core.reset }
    s.calm ∧ s.grid? 1 = some g ∧ s.cellDue g = true ∧ s.pickVm g 0 = .run ⟨[0], false, 7, 1⟩ ∧ s.machineOf 0 = [0]
    ∧ (s.core 0).mx.close = true ∧ Mem.wf s.dram.bytes = true
    ∧ s.ctxSound 7 (((MxD.parse g.mraw).extents none).map (·.1)) :=
  ⟨calm_of _ rfl rfl, by decide, by decide, by decide, by decide, by decide, by decide, fun _ _ => sound_of _ rfl rfl rfl _⟩

set_option maxRecDepth 20000 in
/-- R297, Table 2 of 11: the first cell's registers and pc. -/
theorem test_cellStart : gives (exec (.cellStart 1) (gridState (cellGrid .program 0 []) .none .running false)) (fun t =>
    decide ((t.core 0).rg 1 = 9) && decide ((t.core 0).rg 4 = 1) && decide ((t.core 0).pc = 0x4000200000)
      && decide (t.ple.cells = 1) && decide ((t.core 0).run = .running)) = true := by decide

theorem wit_CellStart_combine :
    let g := { cellGrid .product 1 [] with mraw := zeros 128 }
    let s := gridState g (.combine 1 0) .running false
    (s.core 0).work = .combine 1 0 ∧ (s.core 0).ending = false ∧ (s.core 0).deliver = none ∧ (s.core 0).sb = []
    ∧ s.badOf ((s.combineEls 0 g 0).flatMap (fun r => r.flatMap (·.2.2))) = none ∧ (MxD.parse g.mraw).status = 0 ∧ 0 < g.ks := by
  decide


/-- A PHASE whose plan lies at the foot of range 0. -/
def phaseD (va : Nat) : Desc := dsc 1 5 0 .fetched (leBytes 8 va)

/-- A plan of one entry: the range, its class and home, no change of its pin. -/
def plan (range cls home : Nat) : List Byte := leBytes 8 1 ++ [BitVec.ofNat 8 range, BitVec.ofNat 8 cls, BitVec.ofNat 8 home, 2] ++ zeros 4

/-- Every block is assigned: context 8 holds all of DRAM. -/
def fullWorld (bs : List Byte) : State :=
  let s := world [phaseD 0x4000000000] bs
  let r : Range := { Range.none with valid := true, kind := .device, vbase := 0x6000000000, target := 0, len := 2 ^ 40, perm := 1 }
  { s with ctxs := [(7, ctx7), (8, ⟨true, false, [(0, r)], []⟩)] }

theorem wit_PhaseMoves_plan :
    (∀ p ∈ [plan 1 0 0xFF, plan 1 3 0xFF, plan 0 0 0xFF, zeros 16 ++ zeros 0],
      let s := world [phaseD 0x4000000000] p
      s.desc? 1 = some (phaseD 0x4000000000) ∧ s.canStart (phaseD 0x4000000000) = true)
    ∧ (phaseD 0x4000000000).type = tyPhase ∧ (phaseD 0x4000000000).marks = [] ∧ (phaseD 0x4000000000).fld 0x10 8 % 8 = 0
    ∧ (phaseD 0x4000000004).fld 0x10 8 % 8 ≠ 0
    ∧ (∃ p0 pas, (world [phaseD 0x4000000000] (plan 1 0 0xFF)).xlateSpan 7 .other .read 0x4000000000 8 = .ok p0
      ∧ (world [phaseD 0x4000000000] (plan 1 0 0xFF)).xlateSpan 7 .other .read 0x4000000000 16 = .ok pas
      ∧ (∀ a ∈ p0 ++ pas, (world [phaseD 0x4000000000] (plan 1 0 0xFF)).sound a)
      ∧ (world [phaseD 0x4000000000] (plan 1 0 0xFF)).rdAt pas = plan 1 0 0xFF
      ∧ leNat (((world [phaseD 0x4000000000] (plan 1 0 0xFF)).rdAt p0).take 1) = 1)
    ∧ planOk (plan 1 0 0xFF) 1 = true ∧ planOk (plan 1 4 0xFF) 1 = false
    ∧ (planEnts (plan 1 0 0xFF) 1).any ((world [] []).planEntBad 7) = false
    ∧ (planEnts (plan 0 0 0xFF) 1).any ((world [] []).planEntBad 7) = true
    ∧ (∃ u, (world [] []).planAlloc 7 (planEnts (plan 1 0 0xFF) 1) = some u)
    ∧ (planEnts (plan 1 3 0xFF) 1).any ((fullWorld []).planEntBad 7) = false := by
  refine ⟨by decide, by decide, by decide, by decide, by decide,
    ⟨_, _, rfl, rfl, fun a _ => sound_of _ rfl rfl rfl a, by decide, by decide⟩, by decide, by decide,
    by decide, by decide, ⟨_, rfl⟩, by decide⟩

theorem full_none (as : List Blocks) (m : Dram) (cls home len : Nat) (sets : List Nat) (hs : ∀ x ∈ sets, x < 32768)
    (h : ∀ b, b < 2 ^ 24 → freeRun as (b, len) = false) : findRun m as cls home len sets = none := by
  have r : ∀ n b, b + n < 2 ^ 24 → runFrom as b len n = none := by
    intro n
    induction n with
    | zero => intro b _; rfl
    | succ k ih => intro b hb; rw [runFrom, h b (by omega)]; exact ih (b + 1) (by omega)
  have i : ∀ x ∈ sets, (runIn as x len).isSome = false := by
    intro x hx
    have := hs x hx
    rw [runIn, r _ _ (by omega)]; rfl
  have f : ∀ ok : Nat → Bool, sets.find? (fun x => ok x && (runIn as x len).isSome) = none := by
    intro ok
    rw [List.find?_eq_none]
    intro x hx
    simp [i x hx]
  simp [findRun, f]

/-- R314: with no block free the plan finds none. -/
theorem wit_PhaseMoves_limit : (fullWorld []).planAlloc 7 (planEnts (plan 1 3 0xFF) 1) = none := by
  have e : planEnts (plan 1 3 0xFF) 1 = [⟨1, 3, 0xFF, 2⟩] := by decide
  have a : (fullWorld []).alloc 3 0 1 = none := by
    rw [State.alloc, show segLens 1 = [1] from rfl, allocGo, full_none]
    · intro x hx
      have := List.mem_range.mp (List.mem_of_mem_drop hx)
      have : (fullWorld []).setsOpen = 32768 := rfl
      omega
    · intro b hb
      rw [freeRun, List.all_eq_false]
      refine ⟨(0, 16777216), by decide, ?_⟩
      simp [Blocks.meet]; omega
  rw [e, State.planAlloc]
  have m : PlanEnt.moves ⟨1, 3, 0xFF, 2⟩ (((fullWorld []).ctx 7).range 1) = true := by decide
  have l : (((fullWorld []).ctx 7).range 1).len / 65536 = 1 := by decide
  simp only [m, l, show (fullWorld []).homeFor 3 0xFF = 0 from rfl, a]
  rfl

/-- The range under a move, asked for or begun. -/
def moveState (st : Bool) (close : Bool) (n : Nat) : State :=
  let s := world [] []
  let m : Move := ⟨7, 1, 0, 0, 2, st, [0x4000000]⟩
  let c : Ctx := { ctx7 with ranges := [(1, { (ctx7.range 1) with switching := st })] }
  { s with ple := { s.ple with moveClose := close, moves := m :: List.replicate n ⟨9, 0, 0, 0, 2, true, []⟩ }, ctxs := [(7, c)] }

theorem wit_PhaseMoves :
    (moveState false true 0).ple.moveClose = true ∧ 8 ≤ ((moveState false false 8).ple.moves.filter (·.started)).length
    ∧ ((moveState false false 7).ple.moves.filter (·.started)).length < 8 ∧ (moveState false false 7).flt.svpStage < 2
    ∧ (moveState false false 7).working = true
    ∧ (moveState false false 0).ple.moves.find? (fun m => decide (m.ctx = 7) && decide (m.range = 1)) = some ⟨7, 1, 0, 0, 2, false, [0x4000000]⟩
    ∧ (moveState false false 0).dram.filling = [] ∧ (∀ d ∈ (moveState false false 0).qmg.descs, (moveState false false 0).descNames d 7 1 = false)
    ∧ Tab.wf Ctx.none (moveState false false 0).ctxs = true ∧ Tab.wf Range.none ((moveState false false 0).ctx 7).ranges = true
    ∧ (((moveState false false 0).ctx 7).range 1).valid = true
    ∧ (moveState true false 0).ple.moves.find? (fun m => decide (m.ctx = 7) && decide (m.range = 1) && m.started)
      = some ⟨7, 1, 0, 0, 2, true, [0x4000000]⟩
    ∧ ((moveState true false 0).inUse 7 [1] = false ∧ (moveState true false 0).trainsAt [0x3000000, 0x4000000] = false
      ∧ (((moveState false false 0).ctx 7).range 1).draining = false)
    ∧ (inLife .service).serves .ple := by
  simp only [State.serves]; decide

theorem wit_PhaseMoves_dst : ∀ a, (moveState true false 0).chanDead a = false := fun a => (sound_of _ rfl rfl rfl a).1

/-! ## Chapter 12: memory -/

theorem wit_AddressMap : (0 : Nat) < 2 ^ 39 ∧ 2 ^ 39 - 1 < 2 ^ 39 ∧ 255 < 256 ∧ 32640 * 2 ^ 24 - 1 < 32640 * 2 ^ 24 := by decide

/-- A read or a write of the first sector of line 0, channel 0's. -/
def readT (narrow : Bool) : Txn := ⟨narrow, 0, false, 0, 1, BitVec.allOnes 256, 1⟩
def writeT (narrow : Bool) : Txn := ⟨narrow, 1, true, 0, 1, BitVec.allOnes 256, 1⟩

/-- SERVICE with stack 0 changed. -/
def stack0 (f : Mcu → Mcu) : State := { world [] [] with mcu := f Mcu.reset :: List.replicate 7 Mcu.reset }
def chan0 (c : Chan) (m : Mcu) : Mcu := { m with ch := c :: List.replicate 31 Chan.reset }
def okMcu (s : State) : Bool := decide (s.mcu.length = 8) && s.mcu.all (fun m => decide (m.ch.length = 32))

theorem okMcu_iff (s : State) (h : okMcu s = true) : s.mcu.length = 8 ∧ ∀ m ∈ s.mcu, m.ch.length = 32 := by
  simpa [okMcu] using h

/-- The host may hold line 3. -/
def hostLine : State := { world [] [] with dram := { (world [] []).dram with dir := [(3, ⟨false, 0, true⟩)] } }

theorem wit_SlicesAndControllers :
    (∀ s ∈ [world [] [], hostLine], okMcu s = true ∧ Tab.wf DirEntry.none s.dram.dir = true ∧ Tab.wf NscLine.none s.dram.nsc = true)
    ∧ (Tab.get DirEntry.none hostLine.dram.dir 3).host = true ∧ (Tab.get DirEntry.none (world [] []).dram.dir 3).host = false
    ∧ (Tab.get NscLine.none [(3, { valid := 0xFF, dirty := 0, pinned := false, used := 0 })] 3).valid = 0xFF
    ∧ (stack0 (fun m => { m with waiting := [readT false, readT true] })).mcu[0]?.map (·.waiting[1]?) = some (some (readT true))
    ∧ (∀ x ∈ [readT false, readT true], x.cls < 4) ∧ (readT false).narrow = false
    ∧ (List.replicate 4095 (readT true)).length < 4096 ∧ 4096 ≤ (List.replicate 4096 (readT true)).length
    ∧ (List.replicate 12287 (readT false)).length < 12288 ∧ 12288 ≤ (List.replicate 12288 (readT false)).length
    ∧ (let s := stack0 (fun m => { m with normal := [readT false] })
       Mcu.txn? (s.stack 0) false 0 = some (readT false) ∧ s.slotGrant 0 false (readT false) ≠ none
         ∧ ∀ y ∈ (readT false).sectors, s.chanDead (32 * y) = false ∧ s.copied (32 * y) = false ∧ s.laterWrites 1 y = [])
    ∧ (let s := stack0 (fun m => { m with narrow := [writeT true], therm := .stopped })
       Mcu.txn? (s.stack 0) true 0 = some (writeT true) ∧ s.issuable 0 (writeT true) = false)
    ∧ (let s := stack0 (fun m => { m with narrow := [writeT true] })
       s.slotGrant 0 true (writeT true) ≠ none ∧ ∀ c ∈ s.chansOf (writeT true), (s.chan c).st ≠ .retraining)
    ∧ (∀ x ∈ [(2047, true), (2048, false)],
        let s := stack0 (fun m => { chan0 { Chan.reset with st := .retraining, buffered := List.replicate x.1 (writeT false) } m with
          narrow := [writeT true] })
        s.slotGrant 0 true (writeT true) ≠ none ∧ s.chansOf (writeT true) = [] ++ 0 :: [] ∧ (s.chan 0).st = .retraining
        ∧ decide (((s.chan 0).buffered.map Txn.bytes).sum + 32 ≤ 65536) = x.2) := by
  refine ⟨by decide, by decide, by decide, by decide, by decide, by decide, by decide, ?_, ?_, ?_, ?_, by decide, by decide, by decide,
    by decide +kernel⟩
  · rw [List.length_replicate] <;> decide
  · rw [List.length_replicate] <;> decide
  · rw [List.length_replicate] <;> decide
  · rw [List.length_replicate] <;> decide

/-- Line 3 lies in its slice. -/
def cachedLine : State :=
  { world [] [] with dram := { (world [] []).dram with nsc := [(3, { valid := 0xFF, dirty := 0, pinned := false, used := 0 })] } }

theorem wit_ScrubAndSram :
    okMcu (world [] []) = true ∧ (world [] []).asleep 0 = false ∧ ((world [] []).chan 0).st ≠ .retraining
    ∧ (world [] []).patrolSector 0 0 = some 0 ∧ (world [] []).chanDead 0 = false ∧ (world [] []).copied 0 = false
    ∧ (world [] []).laterWrites 0 0 = [] ∧ (inLife .held).asleep 0 = true ∧ (stack0 (fun m => { m with therm := .stopped })).asleep 0 = true
    ∧ cachedLine.inSlice (32 * 24) = true
    ∧ spadBase 63 / 32 ≤ spadBase 63 / 32 + 0x1FFFF ∧ 32 * (dramTop / 32 - 1) < dramTop ∧ 63 < (world [] []).cores.length
    ∧ (pk loadCore).cores.length = 64 ∧ ((pk loadCore).core 0).sb[0]?.isSome = true
    ∧ 1 < ((pk loadCore).core 0).sce.length
    ∧ Tab.wf LogRec.none (world [] []).flt.log = true := by decide

/-- Channel 5 of stack 0 retrains. -/
def retrains (st : ChanSt) : State :=
  stack0 (fun m => { m with ch := (List.replicate 32 Chan.reset).set 5 { Chan.reset with st := st, failed := decide (st = .failedReadable) }
                            retraining := if st = .retraining then some 5 else none, turn := 5 })

theorem wit_Retraining :
    (∀ st ∈ [ChanSt.ready, .retraining, .failedReadable, .failedUnreadable], okMcu (retrains st) = true
      ∧ (retrains st).serves (.mcu 0) ∧ ((retrains st).stack 0).cmd.busy = false ∧ (retrains st).dev.frost = false
      ∧ ((retrains st).chan (32 * 0 + 5)).st = st ∧ (retrains st).asleep 0 = false)
    ∧ (stack0 (fun m => { m with therm := .stopped })).stopped 0 = true
    ∧ (let s := retrains .retraining
       ¬(({ s with now := 20 } : State).now < ((s.chan 5).retrainTimes.headD 0 + 20)) ∧ s.now < (s.chan 5).retrainTimes.headD 0 + 20)
    ∧ ((retrains .ready).stack 0).retraining = none ∧ ((retrains .ready).stack 0).turn = 5 ∧ ((retrains .ready).chan 5).failed = false
    ∧ ((retrains .ready).chan 5).retrains ≠ 0xFFFF ∧ ((retrains .retraining).stack 0).retraining = some 5
    ∧ ((retrains .retraining).stack 0).retrainWait = [] ∧ ((retrains .retraining).chan 5).retrainTimes.length < 8
    ∧ (retrains .retraining).flt.squall = false ∧ (retrains .retraining).flt.unread < 1023 ∧ (retrains .retraining).excl.inForce = none
    ∧ (∃ pa, pa < dramTop ∧ ((retrains .retraining).chanOf pa).ch = 5 ∧ (retrains .retraining).copied pa = false) := by
  refine ⟨?_, by decide, by decide, by decide, by decide, by decide, by decide, by decide, by decide, by decide, by decide, by decide,
    by decide, ⟨5 * 256, by decide⟩⟩
  simp only [State.serves]; decide

/-- R348: a channel that is retrained is ready again; one whose retrain times out reads as poison. -/
theorem test_retrain : gives (exec (.retrainComplete ⟨0, []⟩) (retrains .retraining)) (fun t => decide ((t.chan 5).st = .ready)) = true
    ∧ gives (exec (.retrainTimeout 0) { retrains .retraining with now := 20 }) (fun t => t.bad (5 * 256) && decide ((t.chan 5).st = .failedUnreadable)) = true := by
  decide

/-- A failed channel with its groups evacuated, the engine quiet, the exclusion at a row. -/
def excluding (retiring close : Bool) (copying inForce : Option Nat) (row : Nat) : State :=
  let s := retrains .failedUnreadable
  { s with excl := ⟨retiring, copying, false, row, inForce⟩, ple := { s.ple with cellClose := close, moveClose := close } }

/-- A retiring group is assigned still. -/
def retiringWorld : State :=
  let r : Range := { Range.none with valid := true, kind := .device, vbase := 0x6000000000, target := 0x7F80000000, len := 65536 }
  { excluding true false none none 0 with ctxs := [(8, ⟨true, false, [(0, r)], []⟩)] }

theorem wit_ChannelExclusion :
    (∀ s ∈ [excluding false false none none 0, excluding true false none none 0, excluding true true none none 0,
        excluding true true none (some 7) 0],
      okMcu s = true ∧ s.serves (.mcu 0) ∧ (s.stack 0).cmd.busy = false ∧ s.dev.frost = false
      ∧ (s.chan (32 * 0 + 5)).st = .failedUnreadable ∧ (∀ k, k < 8 → s.stopped k = false))
    ∧ (retiringWorld.evacDone = false ∧ okMcu retiringWorld = true ∧ (retiringWorld.chan 5).st = .failedUnreadable
      ∧ retiringWorld.dev.frost = false ∧ ∀ k, k < 8 → retiringWorld.stopped k = false)
    ∧ (excluding true false none none 0).evacDone = true
    ∧ (excluding true true none none 0).ple.idle = true ∧ (excluding true true none (some 7) 0).excl.inForce ≠ none
    ∧ (∀ row ∈ [0, 32639], (excluding true true (some 5) none row).excl.copying = some 5
      ∧ (excluding true true (some 5) none row).copyWaits 5 = false ∧ (excluding true true (some 5) none row).excl.row = row) := by
  refine ⟨?_, by decide, by decide, by decide, by decide, by decide⟩
  simp only [State.serves]; decide

/-- The copy of a channel that cannot be read: its first row has a sector that no cache holds. -/
def copyingDead : State :=
  let s := excluding true true (some 5) none 0
  { s with excl := { s.excl with dead := true } }

theorem wit_ChannelExclusion_dead : copyingDead.excl.copying = some 5 ∧ copyingDead.excl.dead = true ∧ copyingDead.copyWaits 5 = false
    ∧ okMcu copyingDead = true
    ∧ (copyingDead.rowSectors 5 0).any (fun k => !copyingDead.copied (32 * k)) = true := by
  refine ⟨by decide, by decide, by decide, by decide, by decide +kernel⟩

/-! ## Chapter 13: contexts and translation -/

theorem wit_Translation :
    (∃ p, ctx7.xlate .other .read 0x4000000000 = .ok p) ∧ (∃ p, ctx7.xlate .other .write 0x40000FFFFF = .ok p)
    ∧ (∀ e ∈ ctx7.ranges, e.2.has 0x4000100000 = false) ∧ (ctx7.range 2).has 0x400020FFFF = true
    ∧ (ctx7.range 2).perm.getLsbD Need.write.bit = false ∧ (∃ k v i, (world [] []).xlateSpan 7 .other .read 0x40000FFFFF 2 = .fault k v i)
    ∧ (Ctx.range ⟨true, false, [(0, { ctx7.range 0 with draining := true })], []⟩ 0).has 0x4000000000 = true :=
  ⟨⟨_, rfl⟩, ⟨_, rfl⟩, by decide, by decide, by decide, ⟨_, _, _, rfl⟩, by decide⟩

/-- The argument of a range: base, length, target, kind, permissions, class and home. -/
def rangeArg (vbase len tgt kind perm cls home : Nat) : List Word :=
  [BitVec.ofNat 64 vbase, BitVec.ofNat 64 len, BitVec.ofNat 64 tgt, BitVec.ofNat 64 (kind + 256 * perm + 65536 * cls + 2 ^ 24 * home)]

def withArg (a : List Word) (clean : List Nat) : State :=
  let s := world [] []
  { s with xlt := { s.xlt with arg := a }, dram := { s.dram with clean := clean } }

def argR (kind tgt : Nat) : List Word := rangeArg 0x7000000000 65536 tgt kind 3 0xFF 0xFF

theorem wit_ContextsAndRanges :
    (∀ a ∈ [argR 0 0x5000000, argR 0 0x10000, argR 1 0, argR 2 7, argR 3 0, rangeArg 0x4000000000 65536 0x5000000 0 3 0xFF 0xFF],
      (withArg a []).serves .xlt ∧ (withArg a []).xlt.cmd.busy = false ∧ Tab.wf Ctx.none (withArg a []).ctxs = true
      ∧ (withArg a []).rangeArgOk (argBytes a) = true)
    ∧ (∀ c, Tab.wf Range.none ((world [] []).ctx c).ranges = true)
    ∧ (world [] []).img (·.maxCtx) = 16 ∧ (world [] []).img (·.rangesPerCtx) = 16
    ∧ ((world [] []).ctx 7).live = true ∧ ((world [] []).ctx 8).live = false
    ∧ ((world [] []).ctxs.filter (fun e => e.2.live)).length < 16
    ∧ (({ world [] [] with ctxs := (List.range 16).map (fun c => (c, ctx7)) } : State).ctxs.filter (fun e => e.2.live)).length = 16
    ∧ ((world [] []).ctx 7).range 0 ≠ Range.none ∧ (((world [] []).ctx 7).range 5).valid = false
    ∧ (withArg (rangeArg 0x7000000000 65536 0 0 7 0xFF 0xFF) []).rangeArgOk (argBytes (rangeArg 0x7000000000 65536 0 0 7 0xFF 0xFF)) = false
    ∧ ((world [] []).ctx 7).vOverlap ((world [] []).rangeOf (argBytes (argR 0 0x5000000))) 64 = false
    ∧ ((world [] []).ctx 7).vOverlap ((world [] []).rangeOf (argBytes (rangeArg 0x4000000000 65536 0x5000000 0 3 0xFF 0xFF))) 64 = true
    ∧ (world [] []).deviceBlocksBad (world [] []).assigned (0x5000000 / 65536) 1 = false
    ∧ (world [] []).deviceBlocksBad (world [] []).assigned (0x10000 / 65536) 1 = true
    ∧ nsHas (withArg (argR 0 0x5000000) [0x500]).dram.clean 0x500 = true ∧ nsHas (withArg (argR 0 0x5000000) []).dram.clean 0x500 = false
    ∧ (let s := world [] []
       let t : State := { s with xlt := { s.xlt with creating := some (7, 5, s.rangeOf (argBytes (argR 0 0x5000000))), fillWait := [0x500] } }
       t.xlt.creating = some (7, 5, s.rangeOf (argBytes (argR 0 0x5000000))) ∧ t.dram.filling = [] ∧ Mem.wf t.dram.bytes = true) := by
  have r : ∀ c, Tab.wf Range.none ((world [] []).ctx c).ranges = true := by
    intro c
    have e : (world [] []).ctx c = Tab.get Ctx.none [(7, ctx7)] c := rfl
    rw [e]
    by_cases h : c = 7
    · subst h; decide
    · have : Tab.get Ctx.none [(7, ctx7)] c = Ctx.none := by simp only [Tab.get, h]; simp
      rw [this]; rfl
  refine ⟨?_, r, ?_⟩
  · simp only [State.serves]; decide
  · decide

/-- Some blocks are found for a placed range of 64 KiB, and none on a full device. -/
theorem wit_ContextsAndRanges_alloc : ((world [] []).alloc 0 0 1).isSome = true ∧ (fullWorld []).alloc 0 0 1 = none := by
  constructor
  · decide +kernel
  · rw [State.alloc, show segLens 1 = [1] from rfl, allocGo, full_none]
    · intro x hx
      have := List.mem_range.mp (List.mem_of_mem_drop hx)
      have : (fullWorld []).setsOpen = 32768 := rfl
      omega
    · intro b hb
      rw [freeRun, List.all_eq_false]
      refine ⟨(0, 16777216), by decide, ?_⟩
      simp [Blocks.meet]; omega


/-- A drain under way. -/
def drains (rs : List Nat) (d : Drain) : State :=
  let s := world [] []
  { s with xlt := { s.xlt with drain := some (7, rs, d), cmd := ⟨true, false, false, 6, 0⟩ } }


/-- The range 0 with the class and home bytes that its argument gives, in a context with no queue. -/
def plainXlt (a : List Word) : State :=
  let s := world [] []
  let r0 : Range := { ctx7.range 0 with clsByte := 0xFF, homeByte := 0xFF }
  { s with xlt := { s.xlt with arg := a }, ctxs := [(7, { ctx7 with ranges := [(0, r0)] })], qmg := { s.qmg with queues := [] } }

theorem wit_InvalidateAndDrain :
    ((world [] []).serves .xlt ∧ (world [] []).xlt.cmd.busy = false ∧ Tab.wf WinEntry.none (world [] []).xlt.win = true
      ∧ 7 < (world [] []).img (·.maxCtx) ∧ 0 < (world [] []).img (·.rangesPerCtx) ∧ 15 < (world [] []).img (·.rangesPerCtx)
      ∧ ((world [] []).ctx 7).live = true ∧ (((world [] []).ctx 7).range 0).valid = true)
    ∧ (moveState true false 0).rangeBusy 7 1 = true ∧ (world [] []).rangeBusy 7 1 = false
    ∧ (withArg [BitVec.ofNat 64 (2 ^ 1), 0, 0, 0] []).xlt.arg.getD 0 0 = BitVec.ofNat 64 (2 ^ 1)
    ∧ (let a := rangeArg 0x4000000000 0x80000 0x2000000 0 1 0xFF 0xFF
       let s := plainXlt a
       let n := s.rangeOf (argBytes a)
       s.rangeArgOk (argBytes a) = true ∧ n.vbase = ((s.ctx 7).range 0).vbase ∧ n.target = ((s.ctx 7).range 0).target
       ∧ n.kind = ((s.ctx 7).range 0).kind ∧ n.clsByte = ((s.ctx 7).range 0).clsByte ∧ n.homeByte = ((s.ctx 7).range 0).homeByte
       ∧ n.len ≤ ((s.ctx 7).range 0).len)
    ∧ (withArg (argR 0 0x5000000) []).rangeOf (argBytes (argR 0 0x5000000)) ≠ ctx7.range 0
    ∧ (∃ e ∈ (world [] []).qmg.queues, e.2.st ≠ .absent ∧ e.2.ctx = 7)
    ∧ ((∀ e ∈ (plainXlt []).qmg.queues, e.2.st = .absent) ∧ ∀ e ∈ ((plainXlt []).ctx 7).ranges, (plainXlt []).rangeBusy 7 e.1 = false)
    ∧ (∀ x ∈ [([0, 1, 2], Drain.invalidate), ([1], .destroy 1), ([0], .change 0 65536 1), ([0], .change 0 0x200000 3),
        ([], .winClose 16383), ([0, 1, 2], .destroyCtx)],
      (drains x.1 x.2).xlt.drain = some (7, x.1, x.2) ∧ (drains x.1 x.2).inUse 7 x.1 = false ∧ (drains x.1 x.2).xlt.unresolved = [])
    ∧ (let s := drains [0] .invalidate
       let c : Core := { Core.reset with ctxValid := true, ctx := 7, sb := [⟨0x4000000010, 8, [], false⟩] }
       ({ s with cores := [c] } : State).inUse 7 [0] = true) := by
  simp only [State.serves]; decide

/-- R372: a growth whose new blocks are not clean waits for zero-fill. -/
theorem wit_InvalidateAndDrain_growth :
    let s := drains [0] (.change 0 0x200000 3)
    ((s.ctx 7).range 0).valid = true ∧ ((s.ctx 7).range 0).len < 0x200000
    ∧ gives (exec .invalidateDrainEnd s) (fun t => t.xlt.cmd.busy) = true := by decide +kernel

/-- R371, R372: the end of an INVALIDATE gives the range back. -/
theorem test_invalidate : gives (exec .invalidateDrainEnd (drains [1] .invalidate)) (fun t =>
    decide (t.xlt.drain = none) && decide (t.xlt.cmd = ⟨false, false, true, 6, 0⟩)) = true := by decide

/-- WIN_OPEN's argument: OFFSET, LENGTH, PORTS and PERM. -/
def winArg : List Word := [0x10000, 0x20000, BitVec.ofNat 64 (0x20 + 65536 * 3), 0]

def fault1 (who : List Waiter) (change : Bool) : Unresolved := ⟨{ FaultRec.none with fid := 5, ctx := 7, change := change }, who, 0⟩

/-- A descriptor that waits on fault record 5. -/
def waits (a : List Word) : State :=
  let s := world [{ dsc 1 3 0 .running [] with waiting := true }] []
  { s with xlt := { s.xlt with arg := a, unresolved := [fault1 [.desc 1] false] } }

theorem wit_WindowsFaultsBuffers :
    (let s := withArg winArg []
     let a := argBytes winArg
     s.serves .xlt ∧ s.xlt.cmd.busy = false ∧ leAt a 0 8 % 65536 = 0 ∧ leAt a 8 8 % 65536 = 0 ∧ 65536 ≤ leAt a 8 8 ∧ leAt a 0x10 2 ≠ 0
     ∧ leAt a 0x12 1 < 4 ∧ leAt a 0x13 13 = 0 ∧ leAt a 0 8 + leAt a 8 8 ≤ ((s.ctx 7).range 0).len
     ∧ ((s.ctx 7).range 0).kind = .device ∧ ((s.ctx 7).range 0).perm.getLsbD 0 = true ∧ ((s.ctx 7).range 0).perm.getLsbD 1 = true
     ∧ (Tab.get WinEntry.none s.xlt.win 16383).valid = false
     ∧ (Tab.get WinEntry.none [(16383, { WinEntry.none with valid := true })] 16383).valid = true)
    ∧ (∀ a ∈ [[(5 : Word), 0, 0, 0], [5 + 2 ^ 32, 0, 0, 0]],
      (waits a).xlt.unresolved = [fault1 [.desc 1] false] ∧ (fault1 [.desc 1] false).rcd.fid = (a.getD 0 0).toNat % 2 ^ 32
      ∧ ((waits a).desc? 1).map (·.st) = some .running ∧ ((waits a).desc? 1).map (·.marks) = some [])
    ∧ (∀ u ∈ (waits [6, 0, 0, 0]).xlt.unresolved, u.rcd.fid ≠ 6)
    ∧ (∀ n ∈ [0, 255], ({ (world [] []).xlt with unrecorded := [fault1 [] false], fqTail := n } : Xlt).unrecorded = fault1 [] false :: [])
    ∧ ({ (world [] []).xlt with fqTail := 254 } : Xlt).fqRoom = true ∧ ({ (world [] []).xlt with fqTail := 255 } : Xlt).fqRoom = false
    ∧ (let c : Core := { Core.reset with run := .running, ctxValid := true, ctx := 7, work := .cell 1 0 }
       let s := pk c
       0 < s.cores.length ∧ (s.core 0).run = .running ∧ (s.core 0).ctxValid = true ∧ (s.core 0).ending = false ∧ (s.core 0).deliver = none
       ∧ (s.core 0).work.grid? = some 1 ∧ s.xlt.fqRoom = true ∧ s.xlt.unrecorded = [])
    ∧ (8 < (world [] []).xlt.rtb.length ∧ (((world [] []).ctx 7).range 0).draining = false
      ∧ ((world [] []).xlt.rtb.getD 8 []).contains (7 * 64) = false ∧ (world [] []).sound (32 * (64 * 7 + 0))) := by
  simp only [State.serves, State.sound]; decide

/-! ## Chapter 14: queues, descriptors, the host and the function -/

/-- The world with queue 100 in another state. -/
def withQ (f : Queue → Queue) (ds : List Desc) : State :=
  let s := world ds []
  { s with qmg := { s.qmg with queues := [(100, f queue7)], arg := [0x10000, 0x20000, 8 + 65536, 0] } }

theorem wit_QueueCommands :
    (let s := withQ (fun x => x) []
     s.serves .qmg ∧ Tab.wf Queue.none s.qmg.queues = true ∧ Tab.wf Ctx.none s.ctxs = true ∧ s.qmg.cmd.busy = false
     ∧ s.img (·.totalQueues) ≤ 128 ∧ 127 < s.img (·.totalQueues) ∧ 100 < s.img (·.totalQueues) ∧ 7 < s.img (·.maxCtx) ∧ 2 < s.img (·.queuesPerCtx)
     ∧ qArgOk (argBytes s.qmg.arg) = true ∧ (s.ctx 7).live = true ∧ (s.ctx 8).live = false ∧ (s.ctx 7).killed = false
     ∧ (s.queue 127).st = .absent ∧ (s.queue 100).st = .opened ∧ (∀ e ∈ s.queuesOf 7, e.2.slot ≠ 3)
     ∧ (s.queuesOf 7).length < s.img (·.queuesPerCtx) ∧ (({ s with qmg := { s.qmg with ctxSel := 7 } } : State).ctx 7).live = true)
    ∧ (let s := withQ (fun x => { x with st := .dead }) [kernelD]
       s.inflight 100 ≠ [] ∧ (s.queue 100).st ≠ .absent)
    ∧ (∀ st ∈ [QState.closed, .dead], (withQ (fun x => { x with st := st }) []).inflight 100 = []
        ∧ ((withQ (fun x => { x with st := st }) []).queue 100).st = st) := by
  simp only [State.serves]; decide

theorem wit_QueueActions :
    (∀ st ∈ [QState.opened, .closing, .aborting, .closed, .dead],
      let s := withQ (fun x => { x with st := st }) [kernelD]
      s.serves .qmg ∧ Tab.wf Queue.none s.qmg.queues = true ∧ (s.queue 100).st = st ∧ (s.queue 99).st = .absent
      ∧ (∀ d ∈ s.inflight 100, d.st = .fetched ∧ d.marks = []) ∧ (s.qmg.descs.map (·.id)).Nodup) := by
  simp only [State.serves]; decide

/-- Table 8 of 14: CLOSE with a descriptor in flight. -/
theorem test_close : gives (exec (.close 100) (withQ (fun x => x) [kernelD])) (fun t =>
    decide ((t.queue 100).st = .closing) && decide (t.qmg.qctlCode = 0)) = true := by decide

theorem wit_Doorbells :
    (let s := withQ (fun x => { x with log2 := 6, tail := 60, head := 60 }) []
     s.decodes = true ∧ s.dev.life = .service ∧ Tab.wf Queue.none s.qmg.queues = true ∧ s.slotQueue 7 3 = none ∧ s.slotQueue 6 2 = none
     ∧ s.slotQueue 7 2 = some (100, s.queue 100) ∧ (s.queue 100).st ≠ .dead
     ∧ ((60 + 64 - 60) % 64 + (s.inflight 100).length) + (59 + 64 - 60) % 64 ≤ 63)
    ∧ (let s := withQ (fun x => { x with st := .dead }) []
       (s.slotQueue 7 2).map (fun p => p.2.st) = some .dead) := by
  decide

/-- R392: 63 slots may be occupied in a ring of 64, no more. -/
theorem test_doorbell :
    gives (exec (.sqTailWrite 7 2 59) (withQ (fun x => { x with log2 := 6, tail := 60, head := 60 }) [])) (fun t =>
      decide ((t.queue 100).tail = 59) && !(t.queue 100).overrun)
    && gives (exec (.sqTailWrite 7 2 59) (withQ (fun x => { x with log2 := 6, tail := 60, head := 59 }) [])) (fun t =>
      decide ((t.queue 100).tail = 60) && (t.queue 100).overrun)
    && gives (exec (.sqTailWrite 7 2 64) (withQ (fun x => { x with log2 := 6, tail := 60, head := 60 }) [])) (fun t =>
      (t.queue 100).overrun) = true := by decide

/-- Queue 100 with one descriptor beyond the doorbell and the host able to be read. -/
def fetches (ds : List Desc) : State :=
  let s := withQ (fun x => { x with tail := 1 }) ds
  { s with host := { s.host with busMaster := true }, qmg := { s.qmg with cached := [100], reading := [99] } }

def endedD : Desc := { kernelD with st := .ended, status := stCancelled, detail := 3 }

/-- Queue 100 with a descriptor that ended, its completion ring holding n unread records. -/
def ends (n : Nat) : State :=
  let s := withQ (fun x => { x with log2 := 6, cqTail := n }) [endedD]
  { s with host := { s.host with busMaster := true }, qmg := { s.qmg with ended := [1] } }

theorem wit_DescriptorFlow :
    (let s := fetches []
     Tab.wf Queue.none s.qmg.queues = true ∧ s.working = true ∧ s.host.busMaster = true ∧ s.host.d3hot = false
     ∧ s.fetchable 100 (s.queue 100) = true ∧ s.qmg.cached.contains 100 = true ∧ s.qmg.lastServed < 100
     ∧ s.qmg.reading.contains 99 = true ∧ (∀ k ∈ s.storeSectors 99, s.chanDead (32 * k) = false) ∧ s.qmg.cached.length < 8192)
    ∧ (let d := { dsc 5 0 0 .reading [] with raw := [] }
       let s := fetches [d]
       s.desc? 5 = some d ∧ d.st = .reading ∧ d.stop = false ∧ d.marks = [] ∧ descOk kernelD.raw = true ∧ kernelD.raw.length = 64
       ∧ descOk (zeros 64) = false ∧ (zeros 64).length = 64)
    ∧ (∀ n ∈ [0, 62, 63], let s := ends n
       (s.qmg.ended.filterMap s.desc?).find? (fun x => decide (x.queue = 100)) = some endedD ∧ s.host.busMaster = true
       ∧ s.host.d3hot = false ∧ s.pcm.softBusy = false ∧ Mem.wf s.host.mem = true)
    ∧ ((ends 62).queue 100).cqUsed < 2 ^ ((ends 62).queue 100).log2 - 1
    ∧ 2 ^ ((ends 63).queue 100).log2 - 1 ≤ ((ends 63).queue 100).cqUsed := by decide

theorem wit_DescriptorFlow_next (k : Nat) : (fetches []).fetchable k ((fetches []).queue k) = true → k = 100 := by
  intro h
  by_cases hk : k = 100
  · exact hk
  · exfalso
    have : (fetches []).queue k = Queue.none := by
      show Tab.get Queue.none [(100, _)] k = _
      simp only [Tab.get]
      split
      · rfl
      · rfl
    rw [this] at h
    simp [State.fetchable, Queue.none] at h

/-- FENCE, WAIT (a word of value 0x55 or more), SIGNAL (ADD of 7) and TIMER (100 us). -/
def fenceD : Desc := dsc 1 6 0 .fetched []
def waitD (at_ cond : Nat) : Desc := dsc 1 7 0 .fetched (leBytes 8 at_ ++ leBytes 8 0x55 ++ leBytes 1 cond)
def signalD (at_ op : Nat) : Desc := dsc 1 8 0 .fetched (leBytes 8 at_ ++ leBytes 8 7 ++ leBytes 1 op)
def timerD : Desc := dsc 1 10 0 .fetched (leBytes 4 100)
def runD (d : Desc) : Desc := { d with st := .running }

/-- The word at the foot of range 0 is 0x55; the first n timers are armed. -/
def timed (d : Desc) (n : Nat) : State :=
  let s := world [d] (leBytes 8 0x55)
  { s with pcm := { s.pcm with timers := List.replicate n ⟨some 5, some 9, false⟩ ++ s.pcm.timers.drop n } }

theorem wit_SimpleDescriptors :
    (∀ d ∈ [fenceD, waitD 0x4000000000 0, waitD 0x4000000000 1, waitD 0x4000000000 2, signalD 0x4000000000 0, signalD 0x4000000000 1,
        waitD 0x1000 0, signalD 0x1000 0, timerD],
      (world [d] (leBytes 8 0x55)).desc? 1 = some d ∧ d.marks = [] ∧ (world [d] (leBytes 8 0x55)).canStart d = true)
    ∧ fenceD.type = tyFence ∧ (waitD 0x4000000000 0).type = tyWait ∧ (signalD 0x4000000000 0).type = tySignal ∧ timerD.type = tyTimer
    ∧ Mem.wf (world [fenceD] (leBytes 8 0x55)).dram.bytes = true
    ∧ (∀ c ∈ [0, 1, 2], (waitD 0x4000000000 c).fld 0x10 8 = 0x4000000000 ∧ (waitD 0x4000000000 c).fld 0x18 8 = 0x55
        ∧ (waitD 0x4000000000 c).fld 0x20 1 = c)
    ∧ ((world [fenceD] []).ctx 7).at_ (0x1000 % 2 ^ 64) = none
    ∧ (∀ n ∈ [0, 1, 15], ((timed timerD n).pcm.timers[n]?).map (fun x => (x.due, x.held)) = some (none, none))
    ∧ (∀ y ∈ (timed timerD 1).pcm.timers.take 1, y.due ≠ none)
    ∧ (∀ x ∈ (timed timerD 16).pcm.timers, x.due ≠ none) ∧ (timed timerD 16).pcm.timers.length = 16 ∧ timerD.ready = false
    ∧ (let d := runD (waitD 0x4000000000 0)
       (world [d] []).desc? 1 = some d ∧ d.st = .running ∧ d.waiting = false ∧ (world [d] []).working = true) := by decide

/-- The word's bytes of WAIT and SIGNAL translate and are readable. -/
theorem wit_SimpleDescriptors_word :
    (∃ pas pw, (world [fenceD] (leBytes 8 0x55)).xlateSpan 7 .other .read 0x4000000000 8 = .ok pas
      ∧ (world [fenceD] (leBytes 8 0x55)).xlateSpan 7 .other .write 0x4000000000 8 = .ok pw ∧ pas = pw ∧ pas.length = 8 ∧ pas.Nodup
      ∧ (∀ a ∈ pas, (world [fenceD] (leBytes 8 0x55)).sound a)
      ∧ leNat ((world [fenceD] (leBytes 8 0x55)).rdAt pas) = 0x55) :=
  ⟨_, _, rfl, rfl, by decide, by decide, by decide, fun a _ => sound_of _ rfl rfl rfl a, by decide⟩

/-- The sectors of the queue-state store and of the range table are sound, and the host holds no line. -/
theorem wit_queue_sound (ds : List Desc) (bs : List Byte) : (∀ a, (fetches ds).sound a) ∧ (∀ vas, (world ds bs).ctxSound 7 vas)
    ∧ (∀ a, (world ds bs).sound a) ∧ (world ds bs).unheld :=
  ⟨fun a => sound_of _ rfl rfl rfl a, fun _ _ _ => sound_of _ rfl rfl rfl _, fun a => sound_of _ rfl rfl rfl a, fun _ => rfl⟩

/-- R400, R401: ADD, and the DETAIL. -/
theorem test_signal : gives (exec (.signal 1) (world [signalD 0x4000000000 1] (leBytes 8 0x55))) (fun t =>
    decide (t.rdByte 0x2000000 = 0x5C) && decide (t.qmg.descs.map (fun d => (d.st, d.detail.toNat)) = [(.ended, 0x55)])) = true := by
  decide +kernel

/-- COPY of n bytes from the foot of range 0 to dst. -/
def copyD (src dst n : Nat) : Desc := dsc 1 3 0 .fetched (leBytes 8 src ++ leBytes 8 dst ++ leBytes 8 n)

/-- The same with its first chunk begun. -/
def copyR (dst n : Nat) (stop : Bool) : Desc :=
  { copyD 0x4000000000 dst n with st := .running, ready := true, detail := BitVec.ofNat 64 n, stop := stop, marks := if stop then [stCancelled] else [] }

theorem no_window (ds : List Desc) (bs : List Byte) (a : Nat) : ((world ds bs).windowAt 7 a).isSome = false := by
  have hk : ∀ r, (∃ i, ((world ds bs).ctx 7).at_ a = some (i, r)) → r.kind ≠ .window := by
    rintro r ⟨i, h⟩
    have hm : (i, r) ∈ ctx7.ranges := List.mem_of_find?_eq_some h
    simp only [ctx7, List.mem_cons, List.not_mem_nil, or_false, Prod.mk.injEq] at hm
    rcases hm with ⟨_, rfl⟩ | ⟨_, rfl⟩ | ⟨_, rfl⟩ <;> decide
  unfold State.windowAt
  split
  · rename_i i r h
    simp [hk r ⟨i, h⟩]
  · rfl

theorem wit_CopyDescriptor :
    (∀ d ∈ [copyD 0x4000000000 0x4000000004 8, copyD 0x4000000000 0x4000000008 8, copyD 0x4000000008 0x4000000000 8],
      (world [d] []).desc? 1 = some d ∧ d.type = tyCopy ∧ (world [d] []).canStart d = true ∧ d.pos = 0 ∧ d.marks = []
      ∧ d.fld 0x20 8 = 8 ∧ d.ctx = 7)
    ∧ (let d := copyD 0x4000000000 0x4000000004 8
       d.fld 0x10 8 < d.fld 0x18 8 + d.fld 0x20 8 ∧ d.fld 0x18 8 < d.fld 0x10 8 + d.fld 0x20 8)
    ∧ (let d := copyD 0x4000000000 0x4000000008 8
       d.fld 0x10 8 + d.fld 0x20 8 ≤ d.fld 0x18 8)
    ∧ (∃ ps pd : List Nat, (world [] []).xlateSpan 7 .copy .read 0x4000000000 8 = .ok ps
        ∧ (world [] []).xlateSpan 7 .copy .write 0x4000000008 8 = .ok pd
        ∧ ((world [] []).ctx 7).held.span .copy .read (vAddrs 0x4000000000 8) = .ok ps
        ∧ ((world [] []).ctx 7).held.span .copy .write (vAddrs 0x4000000008 8) = .ok pd
        ∧ ps.length = pd.length ∧ pd.Nodup ∧ (∀ a ∈ pd, (world [] []).chanDead a = false)
        ∧ (∀ e ∈ ((world [] []).ctx 7).ranges, ∀ a ∈ pd, a / 32 ≠ 64 * 7 + e.1))
    ∧ (∀ stop ∈ [false, true], let d := copyR 0x4000000008 8 stop
       let s := world [d] (leBytes 8 0x1234)
       s.desc? 1 = some d ∧ d.type = tyCopy ∧ d.st = .running ∧ d.ready = true ∧ d.waiting = false ∧ s.winsOf 1 = []
       ∧ d.detail.toNat = 8 ∧ d.pos = (d.detail.toNat - 1) / 65536 * 65536 ∧ d.detail.toNat ≤ d.fld 0x20 8 ∧ d.fld 0x10 8 + d.fld 0x20 8 ≤ 2 ^ 64
       ∧ d.fld 0x18 8 + d.fld 0x20 8 ≤ 2 ^ 64 ∧ d.fld 0x20 8 = 8 ∧ Mem.wf s.dram.bytes = true ∧ d.stop = stop) := by
  refine ⟨by decide, by decide, by decide, ⟨_, _, rfl, rfl, rfl, rfl, by decide, by decide,
    fun a _ => (sound_of _ rfl rfl rfl a).1, by decide⟩, by decide⟩

theorem wit_CopyDescriptor_stopped :
    let d : Desc := { copyR 0x4000000008 16 true with detail := 8 }
    d.type = tyCopy ∧ d.st = .running ∧ d.ready = true ∧ d.detail.toNat < d.fld 0x20 8 ∧ d.pos = (d.detail.toNat - 1) / 65536 * 65536
    ∧ d.stop = true ∧ (world [d] []).desc? 1 = some d ∧ d.fld 0x18 8 + d.fld 0x20 8 ≤ 2 ^ 64 := by decide

/-- R398: a chunk of 8 bytes. -/
theorem test_copyChunk : gives (exec (.copyChunkDone 1) (world [copyR 0x4000000008 8 false] (leBytes 8 0x1234))) (fun t =>
    decide (t.rdByte 0x2000008 = 0x34) && decide (t.rdByte 0x2000009 = 0x12)
      && decide (t.qmg.descs.map (fun d => (d.st, d.status)) = [(.ended, stOk)])) = true := by decide +kernel

/-- Range 0 host-mapped with the given permissions, under decoder 0 committed over the whole DRAM. -/
def hostW (perm : BitVec 4) (line : Bool) : State :=
  let s := world [] []
  let r0 : Range := { ctx7.range 0 with perm := perm }
  { s with
    ctxs := [(7, { ctx7 with ranges := [(0, r0)] })]
    dram := { s.dram with dir := if line then [(0x20000, { DirEntry.none with host := true })] else [] }
    host := { s.host with
      hdm := ⟨true, false, 0x1000000, 0x7FFF000000, 1, 256⟩ :: s.host.hdm.drop 1
      bisnp := if line then [0x2000000] else [] } }

theorem wit_HostMemory :
    (∀ p ∈ [(3 : BitVec 4), 9, 11], let s := hostW p false
      s.alive = true ∧ s.decoded 0xFFFFFF = false ∧ s.decoded 0x2000000 = true ∧ s.hostReady 0x2000000 = true ∧ s.host.heldReqs = []
      ∧ s.hostGrants 0x2000000 false = (p != 3) ∧ s.hostGrants 0x2000000 true = (p == 11) ∧ Mem.wf s.dram.bytes = true
      ∧ (zeros 64).length = 64 ∧ (∀ k ∈ List.range 64, s.chanDead (0x2000000 / 64 * 64 + k) = false))
    ∧ (let s := hostW 11 true
       s.decoded 0x2000040 = true ∧ 0x2000040 / 256 * 256 ∈ s.host.bisnp ∧ 256 * (0x2000040 / 256) ∈ s.host.bisnp ∧ s.host.heldReqs = []
       ∧ Tab.wf DirEntry.none s.dram.dir = true)
    ∧ (let s := hostW 11 false
       s.bar4 = true ∧ s.host.hdm.length = 4 ∧ (s.host.hdm[0]?).map (·.committed) = some true
       ∧ (s.host.hdm[3]?).map (·.committed) = some false ∧ s.dev.life = .service ∧ s.present (0x2000000 + 0x1000000 - 1) = true) := by
  decide

/-- R383: a decoder with good fields commits; one that meets another's span does not. -/
theorem test_hdm : gives (exec (.hdmDecoderCommit 3 0x2000000 0x1000000 2 512) (world [] [])) (fun t =>
      decide (t.host.hdm[3]? = some ⟨true, false, 0x2000000, 0x1000000, 2, 512⟩))
    && gives (exec (.hdmDecoderCommit 3 0x2000000 0x1000000 2 512) (hostW 11 false)) (fun t =>
      decide ((t.host.hdm[3]?).map (fun h => (h.committed, h.notCommitted)) = some (false, true))) = true := by decide

/-- The world with the trace block's island asleep, or with a debug session granted. -/
def asleep : State :=
  let s := world [] []
  { s with pcm := { s.pcm with islands := s.pcm.islands.map (fun i => { i with st := IslSt.off }) } }

def debugged : State :=
  let s := world [] []
  { s with svm := { s.svm with dbg := some ⟨0, 7, 0, 0, 7⟩ } }

theorem wit_FunctionAndRegisters :
    (∀ l ∈ [Life.boot, .service], (inLife l).alive = true ∧ (inLife l).dev.life = l)
    ∧ (let s := world [] []
       s.decodes = true ∧ blockAt 0x10 = some (.gid, 0x10) ∧ blockAt 0x700000 = none ∧ s.answers .gid = true ∧ s.gated .gid = false
       ∧ s.answers (.core 0) = true ∧ blockAt 0x1000000 = some (.core 0, 0) ∧ s.serves .gid)
    ∧ (inLife .off).decodes = false ∧ (inLife .boot).answers .qmg = false ∧ blockAt 0x400000 = some (.qmg, 0)
    ∧ asleep.gated (.core 0) = true ∧ asleep.decodes = true ∧ asleep.answers (.core 0) = true
    ∧ (debugged.granted 1 = true ∧ debugged.dev.life ≠ .off ∧ debugged.physOk 0x1000000 = true ∧ Mem.wf debugged.dram.bytes = true
      ∧ (world [] []).svm.dbg = none) := by
  simp only [State.serves]; decide

/-- R5: a 32-bit write of the upper half of a 64-bit register. -/
theorem test_upperHalf : gives (exec (.registerWrite ⟨0, 0x400104⟩ 4 0xAABBCCDD) (world [] [])) (fun t =>
    decide (t.qmg.arg.getD 0 0 = 0xAABBCCDD00000000)) = true := by decide

theorem wit_FunctionAndRegisters_debug :
    (∃ b o, blockAt 0x100000 = some (b, o) ∧ debugWrites b o 1 = false) ∧ (∃ off, debugReads off = false)
    ∧ debugged.inReserve 0x1000000 = false ∧ (world [] []).pcm.held = [] ∧ (world [] []).qmg.arg.length = 4 := by
  refine ⟨⟨_, _, rfl, by decide⟩, ⟨0x201000, by decide⟩, by decide, rfl, rfl⟩

/-! ## Chapter 15: links, windows, collectives and the twin -/

def portIn (st : PortSt) : Port := { Port.reset with st := st }

/-- The world with one of its ports, and some others, in given states. -/
def linkW (p : Nat) (x : Port) (ds : List Desc) : State :=
  let s := world ds []
  { s with ports := s.ports.set p x }

def hdr3 (lseq : Nat) (ok : Bool) : RxHdr := ⟨3, lseq, 0, ok, 0⟩

/-- Port 15 is the twin's; its device has an alias key. -/
def twinW (x : Port) : State :=
  let s := linkW 15 x []
  let i : Image := { svcImage with role := List.replicate 14 1 ++ [2, 2] }
  { s with sim := { s.sim with image := some i } }

theorem wit_PortStates :
    (∀ st ∈ [PortSt.down, .training, .retraining, .service, .relock, .refused, .admitting],
      let s := linkW 15 (portIn st) []
      15 < s.ports.length ∧ (s.port 15).st = st ∧ s.dev.life = .service ∧ s.role 15 ≠ 0 ∧ s.role 15 ≠ 2 ∧ s.role 15 = 1
      ∧ s.svm.aliasSeed.isNone = true ∧ s.serves (.lnk 15))
    ∧ (let s := linkW 15 (portIn .training) []
       ({ s with svm := { s.svm with aliasSeed := some [] } } : State).svm.aliasSeed ≠ none
       ∧ ({ s with dev := { s.dev with life := .held } } : State).dev.life ≠ .service)
    ∧ (let s := linkW 15 { portIn .service with uncorTimes := List.replicate 15 0 } []
       15 ≤ ((s.port 15).uncorTimes.filter (fun x => decide (s.now < x + 1000))).length)
    ∧ ((linkW 15 (portIn .service) []).port 15).uncorTimes.length < 15
    ∧ (let s := linkW 15 (portIn .relock) []
       s.now < (s.port 15).relockAt + 100 ∧ (s.port 15).relockAt + 100 ≤ ({ s with now := 100 } : State).now) := by
  simp only [State.serves]; decide

/-- What a peer has shown. -/
def shows : PeerEvidence := ⟨5, true, 0, 0, 0, true, true, 0, 0, 0x7A21, 1⟩

/-- Admission, in order: nothing seen; the last request; both turns over with the peer's message to come; a twin port. -/
theorem wit_PortStates_admission :
    (∀ x ∈ [portIn .admitting, { portIn .admitting with seen := some 5 }, { portIn .admitting with asked := 1 },
        { portIn .admitting with asked := 3 }, { portIn .admitting with admitted := true, answered := 3 },
        { portIn .admitting with kemKey := some [] }],
      (linkW 15 x []).arrives ⟨15, 0, 0, true, 0⟩ .admitting ∧ (twinW x).arrives ⟨15, 0, 0, true, 0⟩ .admitting)
    ∧ ((linkW 15 (portIn .admitting) []).port 15).seen = none
    ∧ ((linkW 15 (portIn .admitting) []).port 15).initiator = false
    ∧ (linkW 15 { portIn .admitting with admitted := true, answered := 3 } []).mayKey 15 = true
    ∧ (linkW 15 { portIn .admitting with admitted := true, answered := 3 } []).role 15 = 1
    ∧ (twinW { portIn .admitting with kemKey := some [] }).role 15 = 2
    ∧ ((twinW { portIn .admitting with kemKey := some [] }).port 14).admitted = false
    ∧ ((twinW { portIn .admitting with admitted := true, answered := 3 }).port 15).turnsDone = true
    ∧ (linkW 15 (portIn .admitting) []).svm.fwFloor = 0 ∧ (shows.chainOk = true ∧ shows.role = 1 ∧ shows.part = 0x7A21) := by
  simp only [State.arrives]; decide

theorem ne_not (x : Digest) : x ≠ ~~~x := by
  intro h
  have := congrArg (fun b => b.getLsbD 0) h
  simp at this

theorem wit_PortStates_proof : ∃ (peer : Ident) (pr : Digest), ((twinW { portIn .admitting with peer := some peer }).port 15).peer = some peer
    ∧ (twinW { portIn .admitting with peer := some peer }).twinProof 15 (leBytes 32 peer.toNat) ≠ pr :=
  ⟨0, ~~~((twinW { portIn .admitting with peer := some 0 }).twinProof 15 (leBytes 32 (0 : Ident).toNat)), rfl, ne_not _⟩

/-- R102: a peer whose SVN is below the floor is refused with check 2. -/
theorem test_admission : gives (exec (.spdm ⟨15, 0, 0, true, 0⟩ (.last [] shows))
      (let s := linkW 15 { portIn .admitting with asked := 3 } []
       { s with svm := { s.svm with fwFloor := 1 } })) (fun t =>
    decide ((t.port 15).st = .refused) && decide ((t.port 15).check = 2) && t.dev.faultNew) = true := by decide +kernel

def out (of : FrameOf) (vl : Nat) (type : Nat) : OutFrame := ⟨⟨type, vl, 0, zeros 16, []⟩, of, false, false, 0, 0⟩

/-- A port in SERVICE with credits in every lane. -/
def upPort : Port := { portIn .service with credit := List.replicate 5 64, hadService := true }

def notice1 : Notice := ⟨1, 1, 1, 0, 0, 100⟩

theorem wit_PortTraffic :
    (let s := linkW 3 upPort []
     s.arrives (hdr3 0 true) .service ∧ 3 < s.ports.length ∧ (s.port 3).badTags < 7
     ∧ (hdr3 0 false).tagOk = false ∧ (hdr3 5 true).lseq ≠ ((s.port 3).lastRx + 1) % 2 ^ 32 ∧ 4095 < 4096
     ∧ (s.port 3).queue = [] ∧ (s.port 3).rekeying = false ∧ s.serves (.lnk 3) ∧ (∀ n ∈ (s.port 3).owed, n = 0)
     ∧ (∀ r, r < 4 → (s.port 3).nextOf r = none) ∧ (s.port 3).frameCount + 1 < 2 ^ 35)
    ∧ (∃ n ∈ ((linkW 3 { upPort with owed := [0, 1, 0, 0, 0] } []).port 3).owed, 0 < n)
    ∧ 2 ^ 36 ≤ ((linkW 3 { upPort with frameCount := 2 ^ 36 - 1 } []).port 3).frameCount + 1
    ∧ 7 ≤ ((linkW 3 { upPort with badTags := 7 } []).port 3).badTags
    ∧ (let s := linkW 3 { upPort with queue := [out .none 2 8], unacked := [out .none 0 1] } []
       (s.port 3).queue = [out .none 2 8] ∧ (s.port 3).maySend (out .none 2 8) = true ∧ (s.port 3).unacked.length < 512)
    ∧ (let s := linkW 3 { upPort with queue := [out .none 2 8], credit := List.replicate 5 0 } []
       (s.port 3).queue = [out .none 2 8] ∧ (s.port 3).maySend (out .none 2 8) = false)
    ∧ (∀ c ∈ [(49999, none), (50000, none), (50000, some 9)],
      let s := { linkW 3 { portIn .down with hadService := true, peerNode := c.2 } [] with now := c.1 }
      (s.port 3).hadService = true ∧ (s.port 3).lost = false ∧ (s.port 3).notices = [] ∧ (s.port 3).quietSince = 0 ∧ (s.port 3).outSince = 0
      ∧ (s.port 3).st = .down
      ∧ (s.port 3).peerNode = c.2 ∧ (s.port 3).unacked = [] ∧ (s.port 3).wins = [] ∧ s.cle.colls = [])
    ∧ ((linkW 3 { upPort with notices := [notice1] } []).port 3).notices ≠ []
    ∧ (let f := out (.copy 1 0) 1 2
       let d := copyR 0x4000000008 8 false
       let s := linkW 3 { upPort with unacked := [f] } [d]
       (s.port 3).queue = [] ∧ (s.port 3).unacked = [f] ∧ f.of = .copy 1 0 ∧ s.desc? 1 = some d ∧ d.type = tyCopy ∧ d.st = .running
       ∧ d.ready = true ∧ d.waiting = false ∧ s.serves (.lnk 3)) := by
  simp only [State.serves, State.arrives]; decide

theorem wit_PortTraffic_full : (∀ n : Nat, ((linkW 3 { upPort with queue := [out .none 2 8], unacked := List.replicate n (out .none 0 1) } []).port 3).unacked.length = n)
    ∧ ∀ n : Nat, ((linkW 3 { upPort with queue := [out .none 2 8], unacked := List.replicate n (out .none 0 1) } []).port 3).maySend (out .none 2 8) = true :=
  ⟨fun _ => List.length_replicate, fun _ => rfl⟩

/-- R418: a frame in order sets the last LSEQ. -/
theorem test_lseq : gives (exec (.keepalive (hdr3 0 true)) (linkW 3 upPort [])) (fun t => decide ((t.port 3).lastRx = 0)) = true := by decide

/-- Window entry 16383: 64 KiB of range 0, reached over port 3. -/
def winE : WinEntry := ⟨true, 5, 7, 0, 0, 65536, 8, 3⟩

/-- A WINDOW range at 0x60_0000_0000 beside the others; range 0's entry in the window table; port 3 with a window frame out. -/
def winW (e : WinEntry) (w : List WinReq) (ds : List Desc) : State :=
  let s := linkW 3 { upPort with wins := w } ds
  let r3 : Range := { Range.none with valid := true, kind := .window, vbase := 0x6000000000, len := 65536, target := 0x0003000500001234, perm := 3 }
  { s with xlt := { s.xlt with win := [(16383, e)] }, ctxs := [(7, { ctx7 with ranges := ctx7.ranges ++ [(3, r3)] })] }

def copyW (src dst : Nat) : Desc := { copyD src dst 8 with st := .running, ready := true, detail := 8 }
def winReq (write : Bool) : WinReq := ⟨9, 1, 0, 0, 8, write⟩
/-- INFO of a WIN_WRITE of bytes 0 to 7 of one sector, or of a WIN_READ of one sector. -/
def infoW (gen a b off : Nat) : List Byte := leBytes 2 16383 ++ leBytes 2 gen ++ leBytes 2 9 ++ leBytes 1 a ++ leBytes 1 b ++ leBytes 8 off

theorem wit_WindowFrames :
    (∀ c ∈ [(5, 0, 7, 0, winE), (6, 0, 7, 0, winE), (5, 0, 7, 0, { winE with ports := 4 }), (5, 0, 31, 65536 - 31, winE),
        (5, 0, 7, 0, { winE with perm := 1 }), (5, 0, 31, 65536 - 32, winE), (5, 1, 0, 0, { winE with valid := false })],
      let s := winW c.2.2.2.2 [] []
      let info := infoW c.1 c.2.1 c.2.2.1 c.2.2.2.1
      s.arrives (hdr3 0 true) .service ∧ s.role 3 = 1 ∧ (hdr3 0 true).poison = 0 ∧ info.length = 16 ∧ leAt info 0 2 = 16383
      ∧ Tab.get WinEntry.none s.xlt.win 16383 = c.2.2.2.2 ∧ leAt info 2 2 = c.1 ∧ s.xlt.winPoison = [] ∧ s.xlt.drain = none
      ∧ leAt info 8 8 = c.2.2.2.1)
    ∧ (∃ pas, (winW winE [] []).xlateSpan 7 .other .write (((winW winE [] []).ctx 7).range 0).vbase 8 = .ok pas ∧ pas.Nodup
      ∧ 0 % 32 + pas.length ≤ (zeros 32).length ∧ (∀ a ∈ pas, (winW winE [] []).chanDead a = false))
    ∧ (∃ pas, (winW winE [] []).xlateSpan 7 .other .read (((winW winE [] []).ctx 7).range 0).vbase 32 = .ok pas)
    ∧ Mem.wf (winW winE [] []).dram.bytes = true ∧ (winE.gen.toNat = 5 ∧ winE.ports.getLsbD 3 = true ∧ 65536 - 32 + (32 - 32) + 31 + 1 ≤ winE.len)
    ∧ (let d := copyW 0x4000000000 0x6000000000
       let w := winReq true
       let s := winW winE [w] [d]
       (s.port 3).wins = [w] ∧ s.desc? w.desc = some d ∧ d.st = .running ∧ d.marks = [] ∧ d.type = tyCopy ∧ d.stop = false ∧ d.stales = []
       ∧ s.winsOf 1 = [w] ∧ (s.port 3).unsent w = false ∧ s.xlt.sqUnread < 63 ∧ Tab.wf StaleRec.none s.xlt.sq = true
       ∧ s.windowAt 7 (d.fld 0x10 8 + w.pos) = none ∧ (s.windowAt 7 (d.fld 0x18 8 + w.pos)).isSome = true
       ∧ ∀ st ∈ [stOk, stStale], (leBytes 4 0 ++ leBytes 2 9 ++ leBytes 1 st ++ zeros 9).length = 16
          ∧ leAt (leBytes 4 0 ++ leBytes 2 9 ++ leBytes 1 st ++ zeros 9) 4 2 = w.rtag
          ∧ leAt (leBytes 4 0 ++ leBytes 2 9 ++ leBytes 1 st ++ zeros 9) 6 1 = st)
    ∧ (let d := copyW 0x6000000000 0x4000000000
       let s := winW winE [winReq false] [d]
       (s.windowAt 7 (d.fld 0x10 8 + 0)).isSome = true ∧ s.desc? 1 = some d
       ∧ ∃ pas, (s.ctx 7).held.span .copy .write (vAddrs (d.fld 0x18 8 + 0) 8) = .ok pas ∧ pas.Nodup ∧ 0 % 32 + pas.length ≤ 32
          ∧ ∀ a ∈ pas, s.chanDead a = false) := by
  simp only [State.arrives]
  refine ⟨by decide, ⟨_, rfl, by decide, by decide, by decide⟩, ⟨_, rfl⟩, by decide, by decide, by decide, by decide, by decide,
    ⟨_, rfl, by decide, by decide, by decide⟩⟩

theorem wit_WindowFrames_sound : (winW winE [] []).unheld ∧ ∀ vas, (winW winE [] []).ctxSound 7 vas :=
  ⟨fun _ => rfl, fun _ _ _ => sound_of _ rfl rfl rfl _⟩

/-- R374, R420: a WIN_WRITE of 8 bytes to the foot of range 0. -/
theorem test_winWrite : gives (exec (.winWrite (hdr3 0 true) (infoW 5 0 7 0) (leBytes 8 0x77 ++ zeros 24)) (winW winE [] [])) (fun t =>
    decide (t.rdByte 0x2000000 = 0x77)) = true := by decide

/-- A COLLECTIVE of group 5, SEQ 77, on INT32: from the foot of range 0 to 4 KiB above it. -/
def collD (op count : Nat) (st : DescSt) : Desc :=
  dsc 1 4 0 st (leBytes 8 0x4000000000 ++ leBytes 8 0x4000001000 ++ leBytes 8 count ++ leBytes 1 5 ++ leBytes 1 op ++ leBytes 1 10 ++ zeros 3
    ++ leBytes 2 0 ++ leBytes 4 77 ++ zeros 4)

/-- The same as the engine holds it: n ranks, this device's rank. -/
def coll (n rank op count : Nat) (started : Bool) : Coll :=
  { desc := 1, ctx := 7, group := 5, seq := 77, op := op, fmt := 10, func := 0, mode := 0, root := 0, count := count
    src := 0x4000000000, dst := 0x4000001000, n := n, rank := rank
    nodes := ((List.range n).map (fun k => if k = rank then 100 else 200 + k)), wake := none, started := started, acc := [], early := []
    got := [], written := [], owed := [], grants := [], waiting := none, cancel := none }

/-- Node 100 in group 5 of context 7; nodes 200 on leave by port 4; frames come in by port 3. -/
def collW (n rank : Nat) (d : Desc) (f : Cle → Cle) : State :=
  let s := world [d] (leBytes 8 0x1122334455667788)
  let c : Cle := { s.cle with
    nodeValid := true, node := 100, groups := [(5, ⟨true, n, rank, 7⟩)]
    rankmap := (List.range n).map (fun k => (4096 * 5 + k, if k = rank then 100 else 200 + k))
    route := [(200, 0x84), (201, 0x84), (300, 0x84)] }
  { s with ports := (s.ports.set 3 upPort).set 4 upPort, cle := f c }

def cd (op count : Nat) : Desc := { collD op count .running with ready := true }

theorem wit_CollectiveDescriptor_accept :
    (∀ c ∈ [(1, 0, 0, 1), (2, 0, 0, 2), (2, 1, 1, 1), (2, 0, 2, 1), (2, 1, 4, 1)],
      let d := collD c.2.2.1 c.2.2.2 .fetched
      let s := collW c.1 c.2.1 d id
      s.desc? 1 = some d ∧ d.marks = [] ∧ d.type = tyCollective ∧ s.canStart d = true ∧ s.collOf 1 = none
      ∧ s.collOk d (s.collFrom d) = true ∧ (s.collFrom d).outLen * 4 ≤ 4096 ∧ (s.collFrom d).inLen * 4 ≤ 4096
      ∧ (∀ x ∈ s.cle.cancels, x.1 ≠ 5 ∨ x.2.1 ≠ 77) ∧ (∀ n ∈ (s.collFrom d).nodes, n ∉ s.cle.lost))
    ∧ (∃ ps pd, (collW 2 0 (collD 1 1 .fetched) id).xlateSpan 7 .other .read 0x4000000000 4 = .ok ps
      ∧ (collW 2 0 (collD 1 1 .fetched) id).xlateSpan 7 .other .write 0x4000001000 4 = .ok pd ∧ ps.length = 4 ∧ pd.length = 4 ∧ pd.Nodup
      ∧ ∀ a ∈ pd, (collW 2 0 (collD 1 1 .fetched) id).chanDead a = false)
    ∧ (let s := collW 2 0 (collD 0 1 .fetched) (fun c => { c with groups := [] })
       (Tab.get Group.none s.cle.groups 5).valid = false ∧ s.canStart (collD 0 1 .fetched) = true)
    ∧ ((collD 0 0 .fetched).fld 0x20 8 = 0 ∧ 4 < (collD 5 1 .fetched).fld 0x29 1)
    ∧ (collW 2 0 (collD 0 1 .fetched) (fun c => { c with cancels := [(5, 77, stCancelled)] })).cle.cancels = [(5, 77, stCancelled)]
    ∧ (let s := collW 2 0 (collD 0 1 .fetched) (fun c => { c with lost := [201] })
       201 ∈ (s.collFrom (collD 0 1 .fetched)).nodes ∧ 201 ∈ s.cle.lost ∧ s.cle.cancels = []) := by
  refine ⟨by decide, ⟨_, _, rfl, rfl, by decide, by decide, by decide, fun a _ => (sound_of _ rfl rfl rfl a).1⟩, by decide⟩

theorem wit_CollectiveDescriptor_start :
    (∀ f ∈ [(fun (x : Cle) => { x with close := true }), (fun x => x)],
      (collW 2 0 (cd 0 1) (fun x => f { x with colls := [coll 2 0 0 1 false] })).collOf 1 = some (coll 2 0 0 1 false))
    ∧ (let s := collW 2 0 (cd 0 1) (fun x => { x with colls := [coll 2 0 0 1 false] })
       let c := coll 2 0 0 1 false
       c.started = false ∧ s.cle.close = false ∧ s.cle.active < 16 ∧ s.cle.reserved + c.sources.length + 16 ≤ 256 ∧ c.reduces = true
       ∧ 0 < (s.collLoad c).length ∧ (∀ j ∈ List.range c.blocks, c.pos j = 0 → c.children j ≠ []) ∧ c.grants = [] ∧ s.cle.pool = [])
    ∧ (let c := coll 1 0 0 1 false
       let s := collW 1 0 (cd 0 1) (fun x => { x with colls := [c] })
       s.collOf 1 = some c ∧ s.cle.active < 16 ∧ s.cle.reserved + c.sources.length + 16 ≤ 256 ∧ c.n = 1 ∧ c.rank = 0 ∧ c.root = 0 ∧ c.op = 0
       ∧ 0 < c.count ∧ c.count * c.esz ≤ 1024 ∧ c.wake = none ∧ c.owed = [] ∧ c.written = [] ∧ c.waiting = none ∧ s.cle.pool = []
       ∧ s.desc? 1 = some (cd 0 1) ∧ (cd 0 1).st = .running ∧ (cd 0 1).marks = [] ∧ Mem.wf s.dram.bytes = true) := by
  refine ⟨?_, by decide, by decide⟩
  intro f hf
  simp only [List.mem_cons, List.not_mem_nil, or_false] at hf
  rcases hf with rfl | rfl <;> rfl

/-- The extents of the single rank, and of a collective of two. -/
theorem wit_CollectiveDescriptor_extents :
    (let c := coll 1 0 0 1 false
     let s := collW 1 0 (cd 0 1) (fun x => { x with colls := [c] })
     (∃ ps pd, (s.ctx c.ctx).span .other .read c.inBytes = .ok ps ∧ (s.ctx c.ctx).span .other .write c.outBytes = .ok pd ∧ pd.Nodup ∧ 256 * c.esz = 1024
       ∧ ps.length = c.count * c.esz ∧ pd.length = c.count * c.esz ∧ (∀ a ∈ ps, s.sound a) ∧ ∀ a ∈ pd, s.chanDead a = false)
     ∧ s.unheld ∧ s.ctxSound c.ctx (c.inBytes ++ c.outBytes) ∧ c.op = 0)
    ∧ (let s := collW 2 0 (cd 0 1) (fun x => { x with colls := [coll 2 0 0 1 false] })
       let c := coll 2 0 0 1 false
       (∃ ps pd, (s.ctx c.ctx).span .other .read c.inBytes = .ok ps ∧ (s.ctx c.ctx).span .other .write c.outBytes = .ok pd
         ∧ ∀ a ∈ ps, s.sound a) ∧ s.unheld ∧ s.ctxSound c.ctx (c.inBytes ++ c.outBytes))
    ∧ (cd 0 1).stop = false ∧ (cd 0 1).waiting = false
    ∧ (let d := { cd 0 1 with waiting := true }
       let s := collW 2 0 d (fun x => { x with colls := [coll 2 0 0 1 false] })
       s.desc? 1 = some d ∧ s.collOf 1 = some (coll 2 0 0 1 false)) :=
  ⟨⟨⟨_, _, rfl, rfl, by decide, by decide, by decide, by decide, fun a _ => sound_of _ rfl rfl rfl a,
      fun a _ => (sound_of _ rfl rfl rfl a).1⟩, fun _ => rfl, fun _ _ => sound_of _ rfl rfl rfl _, rfl⟩,
    ⟨⟨_, _, rfl, rfl, fun a _ => sound_of _ rfl rfl rfl a⟩, fun _ => rfl, fun _ _ => sound_of _ rfl rfl rfl _⟩, by decide, by decide, by decide⟩

/-- A collective between chunks, and one of whose chunk of 64 frames one has come. -/
theorem wit_CollectiveDescriptor_abort :
    (let c := coll 2 0 0 1 true
     c.midChunk = false)
    ∧ (let c := { coll 2 0 0 1024 true with got := [(1, 1, 0, 0)] }
       let s := collW 2 0 (cd 0 1024) (fun x => { x with colls := [c] })
       c.midChunk = true ∧ s.serves .cle ∧ s.cle.colls = [c] ∧ c.started = true ∧ s.desc? c.desc = some (cd 0 1024)
       ∧ (cd 0 1024).type = tyCollective ∧ (cd 0 1024).st = .running ∧ (cd 0 1024).marks = []) := by
  simp only [State.serves]; decide +kernel

theorem wit_CollectiveDescriptor_regs :
    (let c := coll 2 0 0 1 true
     let s := collW 2 0 (cd 0 1) (fun x => { x with colls := [c] })
     s.serves .cle ∧ s.cle.colls = [c] ∧ c.started = true ∧ s.desc? 1 = some (cd 0 1) ∧ (cd 0 1).type = tyCollective
     ∧ 5 ∈ s.collGroups ∧ 63 ∉ s.collGroups ∧ Tab.wf Group.none s.cle.groups = true
     ∧ Tab.wf 0 s.cle.rankmap = true)
    ∧ (world [] []).collGroups = [] ∧ (collW 2 0 (cd 0 1) id).cle.colls = [] := by
  simp only [State.serves]; decide

/-- INFO of a COLL frame: to a node from a node, kind, block 0, SEQ 77, a chunk. -/
def collInfo (dst src kind chunk : Nat) : List Byte :=
  leBytes 2 dst ++ leBytes 2 src ++ leBytes 1 5 ++ leBytes 1 kind ++ leBytes 2 0 ++ leBytes 4 77 ++ leBytes 4 chunk

/-- A collective of 2 ranks and one element, started, and its device. -/
def collRun (rank op : Nat) (f : Coll → Coll) : State := collW 2 rank (cd op 1) (fun x => { x with colls := [f (coll 2 rank op 1 true)] })

theorem wit_CollectiveFrames_forward :
    (let s := collW 2 0 (cd 0 1) id
     s.arrives (hdr3 0 true) .service ∧ s.role 3 = 1 ∧ (∀ k ∈ [1, 2, 3, 4, 5], let i := collInfo 300 200 k 0
       i.length = 16 ∧ (CollHdr.parse i).kind = k ∧ (CollHdr.parse i).dst ≠ s.cle.node ∧ s.routeOf (CollHdr.parse i).dst = some 4 ∧ 4 ≠ 3))
    ∧ (let s := collW 2 0 (cd 0 1) id
       let H := CollHdr.parse (collInfo 100 201 1 0)
       H.dst = s.cle.node ∧ s.cle.nodeValid = true ∧ H.kind = 1 ∧ s.collNamed H.group H.seq = none ∧ s.cle.pool = [])
    ∧ ((collW 2 0 (cd 0 1) id).collNamed 5 77 = none ∧ 300 ≠ (collW 2 0 (cd 0 1) id).cle.node
      ∧ (collW 2 0 (cd 0 1) id).routeOf 300 = some 4 ∧ (collW 2 0 (cd 0 1) id).routeOf 4095 = none ∧ stCancelled ≠ 0) := by
  simp only [State.arrives]; decide

/-- The frames of a collective under way: what arrives, this rank, the sender's rank and the kind. -/
theorem wit_CollectiveFrames :
    (∀ x ∈ [(0, 0, 1, 1, 0, 201), (1, 1, 0, 2, 0, 200), (1, 2, 0, 3, 0, 200), (1, 0, 0, 4, 64, 200), (1, 0, 0, 5, 0, 200)],
      let s := collRun x.1 x.2.1 id
      let c := coll 2 x.1 x.2.1 1 true
      let H := CollHdr.parse (collInfo 100 x.2.2.2.2.2 x.2.2.2.1 x.2.2.2.2.1)
      H.dst = s.cle.node ∧ H.kind = x.2.2.2.1 ∧ H.chunk = x.2.2.2.2.1 ∧ H.block = 0 ∧ s.collNamed H.group H.seq = some c
      ∧ s.collOf c.desc = some c ∧ c.started = true ∧ c.waiting = none ∧ s.desc? c.desc = some (cd x.2.1 1)
      ∧ c.nodes[x.2.2.1]? = some H.src ∧ (∀ q ∈ List.range x.2.2.1, c.nodes[q]? ≠ some H.src) ∧ c.rank = x.1 ∧ c.op = x.2.1
      ∧ s.cle.colls = [c])
    ∧ (let c := coll 2 1 0 1 true
       let H := CollHdr.parse (collInfo 100 100 1 0)
       H.src = c.nodes.getD c.rank 4096 ∧ c.children H.block = [] ∧ c.nodes[1]? = some H.src ∧ c.nodes[0]? ≠ some H.src)
    ∧ (let c := { coll 2 0 0 1 true with acc := [(0, 0, 0, leBytes 4 7, 0)] }
       let s := collRun 0 0 (fun x => { x with acc := [(0, 0, 0, leBytes 4 7, 0)] })
       s.cle.colls = [c] ∧ c.got = [] ∧ c.owed = [] ∧ c.written = [] ∧ c.wake = none ∧ (zeros 32).length = (c.count * c.esz + 31) / 32 * 32
       ∧ (leBytes 4 7).length = c.count * c.esz ∧ s.collNamed 5 77 = some c ∧ c.root = 0 ∧ c.n = 2)
    ∧ (let s := collRun 1 0 (fun x => { x with acc := [(0, 0, 0, leBytes 4 7, 0)] })
       (s.collNamed 5 77).map (·.acc) = some [(0, 0, 0, leBytes 4 7, 0)] ∧ (s.collNamed 5 77).map (·.owed) = some [] ∧ s.routeOf 200 = some 4
       ∧ (s.port 4).queue = [])
    ∧ (let s := collRun 1 0 (fun x => { x with acc := [(0, 0, 1, [], 0)], owed := [(0, 1, 0, 0)] })
       (s.collNamed 5 77).map (·.acc) = some [(0, 0, 1, [], 0)] ∧ (s.collNamed 5 77).map (·.owed) = some [(0, 1, 0, 0)])
    ∧ Mem.wf (collRun 0 0 id).dram.bytes = true := by
  refine ⟨by decide, by decide, by decide, ⟨rfl, rfl, rfl, rfl⟩, ⟨rfl, rfl⟩, by decide⟩

theorem wit_CollectiveFrames_dst :
    (∃ pd, ((collRun 0 0 id).ctx 7).span .other .write (vAddrs 0x4000001000 4) = .ok pd
      ∧ ((collRun 1 2 id).ctx 7).span .other .write (vAddrs 0x4000001000 4) = .ok pd
      ∧ pd.Nodup ∧ pd.length = 4 ∧ (∀ a ∈ pd, (collRun 0 0 id).chanDead a = false) ∧ ∀ a ∈ pd, (collRun 1 2 id).chanDead a = false)
    ∧ (∀ r op f, (collRun r op f).unheld ∧ ∀ vas, (collRun r op f).ctxSound 7 vas) :=
  ⟨⟨_, rfl, rfl, by decide, by decide, fun a _ => (sound_of _ rfl rfl rfl a).1, fun a _ => (sound_of _ rfl rfl rfl a).1⟩,
    fun _ _ _ => ⟨fun _ => rfl, fun _ _ _ => sound_of _ rfl rfl rfl _⟩⟩

set_option maxRecDepth 20000 in
/-- R426: the root of two ranks adds the partial it receives, 7 + 9, and ends. -/
theorem test_partial :
    gives (exec (.partialFrame (hdr3 0 true) (collInfo 100 201 1 0) (leBytes 4 9 ++ zeros 28))
      (collRun 0 0 (fun x => { x with acc := [(0, 0, 0, leBytes 4 7, 0)] }))) (fun t =>
      decide (t.rdByte 0x2001000 = 16) && decide (t.qmg.descs.map (fun d => (d.st, d.status, d.detail.toNat)) = [(.ended, stOk, 1)])) = true := by
  decide

/-- INFO of a WAKE or WAKE_ACK: node, answering node, core and its generation, or a status, and the wake tag. -/
def wakeInfo (node back core st gen tag : Nat) : List Byte :=
  leBytes 2 node ++ leBytes 2 back ++ leBytes 1 core ++ leBytes 1 st ++ leBytes 2 gen ++ leBytes 4 tag ++ zeros 4

def lostInfo (hops : Nat) : List Byte := leBytes 2 300 ++ leBytes 2 301 ++ leBytes 1 hops ++ zeros 3 ++ leBytes 4 9 ++ zeros 4

theorem wit_NoticesAndWakes :
    (let s := collW 2 0 (cd 0 1) id
     s.arrives (hdr3 0 true) .service ∧ (zeros 16).length = 16 ∧ s.role 3 = 1 ∧ s.role 4 = 1 ∧ (s.port 4).st = .service ∧ s.cle.colls = []
     ∧ (∀ n ∈ [62, 63], (lostInfo n).length = 16 ∧ leAt (lostInfo n) 4 1 = n ∧ (leAt (lostInfo n) 0 2, leAt (lostInfo n) 2 2, leAt (lostInfo n) 8 4) ∉ s.cle.seen)
     ∧ (300, 301, 9) ∈ ({ s.cle with seen := [(300, 301, 9)] } : Cle).seen
     ∧ s.cle.nodeValid = true ∧ s.cle.node = 100 ∧ s.routeOf 200 = some 4
     ∧ (∀ g ∈ [0, 1], (wakeInfo 100 200 63 0 g 5).length = 16 ∧ leAt (wakeInfo 100 200 63 0 g 5) 0 2 = 100
        ∧ leAt (wakeInfo 100 200 63 0 g 5) 2 2 = 200 ∧ leAt (wakeInfo 100 200 63 0 g 5) 4 1 < 64 ∧ leAt (wakeInfo 100 200 63 0 g 5) 6 2 = g)
     ∧ (s.cle.coreGen.getD 63 0).toNat = 0 ∧ leAt (wakeInfo 200 100 0 0 0 5) 0 2 ≠ s.cle.node)
    ∧ (let c := { coll 2 0 0 1 true with waiting := some 5 }
       let s := collRun 0 0 (fun x => { x with waiting := some 5 })
       s.cle.colls = [c] ∧ c.waiting = some (leAt (wakeInfo 100 200 0 stOk 0 5) 8 4) ∧ s.desc? c.desc = some (cd 0 1)
       ∧ leAt (wakeInfo 100 200 0 stOk 0 5) 5 1 = stOk ∧ s.arrives (hdr3 0 true) .service)
    ∧ (∀ n ∈ [129, 130], let s := { linkW 3 { upPort with notices := [notice1] } [] with now := n }
       3 < s.ports.length ∧ (s.port 3).notices[0]? = some notice1 ∧ s.now = n ∧ notice1.at_ + 30 = 130)
    ∧ (∀ p, ((inLife .held).port p).st ≠ .service)
    ∧ (∀ c ∈ [(ThermSt.gapped, 0), (.stopped, 1000000), (.stopped, 1000001)],
      let m := { Mcu.reset with therm := c.1 }
      let s := { linkW 3 upPort [] with mcu := List.replicate 7 Mcu.reset ++ [m], now := c.2 }
      s.dev.life = .service ∧ s.mcu[7]? = some m ∧ (∀ x ∈ s.mcu.take 7, x.therm ≠ .gapped ∧ x.therm ≠ .stopped) ∧ s.mcu.length = 8
      ∧ m.stoppedAt = 0) := by
  simp only [State.arrives]
  refine ⟨by decide, by decide, by decide, fun p => ?_, by decide⟩
  by_cases h : p < 16
  · exact (by decide : ∀ q < 16, ((inLife .held).port q).st ≠ .service) p h
  · have e : (inLife .held).ports.length = 16 := by decide
    rw [State.port, List.getD_eq_getElem?_getD, List.getElem?_eq_none (by omega)]
    decide

/-- A catalogue entry of one block at 0x3000000 for range 0, of 64 KiB. -/
def catE (k : CatKind) (got : Nat) : CatEntry := ⟨k, 7, 0, 1, [65536], 9, [0x300], got⟩

/-- The device as a twin: ports 14 and 15 are the twin's, its catalogue holds entry 255, its range 0 is 64 KiB. -/
def twin (st : TwinSt) (k : CatKind) (ds : List Desc) (f : Twc → Twc) : State :=
  let s := world ds []
  let i : Image := { svcImage with role := List.replicate 14 1 ++ [2, 2] }
  let p : Port := { upPort with peer := some 9 }
  let r0 : Range := { ctx7.range 0 with len := 65536 }
  let t : Twc := { s.twc with st := st, cat := [(255, some (catE k 0))], peer := some 9, hbLive := true }
  { s with
    dev := { s.dev with twnAliveOut := true, twnAliveIn := true }
    sim := { s.sim with image := some i }
    ctxs := [(7, { ctx7 with ranges := [(0, r0)] })]
    ports := s.ports.take 14 ++ [p, p]
    twc := f t }

def ckptD (st : DescSt) (ranges : Nat) : Desc := dsc 1 9 0 st (zeros 8 ++ leBytes 8 ranges)

theorem twin_sound (st : TwinSt) (k : CatKind) (ds : List Desc) (f : Twc → Twc) (a : Nat) : (twin st k ds f).chanDead a = false :=
  (sound_of _ rfl rfl rfl a).1

theorem wit_Twin_pair :
    (let s := twin .pairing .completed [] id
     s.dev.life = .service ∧ s.dev.twnAliveOut = true ∧ s.twc.st = .pairing ∧ s.role 14 = 2 ∧ s.role 15 = 2 ∧ (s.port 14).st = .service
     ∧ (s.port 15).st = .service ∧ s.dev.twnAliveIn = true)
    ∧ (twin .unpaired .completed [] id).twc.st = .unpaired
    ∧ (∀ st ∈ [TwinSt.paired, .unmirrored, .released], (twin st .completed [ckptD .running 1] id).twc.hbLive = true
        ∧ (twin st .completed [ckptD .running 1] id).twc.st = st
        ∧ (twin st .completed [ckptD .running 1] id).desc? 1 = some (ckptD .running 1))
    ∧ (∀ n ∈ [1000, 1001], let s := { twin .paired .completed [] (fun t => { t with hbAt := some 0 }) with now := n }
        s.twc.hbAt = some 0 ∧ s.now = n ∧ s.twc.hbLive = true)
    ∧ (ckptD .running 1).type = tyCheckpoint ∧ (ckptD .running 1).marks = [] := by decide

theorem wit_Twin_ident (st : TwinSt) (k : CatKind) (ds : List Desc) :
    ((twin st k ds id).port 14).peer = some 9 ∧ ((twin st k ds id).port 15).peer = some 9 ∧ some (catE k 0).origin = (twin st k ds id).twc.peer
    ∧ (twin st k ds id).twc.entry 255 = some (catE k 0) ∧ Tab.wf none (twin st k ds id).twc.cat = true :=
  ⟨rfl, rfl, rfl, rfl, rfl⟩

def hdr15 : RxHdr := ⟨15, 0, 0, true, 0⟩

/-- INFO of a MIRROR: the entry and the byte it begins at. -/
def mirrorInfo (off : Nat) : List Byte := leBytes 1 255 ++ zeros 7 ++ leBytes 8 off

theorem wit_Twin_frames :
    (let s := twin .paired .progress [] (fun t => { t with ckptDone := true })
     s.arrives hdr15 .service ∧ s.role 15 = 2 ∧ hdr15.poison = 0 ∧ s.twc.ckptDone = true ∧ Mem.wf s.dram.bytes = true
     ∧ (∀ o ∈ [0, 65536 - 32], (mirrorInfo o).length = 16 ∧ leAt (mirrorInfo o) 0 1 = 255 ∧ leAt (mirrorInfo o) 8 8 = o)
     ∧ (catE .progress 0).kind = .progress ∧ (catE .progress 0).got + 32 < 65536 * (catE .progress 0).blocks.length
     ∧ (65536 - 32 + (zeros 32).length) % 65536 = 0 ∧ (0 + (zeros 32).length) % 65536 ≠ 0)
    ∧ (let c : CkptRun := ⟨1, 255, [], 65536, 0⟩
       let s := twin .paired .completed [ckptD .running 1] (fun t => { t with ckpts := [c] })
       s.twc.ckpts = [c] ∧ c.entry = leAt (mirrorInfo 0) 0 1 ∧ s.desc? c.desc = some (ckptD .running 1) ∧ c.total ≤ c.acked + 65536
       ∧ s.twc.run = none ∧ s.serves .twc)
    ∧ (let c : CkptRun := ⟨1, 255, [(0, 65536)], 131072, 0⟩
       let d := { ckptD .running 1 with marks := [stCancelled], stop := true }
       let s := twin .paired .completed [d] (fun t => { t with ckpts := [c] })
       s.twc.ckpts = [c] ∧ c.entry = leAt (mirrorInfo 0) 0 1 ∧ s.desc? c.desc = some d ∧ c.acked + 65536 < c.total ∧ d.type = tyCheckpoint
       ∧ d.st = .running ∧ s.arrives hdr15 .service ∧ s.role 15 = 2)
    ∧ (leAt (mirrorInfo 65536) 8 8 = 65536 ∧ 65536 * (catE .progress 0).blocks.length < 65536 + 32) := by
  simp only [State.arrives, State.serves]; decide

theorem wit_Twin_checkpoint :
    (∀ st ∈ [TwinSt.unpaired, .released, .paired], ∀ c ∈ [false, true], ∀ m ∈ [1, 2],
      let d := ckptD .fetched m
      let s := twin st .completed [d] (fun t => { t with close := c })
      s.desc? 1 = some d ∧ d.marks = [] ∧ d.type = tyCheckpoint ∧ s.canStart d = true ∧ s.twc.close = c ∧ s.twc.st = st ∧ s.twinPorts ≠ [])
    ∧ ((ckptD .fetched 2).fld 0x18 8).testBit 1 = true ∧ (((twin .paired .completed [] id).ctx 7).range 1).valid = false
    ∧ (∀ i ∈ List.range 64, ((ckptD .fetched 1).fld 0x18 8).testBit i = true → i = 0)
    ∧ (let r := ((twin .paired .completed [] id).ctx 7).range 0
       r.valid = true ∧ r.kind = .device ∧ r.perm.getLsbD 0 = true) := by
  refine ⟨by decide, by decide, by decide, by decide, by decide⟩

theorem wit_Twin_commands :
    (∀ st ∈ [TwinSt.unpaired, .paired], ∀ c ∈ [false, true],
      let s := twin st .retained [] (fun t => { t with close := c })
      s.serves .twc ∧ s.twc.cmd.busy = false ∧ s.twc.close = c ∧ s.twc.st = st ∧ s.twinPorts ≠ [] ∧ (s.ctx 7).live = true
      ∧ (s.ctx 6).live = false ∧ s.twc.emptied = false ∧ (s.twc.entry 255).map (·.kind) = some .retained ∧ (s.twc.entry 0).isNone = true)
    ∧ (let s := twin .paired .retained [] id
       s.importBad 7 (catE .retained 0) = none)
    ∧ (twin .unmirrored .retained [] (fun t => { t with emptied := true })).twc.emptied = true
    ∧ (twin .unmirrored .retained [] (fun t => { t with emptied := true })).twc.st = .unmirrored := by
  simp only [State.serves]; decide

theorem wit_Twin_run :
    (∀ send ∈ [false, true], let r : TwinRun := ⟨send, 255, 7, 0, 0, 0, false⟩
      let s := twin .paired .retained [] (fun t => { t with run := some r })
      s.twc.run = some r ∧ r.send = send ∧ r.pos = 0 ∧ (s.twc.entry r.entry).isSome = true ∧ s.twc.ckpts = [] ∧ s.serves .twc ∧ 65536 * r.pos ≤ r.acked
      ∧ Mem.wf s.dram.bytes = true)
    ∧ (let r : TwinRun := ⟨true, 255, 7, 1, 3, 0, false⟩
       let s := twin .paired .retained [] (fun t => { t with run := some r })
       s.twc.run = some r ∧ r.acked < 65536 * r.pos ∧ s.twc.ckpts = [] ∧ s.serves .twc)
    ∧ (let s := twin .paired .retained [] id
       s.importBad 7 (catE .retained 0) = none ∧ ((s.ctx 7).range 0).draining = false ∧ ((s.ctx 7).range 0).switching = false)
    ∧ (catE .retained 0).chunkAt 0 = some (0, 0)
    ∧ (∀ (f : Twc → Twc), ∀ a ∈ addrs ((((twin .paired .retained [] f).ctx 7).range 0).phys 0) 65536,
        (twin .paired .retained [] f).chanDead a = false)
    ∧ (∀ (f : Twc → Twc), (twin .paired .retained [] f).unheld) := by
  refine ⟨?_, ?_, by decide, by decide, fun f a _ => twin_sound _ _ _ f a, fun _ _ => rfl⟩ <;> simp only [State.serves] <;> decide

/-! ## Chapter 16: test packs and fault service -/

/-- A pack of the owner's: 128 bytes of header, 64 of program, for core 63, its owner's key the empty one. -/
def packHead : List Byte :=
  leBytes 4 0x4B505451 ++ leBytes 2 1 ++ leBytes 2 128 ++ leBytes 2 0x7A21 ++ leBytes 2 0x0100 ++ [2, 0] ++ zeros 2 ++ leBytes 4 0
    ++ leBytes 4 192 ++ leBytes 8 (2 ^ 63) ++ leBytes 4 128 ++ leBytes 4 60000 ++ keyId [] ++ zeros 8 ++ zeros 64

def packBody : List Byte := packHead ++ zeros 64
def packAll : List Byte := packBody ++ digestBytes (Config.sha3 packBody) ++ zeros 4672

/-- TEST with a pack staged and every core available. -/
def packOf (fill : Nat) (m : Mem) : State :=
  { State.reset with
    dev := { State.reset.dev with life := .test, coreAvail := BitVec.allOnes 64 }
    tkm := { State.reset.tkm with ownerKey := some [] }
    svm := { State.reset.svm with packBegun := true, fill := fill, pack := m } }
theorem packOf_pack (fill : Nat) (m : Mem) : (packOf fill m).svm.pack = m := rfl

def packState (fill : Nat) : State := packOf fill (Mem.writeBytes [] 0 packAll)

set_option maxRecDepth 20000 in
theorem packAll_length : packAll.length = 4928 := by
  simp only [packAll, List.length_append, zeros, List.length_replicate]
  rw [show packBody.length = 192 from rfl, show (digestBytes (Config.sha3 packBody)).length = 64 from rfl]

set_option maxRecDepth 20000 in
theorem pack_read (n : Nat) (h : n ≤ 4928) : (packState 4928).svm.pack.readBytes 0 n = packAll.take n := by
  rw [packState, packOf_pack, Mem.readBytes_writeBytes _ _ _ _ rfl (by rw [packAll_length] <;> exact h)]

theorem wit_TestPacks :
    (∀ s ∈ [inLife .unclaimed, inLife .held, packState 0, packState 65472, packState 65473],
      s.cores.length = 64 ∧ Mem.wf s.dram.bytes = true ∧ s.serves .svm ∧ s.svm.cmd.busy = false ∧ s.tkm.pending.isNone = true)
    ∧ (let s := inLife .held
       ({ s with tkm := { s.tkm with ownerKey := some [] } } : State).tkm.ownerKey ≠ none ∧ s.dev.life = .held)
    ∧ (packState 0).dev.life = .test ∧ (packState 0).svm.packBegun = true ∧ (packState 0).svm.fill = 0 ∧ (packState 0).dev.testFactory = false
    ∧ 65472 + 64 ≤ 65536 ∧ 65536 < 65473 + 64 ∧ (4096 < 4160 ∧ 4160 < 8192) ∧ 4095 % 64 ≠ 0
    ∧ (State.reset).svm.packRun.isNone = true := by
  simp only [State.serves]; decide

theorem readBytes_drop (m : Mem) (a n : Nat) : m.readBytes a n = (m.readBytes 0 (a + n)).drop a := by
  rw [Mem.readBytes_eq, Mem.readBytes_eq, List.range_add, List.map_append]
  rw [List.drop_left' (by simp)]
  simp

theorem pack_slice (a n : Nat) (h : a + n ≤ 4928) : (packState 4928).svm.pack.readBytes a n = (packAll.take (a + n)).drop a := by
  rw [readBytes_drop, pack_read _ h]

set_option maxRecDepth 20000 in
/-- R466 to R468: a pack that meets every rule passes when its signature verifies. -/
theorem wit_packCode_ok (h : Config.mldsaVerify [] (digestBytes (Config.sha3 packBody)) (zeros 4627) = true) :
    (packState 4928).packCode = 0 ∧ 0 < (packState 4928).svm.fill ∧ (packState 4928).svm.fill ≤ 65536 := by
  have hd : (digestBytes (Config.sha3 packBody)).length = 64 := rfl
  have hb : packBody.length = 192 := rfl
  have hh : packHead.length = 128 := rfl
  have h0 : (packState 4928).svm.pack.readBytes 0 128 = packHead := by
    rw [pack_read _ (by decide), packAll, packBody, ← hh]
    simp only [List.append_assoc, List.take_left]
  have h1 : (packState 4928).svm.pack.readBytes 0 192 = packBody := by
    rw [pack_read _ (by decide), packAll, ← hb]
    simp only [List.append_assoc, List.take_left]
  have h2 : (packState 4928).svm.pack.readBytes 192 64 = digestBytes (Config.sha3 packBody) := by
    rw [pack_slice _ _ (by decide), packAll, List.take_left' (by rw [List.length_append, hd, hb]), ← hb, List.drop_left]
  have h3 : (packState 4928).svm.pack.readBytes (192 + 64) 4627 = zeros 4627 := by
    have hl : (packBody ++ digestBytes (Config.sha3 packBody)).length = 256 := by rw [List.length_append, hd, hb]
    rw [pack_slice _ _ (by decide), packAll, List.drop_take, List.drop_left' (by rw [hl]), zeros, List.take_replicate]
    rfl
  refine ⟨?_, by decide, by decide⟩
  rw [State.packCode]
  simp only [h0, show leAt packHead 0xC 1 = 2 from rfl, show leAt packHead 0x14 4 = 192 from rfl, h1, h2, h3,
    show (packState 4928).tkm.ownerKey = some [] from rfl, show sliceAt packHead 0x28 16 = keyId [] from rfl]
  simp [firstCode, show packHeaderOk packHead (packState 4928).svm.fwVersion (packState 4928).svm.fill = true from rfl,
    show partOk (leAt packHead 8 2) (leAt packHead 0xA 2) = true from rfl]
  exact h

/-! A recheck: the grid block of a product at the foot of range 0, its descriptor 64 bytes on, A, B and C at 0x100, 0x200 and
0x300, and the check buffers at 0x380 and 0x390. -/

def chkRaw : List Byte :=
  leBytes 4 0x1111 ++ zeros 4 ++ leBytes 2 1 ++ [0, 1] ++ leBytes 4 1 ++ leBytes 4 1 ++ zeros 4 ++ leBytes 8 0x4000000100
    ++ leBytes 8 0x4000000200 ++ leBytes 8 0x4000000300 ++ leBytes 4 4 ++ leBytes 4 4 ++ leBytes 4 4 ++ zeros 68

def chkBytes : List Byte :=
  ([2, 1] ++ zeros 6 ++ leBytes 2 1 ++ leBytes 2 1 ++ zeros 4 ++ leBytes 8 0x4000000040 ++ zeros 40) ++ chkRaw

/-- The device with that product and FLT.ARG; C and the first check buffer hold c and a. -/
def chkW (core : Nat) (c a : Nat) (phase : Nat) (ran : Option Nat) : State :=
  let s := world [] []
  let f : Flt := { s.flt with
    arg := [0x4000000000, 0x4000000380, 0x4000000390, BitVec.ofNat 64 core]
    recheck := ⟨phase, 0, 0, core, 7, 0x4000000000, 0x4000000380, 0x4000000390, ran⟩ }
  { s with
    flt := f
    dram := { s.dram with bytes :=
      ((Mem.writeBytes [] 0x2000000 chkBytes).writeBytes 0x2000300 (leBytes 4 c)).writeBytes 0x2000380 (leBytes 4 a) } }

set_option maxRecDepth 20000 in
theorem wit_FaultService_recheck :
    (let s := chkW 0 0 0 0 none
     s.serves .flt ∧ s.flt.cmd.busy = false ∧ s.dev.life = .service ∧ s.dev.frost = false ∧ s.img (·.maxCtx) ≤ 16
     ∧ 15 < s.img (·.maxCtx) ∧ (s.ctx 15).live = false ∧ (s.ctx 7).live = true ∧ (s.ctx 7).killed = false ∧ s.recheckArgBad 7 = false
     ∧ s.recheckNoMachine = false ∧ s.flt.recheck.phase = 0 ∧ (s.grid? 0).isNone = true)
    ∧ (let s := chkW 63 0 0 1 none
       s.recheckArgBad 7 = false ∧ s.recheckNoMachine = true)
    ∧ ((chkW 0 0 0 1 none).recheckNoMachine = false ∧ (chkW 0 0 0 1 none).flt.recheck.phase ≠ 0)
    ∧ ((inLife .held).serves .flt ∧ (inLife .held).dev.life ≠ .service) := by
  simp only [State.serves]; decide

set_option maxRecDepth 20000 in
theorem wit_FaultService_run :
    (∃ g, (chkW 0 0 0 0 none).gridOf 0 7 0x4000000000 (chkFix 0x4000000380) = .ok g)
    ∧ (∀ ph ∈ [1, 2], (chkW 0 5 5 ph (some stOk)).flt.recheck.phase = ph ∧ (chkW 0 5 5 ph (some stOk)).flt.recheck.ran = some stOk
        ∧ (chkW 0 5 5 ph (some stLimit)).flt.recheck.ran = some stLimit ∧ stLimit ≠ stOk)
    ∧ (chkW 0 5 5 1 (some stOk)).recheckCmp 0x4000000380 = .equal true
    ∧ (chkW 0 5 6 1 (some stOk)).recheckCmp 0x4000000380 = .equal false
    ∧ (∃ g, (chkW 0 5 6 1 (some stOk)).gridOf 0 7 0x4000000000 (chkFix 0x4000000390) = .ok g)
    ∧ (chkW 0 0 5 2 (some stOk)).recheckCmp 0x4000000390 = .equal true
    ∧ (chkW 63 5 5 2 (some stOk)).recheckCmp 0x4000000390 = .equal false := by
  exact ⟨⟨_, rfl⟩, by decide, rfl, rfl, ⟨_, rfl⟩, rfl, rfl⟩

/-- Core n's patrol test in a given state; the others' are not due. -/
def patrolW (n : Nat) (p : Patrol) : State :=
  let s := world [] []
  { s with flt := { s.flt with patrol := s.flt.patrol.set n p } }

theorem wit_FaultService_patrol :
    (∀ p ∈ [Patrol.reset, { Patrol.reset with due := true }, { Patrol.reset with due := true, running := true }], ∀ n ∈ [0, 63],
      let s := patrolW n p
      s.flt.patrol.length = 64 ∧ s.cores.length = 64 ∧ s.dev.life = .service ∧ s.fit n = true ∧ s.patrol n = p
      ∧ (s.core n).spare = false ∧ Mem.wf s.dram.bytes = true)
    ∧ (let s := patrolW 0 Patrol.reset
       ({ s with ple := { s.ple with vms := [⟨[0], true, 7, 1⟩] } } : State).atBoundary 0 = false)
    ∧ (inLife .service).fit 0 = false ∧ (inLife .held).dev.life ≠ .service
    ∧ (let f := { (world [] []).flt with squall := true }
       f.squall = true ∧ f.unread < 1023 ∧ Tab.wf LogRec.none f.log = true ∧ f.dueTimes.length < 256)
    ∧ (world [] []).flt.squall = false := by decide

theorem wit_FaultService_times :
    (∀ x ∈ [(false, 0), (true, 999999), (true, 1000000)],
      let s := { world [] [] with now := x.2, flt := { (world [] []).flt with squall := x.1, heavyAt := 0 } }
      s.flt.squall = x.1 ∧ s.now = x.2 ∧ s.flt.heavyAt = 0)
    ∧ (∀ x ∈ [([1023], none, 10000), ([900], none, 10000), ([901], some 0, 10000), ([699], some 0, 100000)],
      let s := { world [] [] with now := x.2.2, flt := { (world [] []).flt with svpOver := x.2.1, svpUnder := x.2.1, svpStage := 1 } }
      s.flt.svpStage < 2 ∧ 0 < s.flt.svpStage ∧ s.flt.svpOver = x.2.1 ∧ ∀ l ∈ x.1, l % 1024 = l)
    ∧ (∀ x ∈ [0, 1],
      let p : Patrol := { Patrol.reset with due := true }
      let q := patrolW 63 Patrol.reset
      let i := 3600000000 * q.img (·.interval)
      let s := { q with now := i - x }
      let r := patrolW 63 p
      let d := 3600000000 * r.img (·.deadline)
      let u := { r with now := d - x }
      s.dev.life = .service ∧ s.fit 63 = true ∧ (s.patrol 63) = Patrol.reset ∧ Patrol.reset.since = 0 ∧ (s.now < i ↔ x = 1 ∧ 0 < i)
      ∧ u.dev.life = .service ∧ u.patrol 63 = p ∧ (u.now < d ↔ x = 1 ∧ 0 < d))
    ∧ (∀ l ∈ [Life.off, .boot, .service], (inLife l).dev.life = l) := by decide

/-- A test pack of cores runs until microsecond 5; the clock stands at n. -/
def packRunW (cores : List Nat) (n : Nat) : State :=
  { packState 0 with now := n, svm := { (packState 0).svm with packRun := some ⟨cores, 5, true, 0⟩ } }

theorem wit_TestPacks_end :
    (∀ cs n, (packRunW cs n).svm.packRun = some ⟨cs, 5, true, 0⟩ ∧ (packRunW cs n).now = n)
    ∧ (∀ k ∈ [63], k < 64) ∧ (packRunW [63] 4).cores.length = 64 ∧ Mem.wf (packRunW [63] 5).dram.bytes = true :=
  ⟨fun _ _ => ⟨rfl, rfl⟩, by decide, by decide, by decide⟩

/-! ## Chapters 4 and 17: resets, power and clocks -/

/-- BOOT with its pins released and a bank's firmware of a given SVN run. -/
def bootW (svn : Nat) (held booted : Bool) : State :=
  { State.reset with
    dev := { State.reset.dev with life := .boot, bootHeld := held }
    svm := { State.reset.svm with booted := booted, svn := svn } }

theorem wit_ResetInputsAndBoot :
    (let s := State.reset
     ({ s with dev := { s.dev with porN := false } } : State).dev.porN = false ∧ s.dev.life ≠ .off ∧ s.dev.wrstN = true ∧ s.dev.perstN = true
     ∧ s.dev.life = .boot ∧ s.dev.porN = true)
    ∧ (let s := { State.reset with dev := { State.reset.dev with wrstN := false } }
       s.dev.life = .boot ∧ s.dev.porN = true ∧ s.dev.wrstN = false)
    ∧ (∀ svn ∈ [0, 1], let s := bootW svn false true
       s.dev.life = .boot ∧ s.pinsHigh = true ∧ s.svm.booted = true ∧ s.svm.svn = svn ∧ s.dev.bootHeld = false ∧ s.tkm.pending.isNone = true)
    ∧ (let s := bootW 1 true true
       s.dev.life = .boot ∧ s.dev.bootHeld = true ∧ s.svm.packRun.isNone = true ∧ s.svm.booted = true ∧ s.svm.svn ≠ 0
       ∧ s.tkm.pending.isNone = true) := by decide

/-- A firmware bundle: its header, a key of zeros, and an empty core monitor. -/
def fwHead : List Byte :=
  leBytes 4 0x42574651 ++ leBytes 2 1 ++ leBytes 2 64 ++ leBytes 2 0x7A21 ++ leBytes 2 0xFFFF ++ zeros 4 ++ leBytes 4 0x10203
    ++ leBytes 2 127 ++ zeros 2 ++ leBytes 4 2688 ++ leBytes 4 2688 ++ zeros 32

def fwBody : List Byte := fwHead ++ zeros 2592 ++ zeros 32
def fwAll : List Byte := fwBody ++ digestBytes (Config.sha3 fwBody) ++ zeros 4627

/-- Bank B alone is held valid, with given bytes. -/
def svmOf (m : Mem) : Svm := { State.reset.svm with banks := [⟨false, []⟩, ⟨true, m⟩] }
theorem svmOf_bank (m : Mem) : (svmOf m).bankMem 1 = m := rfl
theorem svmOf_preferred (m : Mem) : (svmOf m).preferred = some 1 := rfl

def fwSvm : Svm := svmOf (Mem.writeBytes [] 0 fwAll)

theorem written_slice (l : List Byte) (a n : Nat) (h : a + n ≤ l.length) :
    (Mem.writeBytes [] 0 l).readBytes a n = (l.take (a + n)).drop a := by
  rw [readBytes_drop, Mem.readBytes_writeBytes _ _ _ _ rfl h]

theorem fwHead_length : fwHead.length = 64 := rfl
theorem fwDigest_length : (digestBytes (Config.sha3 fwBody)).length = 64 := rfl
theorem fwBody_length : fwBody.length = 2688 := by simp only [fwBody, List.length_append, fwHead_length, zeros, List.length_replicate]
theorem fwAll_length : fwAll.length = 7379 := by
  simp only [fwAll, List.length_append, fwBody_length, fwDigest_length, zeros, List.length_replicate]

theorem fw_head : (Mem.writeBytes [] 0 fwAll).readBytes 0 64 = fwHead := by
  rw [written_slice _ _ _ (by rw [fwAll_length] <;> omega), fwAll, fwBody, List.append_assoc, List.append_assoc, List.append_assoc,
    List.take_left' fwHead_length, List.drop_zero]

theorem fw_key : (Mem.writeBytes [] 0 fwAll).readBytes 0x40 2592 = zeros 2592 := by
  have e : fwAll = (fwHead ++ zeros 2592) ++ (zeros 32 ++ (digestBytes (Config.sha3 fwBody) ++ zeros 4627)) := by
    simp only [fwAll, fwBody, List.append_assoc]
  have l : (fwHead ++ zeros 2592).length = 0x40 + 2592 := by rw [List.length_append, fwHead_length, zeros, List.length_replicate]
  rw [written_slice _ _ _ (by rw [fwAll_length] <;> omega), e, List.take_left' l, List.drop_left' fwHead_length]

theorem fw_body : (Mem.writeBytes [] 0 fwAll).readBytes 0 2688 = fwBody := by
  rw [written_slice _ _ _ (by rw [fwAll_length] <;> omega), fwAll, List.append_assoc, List.take_left' fwBody_length, List.drop_zero]

theorem fw_digest : (Mem.writeBytes [] 0 fwAll).readBytes 2688 64 = digestBytes (Config.sha3 fwBody) := by
  rw [written_slice _ _ _ (by rw [fwAll_length] <;> omega), fwAll,
    List.take_left' (by rw [List.length_append, fwDigest_length, fwBody_length]), List.drop_left' fwBody_length]

theorem fw_sig : (Mem.writeBytes [] 0 fwAll).readBytes (2688 + 64) 4627 = zeros 4627 := by
  rw [written_slice _ _ _ (by rw [fwAll_length] <;> omega), List.take_of_length_le (by rw [fwAll_length] <;> omega), fwAll,
    List.drop_left' (by rw [List.length_append, fwDigest_length, fwBody_length])]

theorem fw_admits (hr : Config.sha3 (zeros 2592) = Config.rootHash 0) : fwSvm.admits (bundleRoot fwHead) (zeros 2592) = true := by
  have h0 : bundleRoot fwHead = 0 := rfl
  have h1 : fwSvm.rootRevoked.getLsbD 0 = false := rfl
  rw [Svm.admits, h0, h1, hr]
  simp

theorem fw_bank : fwSvm.bankMem 1 = Mem.writeBytes [] 0 fwAll := by rw [fwSvm, svmOf_bank]

theorem fw_code (hr : Config.sha3 (zeros 2592) = Config.rootHash 0)
    (hv : Config.mldsaVerify (zeros 2592) (digestBytes (Config.sha3 fwBody)) (zeros 4627) = true) :
    fwSvm.bundleCode (fwSvm.bankMem 1) 4194304 = 0 := by
  have h1 : bundleBody fwHead = 2688 := rfl
  have h2 : bundleHeaderOk fwHead = true := rfl
  have h3 : partOk (leAt fwHead 8 2) (leAt fwHead 0xA 2) = true := rfl
  have h4 : ¬bundleSvn fwHead < fwSvm.fwFloor := by decide
  rw [fw_bank, Svm.bundleCode]
  simp only [bundleKey, fw_head, h1, fw_body, fw_digest, fw_sig, fw_key, h2, h3, h4, fw_admits hr, hv]
  simp [firstCode]

/-- R89, R91, R109: the ROM selects the one valid bank when its key is a root's and its signature verifies; with no valid bank
it selects none. -/
theorem wit_BootRunsVerifiedBank (hr : Config.sha3 (zeros 2592) = Config.rootHash 0)
    (hv : Config.mldsaVerify (zeros 2592) (digestBytes (Config.sha3 fwBody)) (zeros 4627) = true) :
    fwSvm.banks.length = 2 ∧ fwSvm.selectBank = (fwSvm, some (1, false))
    ∧ (let v : Svm := { fwSvm with banks := [⟨false, []⟩, ⟨false, []⟩] }
       v.banks.length = 2 ∧ v.selectBank = (v, none) ∧ v.svn = 0) := by
  refine ⟨rfl, ?_, rfl, rfl, rfl⟩
  have hp : fwSvm.preferred = some 1 := by rw [fwSvm, svmOf_preferred]
  rw [Svm.selectBank, hp]
  simp only [fw_code hr hv, if_true]

theorem wit_Resets :
    (∀ l ∈ [Life.unclaimed, .held, .service, .test, .recovery], let s := inLife l
      s.alive = true ∧ s.serves .pcm ∧ s.dev.life = l ∧ s.pcm.softBusy = false ∧ s.qmg.descs = [] ∧ s.cores.length = 64
      ∧ (∀ k ∈ s.machineOf 63, k < 64) ∧ (∀ k ∈ List.range 64, s.pcm.failed.getLsbD k = false ∧ (s.patrol k).due = false))
    ∧ (let s := inLife .service
       ({ s with pcm := { s.pcm with softBusy := true } } : State).pcm.softBusy = true) := by
  simp only [State.serves]; decide

/-- Timer 15 of the device, by what it holds, at clock 10. -/
def timerW (x : CTimer) : State :=
  let s := world [runD timerD] []
  { s with pcm := { s.pcm with timers := s.pcm.timers.set 15 x }, now := 10 }

theorem wit_Timers :
    (∀ x ∈ [(⟨none, none, false⟩ : CTimer), ⟨some 11, none, false⟩, ⟨some 10, none, true⟩, ⟨some 10, some 1, false⟩],
      (timerW x).pcm.timers[15]? = some x ∧ (timerW x).serves .pcm ∧ (timerW x).now = 10) := by
  simp only [State.serves]; decide

/-- R475, R476: at its time a timer completes the descriptor that holds it. -/
theorem test_timer : gives (exec (.timerExpiry 15) (timerW ⟨some 10, some 1, false⟩)) (fun t =>
    decide (t.qmg.descs.map (fun d => (d.st, d.status)) = [(.ended, stOk)])) = true := by decide

/-- SERVICE with the power manager's flags and island 0 in given states. -/
def powerW (entry frost waking : Bool) (i0 : Island) : State :=
  let s := inLife .service
  { s with
    dev := { s.dev with frost := frost }
    pcm := { s.pcm with frostEntry := entry, frostWaking := waking, islands := s.pcm.islands.set 0 i0 } }

theorem wit_PowerStates :
    (∀ c ∈ [(false, false, false), (true, false, false), (false, true, true)],
      let s := powerW c.1 c.2.1 c.2.2 (Island.reset 0)
      s.dev.life = .service ∧ s.pcm.frostEntry = c.1 ∧ s.dev.frost = c.2.1 ∧ s.pcm.frostWaking = c.2.2 ∧ s.host.heldReqs = []
      ∧ s.cores.length = 64 ∧ s.pcm.islands.length = 18 ∧ Mem.wf s.dram.bytes = true)
    ∧ (∀ st ∈ [IslSt.lull, .calm], let s := powerW false false false { Island.reset 0 with st := st, waking := true }
      0 < s.pcm.islands.length ∧ (s.island 0).waking = true ∧ (s.island 0).st = st ∧ s.host.heldReqs = []) := by decide

set_option maxRecDepth 20000 in
theorem wit_MonitorsAndCap :
    (let s := world [] []
     s.dev.life ≠ .off ∧ (960 : Int) ≤ ((List.replicate 95 (0 : Int)) ++ [960]).getD 95 0
     ∧ (∀ i ∈ List.range 96, (List.replicate 96 (959 : Int)).getD i 0 < 960) ∧ (∀ i ∈ List.range 96, (List.replicate 96 (879 : Int)).getD i 0 < 880)
     ∧ 10 * 74 < (s.island 13).mv ∧ s.sim.image.isSome = true ∧ s.dev.frost = false ∧ 7 < s.pcm.islands.length
     ∧ s.fminOf 7 ≤ (s.island 7).mhz ∧ s.serves .pcm)
    ∧ ((powerW false false false { Island.reset 0 with raise := some 800 }).island 0).raise = some 800 := by
  simp only [State.serves]; decide

theorem wit_ResetInputsAndBoot_timeout :
    (∀ n ∈ [9999999, 10000000], let s := { bootW 1 true true with now := n }
      s.dev.life = .boot ∧ s.dev.bootHeld = true ∧ s.svm.packRun.isNone = true ∧ s.svm.booted = true ∧ s.svm.svn ≠ 0
      ∧ s.tkm.pending.isNone = true ∧ s.dev.bootHeldAt + 10000000 = 10000000 ∧ s.now = n) := by decide

/-- Island 0 in each state in SERVICE, at a time. -/
theorem wit_PowerStates_idle :
    (∀ x ∈ [(IslSt.running, false), (.lull, false), (.calm, false)],
      let s := powerW false false false { Island.reset 0 with st := x.1, waking := x.2 }
      s.dev.life = .service ∧ s.dev.frost = false ∧ s.pcm.frostEntry = false ∧ s.frostDue = false ∧ s.pcm.islands.length = 18
      ∧ s.heldFor 0 = false ∧ (s.island 0).st = x.1 ∧ (s.island 0).waking = x.2 ∧ s.idleC 0 = true ∧ s.wakeDue 1 = false)
    ∧ (let s := powerW false false false (Island.reset 0)
       ({ s with pcm := { s.pcm with timers := s.pcm.timers.set 15 ⟨some 1, none, false⟩ } } : State).wakeDue 1 = true)
    ∧ (let s := powerW false true false (Island.reset 0)
       ({ s with pcm := { s.pcm with timers := s.pcm.timers.set 15 ⟨some 1, none, false⟩ } } : State).wakeDue 3000 = true)
    ∧ ((chkW 0 0 0 0 none).dev.life = .service ∧ (chkW 0 0 0 0 none).dev.frost = false) := by decide

/-- Stack 7 in a state; a die of it at a sixteenth of a degree over or under Table 5's limits; island 0 at 750 mV. -/
theorem wit_MonitorsAndCap_stack :
    (∀ st ∈ [ThermSt.normal, .stopped], ∀ x ∈ [(655 : Int), 680, 735, 760, 799, 800, 839, 840],
      let s := { world [] [] with mcu := List.replicate 7 Mcu.reset ++ [{ Mcu.reset with therm := st }] }
      s.mcu.length = 8 ∧ (s.stack 7).therm = st ∧ x ∈ (List.range 12).map (fun k => (List.replicate 96 x).getD (12 * 7 + k) 0)
      ∧ -32768 ≤ x ∧ x < 880)
    ∧ (∀ at_ ∈ [none, some 0], ∀ n ∈ [999999, 1000000],
      let s := { powerW false false false { Island.reset 0 with droopAt := at_, mv := 750 } with now := n }
      s.dev.life ≠ .off ∧ (s.island 0).droopAt = at_ ∧ (s.island 0).mv = 750 ∧ s.flt.squall = false ∧ s.flt.unread < 1023
      ∧ Tab.wf LogRec.none s.flt.log = true ∧ 0 < s.pcm.islands.length) := by decide

end Sys2Proof.Tests
end

section
/-!
PROOFS. The state after reset (O3).
-/
namespace Sys2Proof.Machine

/-- R77: a core out of reset runs nothing, and its units are idle and open. -/
theorem Core.reset_idle :
    let c := Core.reset
    c.run = .idle ∧ c.work = .none ∧ (∀ w ∈ c.g ++ c.d ++ c.pmc, w = 0) ∧ c.pc = 0 ∧ c.fflags = 0
      ∧ c.steward = false ∧ c.sb = [] ∧ c.mx.jobs = [] ∧ c.mx.close = false
      ∧ ∀ e ∈ c.sce, e.run = .idle ∧ e.close = false ∧ e.pm = [] ∧ e.fault = 0 := by
  have regs : ∀ w ∈ Core.reset.g ++ Core.reset.d ++ Core.reset.pmc, w = 0 := by
    intro w hw
    obtain (hg | hd) | hp := by simpa only [List.mem_append] using hw
    · exact List.eq_of_mem_replicate hg
    · exact List.eq_of_mem_replicate hd
    · exact List.eq_of_mem_replicate hp
  have engines : ∀ e ∈ Core.reset.sce, e = Sce.reset := by simp [Core.reset]
  refine ⟨rfl, rfl, regs, rfl, rfl, rfl, rfl, rfl, rfl, fun e he => ?_⟩
  rw [engines e he]
  exact ⟨rfl, rfl, rfl, rfl⟩

/-- R383: no decoder is committed out of reset. -/
theorem HostIf.reset_hdm : ∀ h ∈ HostIf.reset.hdm, h.committed = false := by decide

/-- The sizes of the device's files out of reset (Table 1 of 01). -/
theorem State.reset_sizes :
    State.reset.cores.length = 64 ∧ State.reset.mcu.length = 8 ∧ State.reset.ports.length = 16
      ∧ State.reset.pcm.islands.length = 18 ∧ State.reset.flt.patrol.length = 64 :=
  ⟨rfl, rfl, rfl, rfl, rfl⟩

/-- Settles O3: the files of like units are copies of one unit out of reset, and every other part reads off the reset state. -/
theorem resetState : Obligations.ResetState := by
  have cores : ∀ c ∈ State.reset.cores, c = Core.reset := fun c h => List.eq_of_mem_replicate h
  have ports : ∀ p ∈ State.reset.ports, p.st = .down ∧ p.close = false ∧ p.peer = none := by
    intro p h
    obtain rfl : p = Port.reset := List.eq_of_mem_replicate h
    exact ⟨rfl, rfl, rfl⟩
  refine ⟨rfl, rfl, rfl, rfl, rfl, rfl, rfl, rfl, rfl, rfl, rfl, rfl, rfl, rfl, rfl, rfl, rfl, rfl, rfl, rfl, ?_, ports,
    HostIf.reset_hdm, rfl, rfl, rfl, rfl, rfl, rfl, State.reset_sizes⟩
  intro c hc
  rw [cores c hc]
  exact Core.reset_idle
end Sys2Proof.Machine
end

section
/-!
PROOFS. The power manager's choice of states, Frost entry and the wakes (O59).
-/
namespace Sys2Proof.Machine

/-! ## Islands -/

theorem State.island_updIsland (s : State) (i k : Nat) (f : Island → Island) :
    (s.updIsland i f).island k = if k = i ∧ i < s.pcm.islands.length then f (s.island k) else s.island k := by
  simp only [State.island, State.updIsland_islands, getD_modAt]

theorem State.island_updIsland_same (s : State) (i : Nat) (f : Island → Island) (h : i < s.pcm.islands.length) :
    (s.updIsland i f).island i = f (s.island i) := by simp [State.island_updIsland, h]

theorem State.island_updIsland_other (s : State) (i k : Nat) (f : Island → Island) (h : k ≠ i) :
    (s.updIsland i f).island k = s.island k := by simp [State.island_updIsland, h]

/-- Giving an island the value it has changes nothing. -/
theorem State.updIsland_self (s : State) (i : Nat) : s.updIsland i (fun _ => s.island i) = s := by
  have : s.pcm.islands.set i (s.pcm.islands.getD i (Island.reset i)) = s.pcm.islands := by
    by_cases h : i < s.pcm.islands.length
    · simp [h]
    · exact List.set_eq_of_length_le (Nat.le_of_not_lt h)
  rw [State.updIsland, modAt_eq_set _ _ _ (Island.reset i)]
  simp only [State.island, this]

/-- R478: an island after the power manager has chosen its state. -/
def State.nextIsland (s : State) (i : Nat) : Island :=
  let x := s.island i
  if x.st = .running ∧ s.islandIdle i = false then { x with since := s.now }
  else if x.waking then x
  else if x.st ≠ .running ∧ s.wakeDue x.st.wakeTime then { x with waking := true }
  else if x.st.depth < (s.deepest i).depth ∧ s.islandIdle i then { x with st := s.deepest i }
  else x

/-- R478: the choice for one island changes that island alone. -/
theorem State.selectIsland_eq (s : State) (i : Nat) : s.selectIsland i = s.updIsland i (fun _ => s.nextIsland i) := by
  have set : ∀ f : Island → Island, s.updIsland i f = s.updIsland i (fun _ => f (s.island i)) := by
    intro f
    simp only [State.updIsland, modAt_eq_set _ _ _ (Island.reset i)]
    rfl
  have keep := (s.updIsland_self i).symm
  simp only [State.selectIsland, State.nextIsland]
  split
  · exact set _
  · split
    · exact keep
    · split
      · exact set _
      · split
        · exact set _
        · exact keep

/-- R477: what the choice for a core island reads is no other island. -/
theorem State.nextIsland_updIsland (s : State) (i j : Nat) (f : Island → Island) (hi : i < 8) (hij : i ≠ j) :
    (s.updIsland j f).nextIsland i = s.nextIsland i := by
  have hx : (s.updIsland j f).island i = s.island i := s.island_updIsland_other j i f hij
  have hidle : (s.updIsland j f).islandIdle i = s.islandIdle i := by
    simp only [State.islandIdle, hi, if_true]
    rfl
  have hdeep : (s.updIsland j f).deepest i = s.deepest i := by
    simp only [State.deepest, hx, hi, decide_true, Bool.true_or]
    rfl
  simp only [State.nextIsland, hx, hidle, hdeep]
  rfl

/-- R479: an island that is no core or fabric island goes no deeper than Lull. -/
theorem State.nextIsland_st_of_shared (s : State) (i : Nat) (hi : 10 ≤ i) :
    (s.nextIsland i).st = (s.island i).st ∨ (s.nextIsland i).st = .lull := by
  have hdeep : s.deepest i = .running ∨ s.deepest i = .lull := by
    have h8 : ¬i < 8 := by omega
    have h10 : ¬i < 10 := by omega
    simp only [State.deepest, h8, h10, decide_false, Bool.false_and, Bool.false_or, Bool.false_eq_true, if_false]
    split <;> simp
  simp only [State.nextIsland]
  split
  · exact .inl rfl
  · split
    · exact .inl rfl
    · split
      · exact .inl rfl
      · split
        · next hd =>
          obtain hr | hl := hdeep
          · rw [hr] at hd
            exact absurd hd.1 (Nat.not_lt_zero _)
          · exact .inr hl
        · exact .inl rfl

/-! ## All islands -/

/-- R478: the choices for islands change islands alone. -/
theorem State.selectIslands_frame (l : List Nat) (s : State) :
    ∃ x, l.foldl State.selectIsland s = { s with pcm := { s.pcm with islands := x } } := by
  induction l generalizing s with
  | nil => exact ⟨s.pcm.islands, rfl⟩
  | cons i r ih =>
    obtain ⟨x, hx⟩ := ih (s.selectIsland i)
    refine ⟨x, ?_⟩
    rw [List.foldl_cons, hx, State.selectIsland_eq]
    rfl

theorem State.selectIslands_other (l : List Nat) (s : State) (i : Nat) (h : i ∉ l) :
    (l.foldl State.selectIsland s).island i = s.island i := by
  induction l generalizing s with
  | nil => rfl
  | cons j r ih =>
    obtain ⟨hj, hr⟩ := not_or.1 (fun k => h (List.mem_cons.2 k))
    rw [List.foldl_cons, ih _ hr, State.selectIsland_eq, s.island_updIsland_other j i _ hj]

/-- R478: a core island gets what the state before the choices says. -/
theorem State.selectIslands_core (l : List Nat) (s : State) (i : Nat) (hl : l.Nodup) (hi : i < 8) (hm : i ∈ l) :
    (l.foldl State.selectIsland s).island i = if i < s.pcm.islands.length then s.nextIsland i else s.island i := by
  induction l generalizing s with
  | nil => cases hm
  | cons j r ih =>
    obtain ⟨hj, hr⟩ := List.nodup_cons.1 hl
    rw [List.foldl_cons]
    by_cases hij : i = j
    · subst hij
      rw [State.selectIslands_other r _ i hj, State.selectIsland_eq, s.island_updIsland]
      simp only [true_and]
    · rw [ih _ hr ((List.mem_cons.1 hm).resolve_left hij), State.selectIsland_eq, s.nextIsland_updIsland i j _ hi hij,
        s.island_updIsland_other j i _ hij, State.updIsland_islands, length_modAt]

theorem State.selectIslands_shared (l : List Nat) (s : State) (i : Nat) (hi : 10 ≤ i) :
    ((l.foldl State.selectIsland s).island i).st = (s.island i).st
      ∨ ((l.foldl State.selectIsland s).island i).st = .lull := by
  induction l generalizing s with
  | nil => exact .inl rfl
  | cons j r ih =>
    have step : ((s.selectIsland j).island i).st = (s.island i).st ∨ ((s.selectIsland j).island i).st = .lull := by
      rw [State.selectIsland_eq, s.island_updIsland]
      split
      · next h =>
        obtain ⟨rfl, _⟩ := h
        exact s.nextIsland_st_of_shared i hi
      · exact .inl rfl
    rw [List.foldl_cons]
    obtain h | h := ih (s.selectIsland j)
    · rwa [h]
    · exact .inr h

/-! ## The power manager -/

/-- R478: the power manager changes the flags of Frost alone, or chooses the islands' states. -/
theorem State.powerSelect_cases (s : State) :
    (∃ e w, s.powerSelect = { s with pcm := { s.pcm with frostEntry := e, frostWaking := w } }
        ∧ (e = true → s.pcm.frostEntry = true ∨ s.dev.frost = false ∧ s.frostDue = true))
      ∨ s.powerSelect = (List.range 17).foldl State.selectIsland s := by
  unfold State.powerSelect
  split
  · left
    split
    · exact ⟨_, _, rfl, .inl⟩
    · exact ⟨_, _, rfl, .inl⟩
  · next hf =>
    split
    · exact .inl ⟨_, _, rfl, .inl⟩
    · split
      · next hd => exact .inl ⟨_, _, rfl, fun _ => .inr ⟨by simpa using hf, hd⟩⟩
      · exact .inr rfl

theorem exec_powerStateSelect (s : State) (h : s.dev.life = .service) :
    exec .powerStateSelect s = .next s.powerSelect := by
  show execPowerStateSelect s = _
  simp [execPowerStateSelect, h]

/-- R478: what the choice of states may change. -/
theorem State.powerSelect_keeps (s : State) :
    let t := s.powerSelect
    t = { s with pcm := t.pcm }
      ∧ (t.pcm.frostEntry = true → s.pcm.frostEntry = true ∨ s.dev.frost = false ∧ s.frostDue = true)
      ∧ (∀ i, i < 8 → s.idleC i = false → (s.island i).st = .running → (t.island i).st = .running)
      ∧ (∀ i, 10 ≤ i → i < 17 → (t.island i).st = (s.island i).st ∨ (t.island i).st = .lull)
      ∧ t.island 17 = s.island 17 := by
  obtain ⟨e, w, ht, he⟩ | ht := s.powerSelect_cases
  · rw [ht]
    exact ⟨rfl, he, fun _ _ _ h => h, fun _ _ _ => .inl rfl, rfl⟩
  · obtain ⟨x, hx⟩ := State.selectIslands_frame (List.range 17) s
    rw [ht]
    refine ⟨by rw [hx], fun h => .inl (by rwa [hx] at h), ?_, ?_, ?_⟩
    · intro i hi hbusy hrun
      have hidle : s.islandIdle i = false := by simp [State.islandIdle, hi, hbusy]
      rw [State.selectIslands_core _ s i List.nodup_range hi (List.mem_range.2 (by omega))]
      split
      · simp only [State.nextIsland, hrun, hidle, and_self, if_true]
      · exact hrun
    · exact fun i hi _ => State.selectIslands_shared _ s i hi
    · exact State.selectIslands_other _ s 17 (by simp)


/-! ## A core island's next state -/

/-- R482: a gated island begins to wake in time for the next timer. -/
theorem State.nextIsland_due (s : State) (k : Nat) (hst : (s.island k).st ≠ .running) (hw : (s.island k).waking = false)
    (hdue : s.wakeDue (s.island k).st.wakeTime = true) : s.nextIsland k = { s.island k with waking := true } := by
  simp only [State.nextIsland, hst, hw, hdue, false_and, if_false, Bool.false_eq_true, ne_eq, not_false_iff, and_self, if_true]

/-- R478, Table 1 and Table 2 of 17: the state of an idle core island at a gap in microseconds. -/
def IslSt.ofGap (g : Nat) : IslSt := if g < 2 then .running else if g < 400 then .lull else .calm

section CoreIsland

variable (s : State) (k : Nat) (hk : k < 8)
include hk

/-- R478: a busy core island restarts its idle time. -/
theorem State.nextIsland_busy (hrun : (s.island k).st = .running) (hbusy : s.idleC k = false) :
    s.nextIsland k = { s.island k with since := s.now } := by
  have hidle : s.islandIdle k = false := by simp [State.islandIdle, hk, hbusy]
  simp only [State.nextIsland, hrun, hidle, and_self, if_true]

/-- R478: an idle core island that no timer wakes goes to the deepest state its gap allows, and never less deep. -/
theorem State.nextIsland_idle (hheld : s.heldFor k = false) (hidle : s.idleC k = true) (hw : (s.island k).waking = false)
    (hdue : (s.island k).st = .running ∨ s.wakeDue (s.island k).st.wakeTime = false) :
    s.nextIsland k
      = if (s.island k).st.depth < (s.deepest k).depth then { s.island k with st := s.deepest k } else s.island k := by
  have hi : s.islandIdle k = true := by simp [State.islandIdle, hk, hheld, hidle]
  have hd : ¬((s.island k).st ≠ .running ∧ s.wakeDue (s.island k).st.wakeTime = true) := by
    rintro ⟨h1, h2⟩
    obtain h | h := hdue
    · exact h1 h
    · rw [h] at h2; cases h2
  simp only [State.nextIsland, hi, hw, hd, Bool.true_eq_false, Bool.false_eq_true, and_false, and_true, if_false]

/-- Table 1 and Table 2 of 17: the depth that a core island's gap allows. -/
theorem State.deepest_core : s.deepest k = .ofGap (s.gap (s.island k).since) := by
  simp only [State.deepest, IslSt.ofGap, hk, decide_true, Bool.true_or, Bool.true_and, decide_eq_true_eq]
  split
  · rfl
  · split
    · next h => rw [if_neg (by omega)]
    · next h => rw [if_pos (by omega)]

end CoreIsland

/-- R478: an idle running core island goes to the state that its gap allows. -/
theorem Island.deepen_running (x : Island) (g : Nat) (hst : x.st = .running) :
    (if x.st.depth < (IslSt.ofGap g).depth then { x with st := .ofGap g } else x) = { x with st := .ofGap g } := by
  rw [hst]
  cases IslSt.ofGap g with
  | running => simp [IslSt.depth, ← hst]
  | lull | calm | off => simp [IslSt.depth]

/-- R478: an idle core island in Lull goes to Calm when its gap allows it. -/
theorem Island.deepen_lull (x : Island) (g : Nat) (hst : x.st = .lull) :
    (if x.st.depth < (IslSt.ofGap g).depth then { x with st := .ofGap g } else x)
      = { x with st := if g < 400 then .lull else .calm } := by
  by_cases h4 : g < 400
  · have hle : (IslSt.ofGap g).depth ≤ IslSt.lull.depth := by
      rw [IslSt.ofGap, if_pos h4]
      split <;> simp [IslSt.depth]
    rw [hst, if_neg (Nat.not_lt.2 hle), if_pos h4, ← hst]
  · have hc : IslSt.ofGap g = .calm := by rw [IslSt.ofGap, if_neg (by omega), if_neg h4]
    rw [hst, hc, if_neg h4]
    rfl

/-! ## Caches of the cores -/

theorem State.dropPriv_sliceOnly (s : State) (n l : Nat) : s.sliceOnly (s.dropPriv n l) := by
  have h := s.updCore_sliceOnly n (fun c => { c with priv := Tab.put .absent c.priv l .absent }) (fun _ => rfl)
  simp only [State.dropPriv]
  split
  · exact h.trans (State.serveWrite_sliceOnly _ _ _ _ _ _)
  · exact h

theorem State.dropL1_sliceOnly (s : State) (n k : Nat) : s.sliceOnly (s.dropL1 n k) := by
  have h := s.updCore_sliceOnly n (fun c => { c with l1 := Tab.put .absent c.l1 k .absent }) (fun _ => rfl)
  simp only [State.dropL1]
  split
  · exact h.trans (State.serveWrite_sliceOnly _ _ _ _ _ _)
  · exact h

/-- Table 5 of 17: emptying a core's caches moves lines and copies of lines alone. -/
theorem State.emptyCore_sliceOnly (s : State) (n : Nat) (back : Bool) : s.sliceOnly (s.emptyCore n back) := by
  have lose : ∀ (t : State) (d : Tab DirEntry),
      t.sliceOnly (State.updCore { t with dram := { t.dram with dir := d } } n (fun c => { c with l1 := [], priv := [] })) :=
    fun t d => (State.sliceOnly_of rfl).trans (State.updCore_sliceOnly _ _ _ (fun _ => rfl))
  cases back
  · exact lose s _
  · have priv := State.sliceOnly_foldl ((s.core n).priv.map (·.1)) (fun t l => t.dropPriv n l)
      (fun t l => t.dropPriv_sliceOnly n l) s
    have l1 := State.sliceOnly_foldl ((s.core n).l1.map (·.1)) (fun t k => t.dropL1 n k)
      (fun t k => t.dropL1_sliceOnly n k) (((s.core n).priv.map (·.1)).foldl (fun t l => t.dropPriv n l) s)
    exact (priv.trans l1).trans (lose _ _)

theorem State.emptyCores_sliceOnly (s : State) : s.sliceOnly s.emptyCores :=
  State.sliceOnly_foldl _ _ (fun t n => t.emptyCore_sliceOnly n true) s

/-! ## FROST -/

/-- R32: a message raised changes nothing that the host waits for. -/
@[simp] theorem HostIf.raised_heldReqs (h : HostIf) (v : Nat) : (h.raised v).heldReqs = h.heldReqs := by
  unfold HostIf.raised
  split <;> rfl

/-- R15, R480: a change of FROST changes FROST, STATE_CHANGED and the interrupt that reports it. -/
theorem State.setFrost_frame (s : State) (b : Bool) :
    ∃ c h, s.setFrost b = { s with dev := { s.dev with frost := b, stateChanged := c }, host := h }
      ∧ h.heldReqs = s.host.heldReqs := by
  unfold State.setFrost
  split
  · next h => exact ⟨s.dev.stateChanged, s.host, by rw [← h], rfl⟩
  · unfold State.setChanged
    split
    · exact ⟨_, _, rfl, rfl⟩
    · exact ⟨_, _, rfl, HostIf.raised_heldReqs _ _⟩

/-! ## Frost entry -/

/-- R480, R481: the device once Frost entry has completed. -/
theorem State.enterFrost_spec (s : State) :
    let t := s.enterFrost
    t.dev.frost = true ∧ t.dev.life = s.dev.life ∧ t.dram.nsc = [] ∧ t.dram.bytes = s.dram.bytes
      ∧ (∀ k, s.cached t k) ∧ ∀ i, i < 10 → (t.island i).st = .off := by
  have slices := s.emptyCores_sliceOnly
  simp only [State.enterFrost]
  generalize s.emptyCores = u at slices
  obtain ⟨⟨hs, _, hc⟩, _⟩ := slices
  obtain ⟨c, h, hf, _⟩ := u.emptySlices.setFrost_frame true
  rw [hf]
  refine ⟨rfl, by rw [hs]; rfl, rfl, by rw [hs]; rfl, hc, fun i hi => ?_⟩
  have h18 : i < 18 := by omega
  simp [State.island, hi, h18]

theorem exec_frostEntryComplete (s : State) (h : s.pcm.frostEntry = true) :
    exec .frostEntryComplete s = .next s.enterFrost := by
  show execFrostEntryComplete s = _
  rw [execFrostEntryComplete, if_pos h]

/-! ## The wake from Frost -/

/-- R347: a waiting retrain that starts changes its controller alone. -/
theorem State.nextRetrain_frame (s : State) (i : Nat) : ∃ m, s.nextRetrain i = { s with mcu := m } := by
  have trigger : ∀ (t : State) (ch : Nat), ∃ m, t.trigger ch = { t with mcu := m } := by
    intro t ch
    unfold State.trigger
    dsimp only
    split
    · exact ⟨t.mcu, rfl⟩
    · split
      · split
        · exact ⟨t.mcu, rfl⟩
        · exact ⟨_, rfl⟩
      · exact ⟨_, rfl⟩
  unfold State.nextRetrain
  split
  · exact ⟨s.mcu, rfl⟩
  · split
    · exact ⟨s.mcu, rfl⟩
    · obtain ⟨m, hm⟩ := trigger _ _
      exact ⟨m, hm⟩

/-- R347: retrains that start change the controllers alone. -/
theorem State.retrainAll_frame (s : State) : ∃ m, s.retrainAll = { s with mcu := m } := by
  have go : ∀ (l : List Nat) (t : State), ∃ m, l.foldl State.nextRetrain t = { t with mcu := m } := by
    intro l
    induction l with
    | nil => exact fun t => ⟨t.mcu, rfl⟩
    | cons i r ih =>
      intro t
      obtain ⟨m, hm⟩ := t.nextRetrain_frame i
      obtain ⟨m', hm'⟩ := ih (t.nextRetrain i)
      exact ⟨m', by rw [List.foldl_cons, hm', hm]⟩
  exact go _ s

/-- R386: with no access held there is nothing to serve. -/
theorem State.serveHost_of_none (s : State) (h : s.host.heldReqs = []) : s.serveHost = s := by
  simp [State.serveHost, h]

/-- Zeroing ranges of memory keeps it canonical. -/
theorem Mem.wf_zeros (n : Nat) (as : List Nat) (m : Mem) (h : m.wf = true) :
    (as.foldl (fun x a => x.zero a n) m).wf = true := by
  induction as generalizing m with
  | nil => exact h
  | cons a r ih => exact ih _ (Mem.wf_zero m a n h)

/-- After ranges of memory are zeroed, the bytes in them read zero and every other byte as before. -/
theorem Mem.read_zeros (n : Nat) (as : List Nat) (m : Mem) (c : Nat) (h : m.wf = true) :
    (as.foldl (fun x a => x.zero a n) m).read c = if ∃ a ∈ as, a ≤ c ∧ c < a + n then 0 else m.read c := by
  induction as generalizing m with
  | nil => simp
  | cons a r ih =>
    rw [List.foldl_cons, ih _ (Mem.wf_zero m a n h), Mem.read_zero m a n c h]
    by_cases ha : a ≤ c ∧ c < a + n <;> simp [ha]

/-- R481: a core once its cluster's state is lost in Frost. -/
def Core.thawed (c : Core) : Core :=
  { c.zeroed with ctxValid := c.ctxValid, ctx := c.ctx, work := c.work, desc := c.desc }

/-- R481: the cores' state and their scratchpads are zeroed, and nothing else changes. -/
theorem State.zeroClusters_frame (l : List Nat) (s : State) :
    let t := l.foldl (fun t n => (t.zeroSpad n).updCore n Core.thawed) s
    t = { s with dram := t.dram, cores := t.cores }
      ∧ t.dram.bytes = (l.map spadBase).foldl (fun x a => x.zero a 0x400000) s.dram.bytes
      ∧ ∀ k, (t.core k).g = if k ∈ l ∧ k < s.cores.length then List.replicate 32 0 else (s.core k).g := by
  induction l generalizing s with
  | nil => exact ⟨rfl, rfl, fun k => by simp⟩
  | cons n r ih =>
    obtain ⟨hs, hb, hg⟩ := ih ((s.zeroSpad n).updCore n Core.thawed)
    refine ⟨hs, hb, fun k => ?_⟩
    have hcore : (((s.zeroSpad n).updCore n Core.thawed).core k).g
        = if k = n ∧ n < s.cores.length then List.replicate 32 0 else (s.core k).g := by
      rw [State.core_updCore]
      exact apply_ite Core.g _ _ _
    rw [List.foldl_cons, hg k, hcore]
    simp only [State.cores_length_updCore, State.zeroSpad_cores, List.mem_cons]
    by_cases hk : k = n
    · subst hk
      by_cases hlt : k < s.cores.length <;> simp [hlt]
    · simp [hk]


/-- R481: core n's general registers and its scratchpad read zero. -/
def State.clusterZero (t : State) (n : Nat) : Prop :=
  (t.core n).g = List.replicate 32 0 ∧ ∀ k, k < 0x400000 → Mem.read t.dram.bytes (spadBase n + k) = 0

/-- R481: the cores' registers and scratchpads read zero, and DRAM, which no scratchpad window meets, as before. -/
theorem State.zeroCluster_spec (s : State) (hwf : Mem.wf s.dram.bytes = true) (hcores : s.cores.length = 64) :
    let t := s.zeroCluster
    t = { s with dram := t.dram, cores := t.cores }
      ∧ (∀ n, n < 64 → t.clusterZero n)
      ∧ ∀ a, a < dramTop → Mem.read t.dram.bytes a = Mem.read s.dram.bytes a := by
  obtain ⟨hs, hb, hg⟩ := State.zeroClusters_frame (List.range 64) s
  have hread : ∀ a, Mem.read s.zeroCluster.dram.bytes a
      = if ∃ x ∈ (List.range 64).map spadBase, x ≤ a ∧ a < x + 0x400000 then 0 else Mem.read s.dram.bytes a := by
    intro a
    rw [← Mem.read_zeros _ _ _ _ hwf, ← hb]
    rfl
  refine ⟨hs, fun n hn => ⟨?_, fun k hk => ?_⟩, fun a ha => ?_⟩
  · exact (hg n).trans (if_pos ⟨List.mem_range.2 hn, by omega⟩)
  · rw [hread, if_pos ⟨spadBase n, List.mem_map.2 ⟨n, List.mem_range.2 hn, rfl⟩, by omega, by omega⟩]
  · rw [hread, if_neg]
    rintro ⟨x, hx, hle, _⟩
    obtain ⟨n, _, rfl⟩ := List.mem_map.1 hx
    have : dramTop ≤ spadBase n := Nat.le_add_right _ _
    omega

/-- R481, R482: the device once its wake from Frost has completed. -/
theorem State.leaveFrost_spec (s : State) (hfrost : s.dev.frost = true) (hentry : s.pcm.frostEntry = false)
    (hheld : s.host.heldReqs = []) (hcores : s.cores.length = 64) (hislands : s.pcm.islands.length = 18)
    (hwf : Mem.wf s.dram.bytes = true) :
    let t := s.leaveFrost
    t.dev.frost = false ∧ t.dev.life = s.dev.life ∧ (∀ i, i < 18 → (t.island i).st = .running)
      ∧ (∀ n, n < 64 → t.clusterZero n)
      ∧ ∀ a, a < dramTop → Mem.read t.dram.bytes a = Mem.read s.dram.bytes a := by
  have cluster := s.zeroCluster_spec hwf hcores
  simp only [State.leaveFrost, State.thaw, hfrost, hentry, Bool.not_true, Bool.false_and, Bool.false_eq_true, if_false, if_true]
  generalize s.zeroCluster = z at cluster
  obtain ⟨hz, hzero, hdram⟩ := cluster
  obtain ⟨c, h, hf, hh⟩ := State.setFrost_frame { z with pcm := { z.pcm with
    frostEntry := false, frostWaking := false, islands := z.pcm.islands.map (Island.awake z.now) } } false
  rw [hf]
  obtain ⟨m, hm⟩ := State.retrainAll_frame { z with
    dev := { z.dev with frost := false, stateChanged := c }
    host := h
    pcm := { z.pcm with
      frostEntry := false, frostWaking := false, islands := z.pcm.islands.map (Island.awake z.now) } }
  rw [hm, State.serveHost_of_none _ (by rw [hh, hz]; exact hheld)]
  refine ⟨rfl, by rw [hz], fun i hi => ?_, hzero, hdram⟩
  have hlen : i < z.pcm.islands.length := by rw [hz]; exact hislands ▸ hi
  simp [State.island, hlen, Island.awake]

theorem exec_deviceWakeComplete (s : State) (hf : s.dev.frost = true) (hw : s.pcm.frostWaking = true) :
    exec .deviceWakeComplete s = .next s.leaveFrost := by
  show execDeviceWakeComplete s = _
  simp [execDeviceWakeComplete, hf, hw]

/-- R482: an island that completes its wake, with no host access held. -/
theorem exec_islandWakeComplete (s : State) (i : Nat) (hw : (s.island i).waking = true) (hst : (s.island i).st ≠ .off)
    (hheld : s.host.heldReqs = []) : exec (.islandWakeComplete i) s = .next (s.updIsland i (Island.awake s.now)) := by
  show execIslandWakeComplete i s = _
  simp [execIslandWakeComplete, hw, hst, State.serveHost_of_none, hheld]

/-- R478: what the choice for a core island that no held write waits for gives it. -/
theorem State.powerSelect_core (s : State) (hfrost : s.dev.frost = false) (hentry : s.pcm.frostEntry = false)
    (hdue : s.frostDue = false) (hlen : s.pcm.islands.length = 18) (k : Nat) (hk : k < 8) :
    s.powerSelect.island k = s.nextIsland k := by
  have hsel : s.powerSelect = (List.range 17).foldl State.selectIsland s := by
    simp [State.powerSelect, hfrost, hentry, hdue]
  rw [hsel, State.selectIslands_core _ s k List.nodup_range hk (List.mem_range.2 (by omega)), if_pos (by omega)]

/-- Settles O59: the choice of states island by island, then Frost entry, the wake of the device and of one island. -/
theorem powerStates : Obligations.PowerStates := by
  intro s
  refine ⟨fun hs => ⟨_, exec_powerStateSelect s hs, s.powerSelect_keeps⟩, ?_, ?_, ?_, ?_, ?_, ?_⟩
  · intro hs hf hd
    rw [exec_powerStateSelect s hs]
    simp [State.powerSelect, hf, hd]
  · intro hs hf he hd
    rw [exec_powerStateSelect s hs]
    simp [State.powerSelect, hf, he, hd]
  · intro hs hf he hd hlen k hk hheld
    refine ⟨_, exec_powerStateSelect s hs, ?_⟩
    rw [s.powerSelect_core hf he hd hlen k hk]
    refine ⟨fun hst hbusy => s.nextIsland_busy k hk hst hbusy, fun hst hidle hw => ?_, fun hst hw hidle hdue => ?_,
      fun hst hw hdue => ?_, fun hst hw hdue => ?_⟩
    · rw [s.nextIsland_idle k hk hheld hidle hw (.inl hst), s.deepest_core k hk]
      exact Island.deepen_running _ _ hst
    · rw [s.nextIsland_idle k hk hheld hidle hw (.inr (by rwa [hst])), s.deepest_core k hk]
      exact Island.deepen_lull _ _ hst
    · exact s.nextIsland_due k (by simp [hst]) hw (by rwa [hst])
    · exact s.nextIsland_due k (by simp [hst]) hw (by rwa [hst])
  · intro he hs
    obtain ⟨hfrost, hlife, hrest⟩ := s.enterFrost_spec
    exact ⟨_, exec_frostEntryComplete s he, hfrost, hlife.trans hs, hrest⟩
  · intro hf hw he hheld hcores hlen hwf
    exact ⟨_, exec_deviceWakeComplete s hf hw, s.leaveFrost_spec hf he hheld hcores hlen hwf⟩
  · intro i hi hw hst hheld
    refine ⟨_, exec_islandWakeComplete s i hw hst hheld, ?_, ?_, rfl, fun j hj => s.island_updIsland_other i j _ hj⟩
    · rw [s.island_updIsland_same i _ hi]; rfl
    · rw [s.island_updIsland_same i _ hi]; rfl

end Sys2Proof.Machine
end

section
/-!
PROOFS. The function's requests, BAR0 writes in general and the debug access port (O45).
-/
namespace Sys2Proof.Machine

/-! ## Little-endian bytes -/

/-- R4: the little-endian bytes of a number hold it. -/
theorem leNat_leBytes (n v : Nat) : leNat (leBytes n v) = v % 256 ^ n := by
  induction n generalizing v with
  | zero => simp [leBytes, leNat, Nat.mod_one]
  | succ n ih =>
    rw [leBytes, leNat, ih, BitVec.toNat_ofNat, show 2 ^ 8 = 256 from rfl, Nat.pow_succ', Nat.mod_mul]

/-- The first field of a byte string reads as the number written there. -/
theorem leAt_leBytes_append (n v : Nat) (r : List Byte) : leAt (leBytes n v ++ r) 0 n = v % 256 ^ n := by
  rw [leAt, List.drop_zero, List.take_left' (leBytes_length n v), leNat_leBytes]

/-- A field behind the first reads as it would alone. -/
theorem leAt_append_leBytes (k n v : Nat) (r : List Byte) : leAt (leBytes k v ++ r) k n = leAt r 0 n := by
  rw [leAt, leAt, List.drop_left' (leBytes_length k v), List.drop_zero]

/-! ## Configuration space and data objects -/

/-- R94: in BOOT a configuration request is answered with Retry Status. -/
theorem exec_configurationRequest_boot (s : State) (ha : s.alive = true) (hb : s.dev.life = .boot)
    (w : Option Nat) (off : Nat) : exec (.configurationRequest w off) s = .next (s.reply [] false configRetry) := by
  show execConfigurationRequest w off s = _
  simp [execConfigurationRequest, ha, hb]

/-- R381: a read of configuration space. -/
theorem exec_configurationRequest_read (s : State) (h : s.configured = true) (off : Nat) :
    exec (.configurationRequest none off) s
      = .next (s.reply (leBytes 4 (s.configRead (off % 4096 / 4 * 4))) false 0).drawn := by
  obtain ⟨ha, hb⟩ : s.alive = true ∧ s.dev.life ≠ .boot := by simpa [State.configured] using h
  show execConfigurationRequest none off s = _
  simp [execConfigurationRequest, ha, hb]

/-- R381: a write of configuration space. -/
theorem exec_configurationRequest_write (s : State) (h : s.configured = true) (v off : Nat) :
    exec (.configurationRequest (some v) off) s
      = .next ({ s with host := s.host.configSet (off % 4096 / 4 * 4) v }.reply [] false 0) := by
  obtain ⟨ha, hb⟩ : s.alive = true ∧ s.dev.life ≠ .boot := by simpa [State.configured] using h
  show execConfigurationRequest (some v) off s = _
  simp [execConfigurationRequest, ha, hb]

/-- Table 2 of 14: dword 0 holds the device and vendor identifiers. -/
theorem State.configRead_ids (s : State) : leBytes 4 (s.configRead 0) = [0x3D, 0x1F, 0x21, 0x7A] := by
  have h : s.configRead 0 = 0x7A211F3D := rfl
  rw [h]
  rfl

theorem State.dramPresent_eq (s : State) :
    s.dramPresent = if s.excl.inForce = none then 512 * 2 ^ 30 else 510 * 2 ^ 30 := by
  unfold State.dramPresent
  cases s.excl.inForce <;> rfl

/-- R384: the high dword of a CXL DVSEC's size is that of the DRAM present. -/
theorem State.configRead_size (s : State) :
    s.configRead 0x2B8 = (if s.excl.inForce = none then 512 else 510) * 2 ^ 30 / 2 ^ 32 := by
  have h : s.configRead 0x2B8 = s.dramPresent / 2 ^ 32 % 2 ^ 32 := rfl
  rw [h, s.dramPresent_eq]
  split <;> rfl

/-- R384: the answer to its read holds that dword whole. -/
theorem State.configRead_size_bytes (s : State) :
    leAt (leBytes 4 (s.configRead 0x2B8)) 0 4 = (if s.excl.inForce = none then 512 else 510) * 2 ^ 30 / 2 ^ 32 := by
  have h := leAt_leBytes_append 4 (s.configRead 0x2B8) []
  rw [List.append_nil] at h
  rw [h, s.configRead_size]
  split <;> rfl

theorem exec_busMasterEnable (s : State) (h : s.configured = true) :
    exec .busMasterEnable s = .next { s with host := { s.host with busMaster := true }.unmasked } := by
  show execBusMasterEnable s = _
  rw [execBusMasterEnable, if_pos h]

theorem exec_d3hotEnter (s : State) (h : s.configured = true) :
    exec .d3hotEnter s = .next { s with host := { s.host with d3hot := true } } := by
  show execD3hotEnter s = _
  rw [execD3hotEnter, if_pos h]

theorem exec_d0Enter (s : State) (h : s.configured = true) :
    exec .d0Enter s = .next { s with host := { s.host with d3hot := false }.unmasked } := by
  show execD0Enter s = _
  rw [execD0Enter, if_pos h]

theorem exec_doeDiscovery (s : State) (h : s.configured = true) :
    exec .doeDiscovery s = .next (s.reply [0, 1, 2, 3] false 0) := by
  show execDoeDiscovery s = _
  rw [execDoeDiscovery, if_pos h]

theorem exec_cdatRead (s : State) (h : s.configured = true) :
    exec .cdatRead s = .next (s.reply s.cdat false 0).drawn := by
  show execCdatRead s = _
  rw [execCdatRead, if_pos h]

/-- R384: the CDAT gives the base and the length of the memory behind set 0. -/
theorem State.cdat_span (s : State) :
    leAt s.cdat 0 8 = 2 ^ 24
      ∧ leAt s.cdat 8 8 = (if s.excl.inForce = none then 512 * 2 ^ 30 else 510 * 2 ^ 30) - 2 ^ 24 := by
  have layout : s.cdat = leBytes 8 (2 ^ 24) ++ (leBytes 8 (s.dramPresent - 2 ^ 24)
      ++ (leBytes 1 1 ++ (leBytes 8 (Config.reading s.free 0) ++ leBytes 8 (Config.reading s.free 1)))) := by
    simp only [State.cdat, List.append_assoc]
  rw [layout]
  refine ⟨leAt_leBytes_append 8 (2 ^ 24) _, ?_⟩
  rw [leAt_append_leBytes, leAt_leBytes_append, s.dramPresent_eq]
  split <;> rfl

/-- R74: the bytes of class T0. -/
theorem State.t0_length (s : State) : s.t0.length = 398 := by
  simp only [State.t0, List.length_append, List.length_flatMap, leBytes_length, List.map_const', List.sum_replicate_nat,
    List.length_range]

theorem exec_mctpRequest (s : State) (h : s.alive = true) : exec .mctpRequest s = .next (s.reply s.t0 false 0).drawn := by
  show execMctpRequest s = _
  rw [execMctpRequest, if_pos h]

/-! ## Records -/

@[simp] theorem HostIf.raised_ideKeyed (h : HostIf) (v : Nat) : (h.raised v).ideKeyed = h.ideKeyed := by
  unfold HostIf.raised
  split <;> rfl

/-- R453: a record falling due sets FAULT_NEW, and changes the log and the interrupt that reports it. -/
theorem State.post_frame (s : State) (r : LogRec) :
    ∃ f h, s.post r = { s with flt := f, host := h, dev := { s.dev with faultNew := true } }
      ∧ h.ideKeyed = s.host.ideKeyed := by
  unfold State.post State.setFaultNew
  dsimp only
  split
  · next h => exact ⟨_, s.host, by rw [← h], rfl⟩
  · exact ⟨_, _, rfl, HostIf.raised_ideKeyed _ _⟩

theorem exec_ideIntegrityFailure (s : State) (h : s.alive = true) :
    exec .ideIntegrityFailure s
      = .next ({ s with host := { s.host with ideKeyed := false } }.post (LogRec.mk0 9 sevRecoverable 2 0xE)) := by
  show execIdeIntegrityFailure s = _
  rw [execIdeIntegrityFailure, if_pos h]

/-! ## BAR0 -/

theorem exec_registerWrite_bar0 (s : State) (off size v : Nat) :
    exec (.registerWrite ⟨0, off⟩ size v) s = .next (s.barWrite off size v) := rfl

/-- R5, R6, R512: a write that reaches no register changes nothing. -/
theorem State.barWrite_discarded (s : State) (off size v : Nat)
    (h : s.decodes = false ∨ (size ≠ 4 ∧ size ≠ 8) ∨ off % size ≠ 0 ∨ blockAt off = none) :
    s.barWrite off size v = s := by
  obtain hd | ⟨h4, h8⟩ | ha | hb := h
  · simp [State.barWrite, hd]
  · simp [State.barWrite, barOk, h4, h8]
  · simp [State.barWrite, barOk, ha]
  · simp [State.barWrite, hb]

section Block

variable (s : State) (off size v : Nat) (b : Block) (o : Nat) (hb : blockAt off = some (b, o))
include hb

/-- R516: a write of a block that does not answer changes nothing. -/
theorem State.barWrite_unanswered (h : s.answers b = false) : s.barWrite off size v = s := by
  simp [State.barWrite, hb, h]

/-- R482: a write of a block whose island is gated is held. -/
theorem State.barWrite_gated (hd : s.decodes = true) (hok : barOk off size = true) (ha : s.answers b = true)
    (hg : s.gated b = true) : s.barWrite off size v = s.holdWrite b off size v := by
  simp [State.barWrite, hb, hd, hok, ha, hg]

end Block

theorem barOk_of (off size : Nat) (hs : size = 4 ∨ size = 8) (ho : off % size = 0) : barOk off size = true := by
  simp [barOk, hs, ho]

/-- R482: holding a write changes the power manager alone, and puts the write behind those already held. -/
theorem State.holdWrite_frame (s : State) (b : Block) (off size v : Nat) :
    ∃ p, s.holdWrite b off size v = { s with pcm := p } ∧ p.held = s.pcm.held ++ [⟨off, size, v⟩] := by
  unfold State.holdWrite
  dsimp only
  split <;> exact ⟨_, rfl, rfl⟩

theorem exec_heldAccessApply (s : State) : exec .heldAccessApply s = .next s.heldApply := rfl

/-- R482: the oldest held write at a block: discarded where the block answers no more, kept while its island is gated, and
else applied. -/
theorem State.heldApply_cons (s : State) (h : HeldWrite) (r : List HeldWrite) (b : Block) (o : Nat)
    (hh : s.pcm.held = h :: r) (hb : blockAt h.off = some (b, o)) :
    s.heldApply =
      if s.answers b = false then { s with pcm := { s.pcm with held := r } }
      else if s.gated b = true then s
      else State.blockWrite { s with pcm := { s.pcm with held := r } } b o h.size h.value := by
  unfold State.heldApply
  split
  · next hn => rw [hn] at hh; cases hh
  · next h' r' hc =>
    obtain ⟨rfl, rfl⟩ : h' = h ∧ r' = r := by
      rw [hc] at hh
      exact List.cons.inj hh
    simp only [hb, Bool.not_eq_true']

/-- R482: a write that a block takes at once does what it would do once held. -/
theorem State.heldApply_serves (s : State) (off size v : Nat) (b : Block) (o : Nat) (hb : blockAt off = some (b, o))
    (ha : s.answers b = true) (hg : s.gated b = false) :
    State.heldApply { s with pcm := { s.pcm with held := ⟨off, size, v⟩ :: s.pcm.held } } = s.blockWrite b o size v := by
  have ha' : State.answers { s with pcm := { s.pcm with held := ⟨off, size, v⟩ :: s.pcm.held } } b = true := ha
  have hg' : State.gated { s with pcm := { s.pcm with held := ⟨off, size, v⟩ :: s.pcm.held } } b = false := hg
  rw [State.heldApply_cons _ ⟨off, size, v⟩ s.pcm.held b o rfl hb, ha', hg']
  rfl

/-! ## Halves of registers -/

/-- R5: a 32-bit write of the upper half of a register keeps its lower half. -/
theorem merge_upper (w v : Nat) (hv : v < 2 ^ 32) :
    merge w (v <<< 32) ((2 ^ 32 - 1) <<< 32) = w % 2 ^ 32 + v * 2 ^ 32 := by
  have mask : 0xFFFFFFFFFFFFFFFF ^^^ ((2 ^ 32 - 1) <<< 32) = 2 ^ 32 - 1 := by decide
  rw [merge, mask, Nat.and_two_pow_sub_one_eq_mod, ← Nat.shiftLeft_and_distrib,
    Nat.and_two_pow_sub_one_of_lt_two_pow hv, Nat.or_comm,
    ← Nat.shiftLeft_add_eq_or_of_lt (Nat.mod_lt _ (Nat.two_pow_pos 32)), Nat.shiftLeft_eq, Nat.add_comm]

/-- R5: a 32-bit write of the upper half of QMG.ARG[0]. -/
theorem State.barWrite_qmgArg_upper (s : State) (h : s.serves .qmg) (v : Nat) (hv : v < 2 ^ 32) :
    s.barWrite 0x400104 4 v = { s with qmg := { s.qmg with
      arg := s.qmg.arg.set 0 (BitVec.ofNat 64 ((s.qmg.arg.getD 0 0).toNat % 2 ^ 32 + v * 2 ^ 32)) } } := by
  have write : s.blockWrite .qmg 0x104 4 v
      = { s with qmg := { s.qmg with arg := mergeAt s.qmg.arg 0 ((v % 2 ^ 32) <<< 32) ((2 ^ 32 - 1) <<< 32) } } := rfl
  rw [State.barWrite_serves s 0x400104 4 v .qmg 0x104 rfl rfl h, write, mergeAt, modAt_eq_set _ _ _ 0,
    Nat.mod_eq_of_lt hv, merge_upper _ v hv]

/-- R8, R32: a 32-bit write of GSTATUS clears the bits of it that are written 1. -/
theorem State.barWrite_gstatus (s : State) (h : s.serves .gid) (v : Nat) (hv : v < 2 ^ 32) :
    s.barWrite 0x10 4 v = { s with dev := { s.dev with
      stateChanged := s.dev.stateChanged && !v.testBit 9
      faultNew := s.dev.faultNew && !v.testBit 8 } } := by
  have write : s.blockWrite .gid 0x10 4 v = s.gidWrite 0x10 (v % 2 ^ 32) (2 ^ 32 - 1) := rfl
  rw [State.barWrite_serves s 0x10 4 v .gid 0x10 rfl rfl h, write, Nat.mod_eq_of_lt hv, State.gidWrite, if_pos rfl,
    Nat.and_two_pow_sub_one_of_lt_two_pow hv]
  rfl

/-! ## The debug access port -/

theorem exec_debugPortAccess (s : State) (h : s.dev.life ≠ .off) (a : DbgAccess) :
    exec (.debugPortAccess a) s = .next (s.debugAccess a) := by
  show execDebugPortAccess a s = _
  rw [execDebugPortAccess, if_neg h]

/-- R115: with no session there is no scope, and the port does nothing. -/
theorem State.debugAccess_closed (s : State) (h : s.svm.dbg = none) (a : DbgAccess) : s.debugAccess a = s := by
  have none_granted : ∀ b, s.granted b = false := by simp [State.granted, h]
  cases a <;> simp [State.debugAccess, none_granted]

/-- R515: above set 0 the port reads a byte as every unit does, and the mirror reserve as zero. -/
theorem State.debugAccess_memRead (s : State) (hg : s.granted 1 = true) (pa : Nat) (hpa : 0x1000000 ≤ pa)
    (hok : s.physOk pa = true) :
    s.debugAccess (.memRead pa 1) = State.drawn { s with tap := { s.tap with
      capture := if s.inReserve pa = true then 0 else (s.rdByte pa).toNat } } := by
  have read : s.physRead pa = s.rdByte pa := by
    have : ¬pa < 0x880000 := by omega
    simp [State.physRead, hok, this]
  have cap : leNat ((addrs pa 1).map (fun x => if s.inReserve x then 0 else s.physRead x))
      = if s.inReserve pa = true then 0 else (s.rdByte pa).toNat := by
    rw [← read]
    cases hr : s.inReserve pa <;> simp [addrs, leNat, hr]
  simp only [State.debugAccess, hg, if_true, cap]

/-- R71, R72: a register that Table 5 of 03 does not open takes no write. -/
theorem State.debugAccess_regWrite_shut (s : State) (off size v : Nat) (b : Block) (o : Nat)
    (hb : blockAt off = some (b, o)) (h : debugWrites b o v = false) : s.debugAccess (.regWrite off size v) = s := by
  simp [State.debugAccess, hb, h]

/-- R71, R72: nor is it read. -/
theorem State.debugAccess_regRead_shut (s : State) (hg : s.granted 1 = true) (off size : Nat) (h : debugReads off = false) :
    s.debugAccess (.regRead off size) = { s with tap := { s.tap with capture := 0 } } := by
  simp [State.debugAccess, hg, h]

theorem State.store_cores (s : State) (cs : List (Nat × Byte)) : (s.store cs).cores = s.cores := by
  obtain ⟨_, _, _, h, _⟩ := s.store_spec cs
  rw [h]

theorem State.store_ctxs (s : State) (cs : List (Nat × Byte)) : (s.store cs).ctxs = s.ctxs := by
  obtain ⟨_, _, _, h, _⟩ := s.store_spec cs
  rw [h]

/-- R339, R350: a store of one byte: every byte reads as before but that one, where its channel can be written. -/
theorem State.rdByte_store_one (s : State) (hwf : Mem.wf s.dram.bytes = true) (pa a : Nat) (b : Byte) :
    (s.store [(pa, b)]).rdByte a = if a = pa ∧ s.unreadable pa = false then b else s.rdByte a := by
  cases hu : s.unreadable pa
  · have hput : s.putCells [(pa, b)] = { s with dram := { s.dram with bytes := s.dram.bytes.write pa b } } := by
      simp [State.putCells, hu]
    simp only [State.store, State.rdByte, hput, and_true]
    exact Mem.read_write _ _ _ _ hwf
  · have hput : s.putCells [(pa, b)] = s := by simp [State.putCells, hu]
    simp [State.store, State.rdByte, hput]

/-- R515: the port stores a byte of DRAM above set 0 outside the mirror reserve, and no other. -/
theorem State.debugAccess_memWrite (s : State) (hg : s.granted 1 = true) (hwf : Mem.wf s.dram.bytes = true) (pa : Nat)
    (b : Byte) :
    let t := s.debugAccess (.memWrite pa [b])
    t.cores = s.cores ∧ t.ctxs = s.ctxs
      ∧ ∀ a, t.rdByte a = if a = pa ∧ 0x1000000 ≤ pa ∧ s.physOk pa = true ∧ s.inReserve pa = false
          ∧ s.unreadable pa = false then b else s.rdByte a := by
  have access : s.debugAccess (.memWrite pa [b])
      = s.store (if s.physOk pa = true ∧ 0x1000000 ≤ pa ∧ s.inReserve pa = false then [(pa, b)] else []) := by
    simp [State.debugAccess, hg, addrs, List.filter_cons, and_assoc]
  rw [access]
  refine ⟨State.store_cores _ _, State.store_ctxs _ _, fun a => ?_⟩
  split
  · next hok =>
    obtain ⟨h1, h2, h3⟩ := hok
    simp only [s.rdByte_store_one hwf, h1, h2, h3, true_and]
  · next hok =>
    rw [if_neg (fun ⟨_, hpa, hp, hr, _⟩ => hok ⟨hp, hpa, hr⟩)]
    rfl

/-- Settles O45: the function's answers, then BAR0 and its held writes, two register halves, and the debug access port. -/
theorem functionAndRegisters : Obligations.FunctionAndRegisters := by
  intro s
  refine ⟨fun ha => ⟨?_, ?_, ?_, ?_⟩, ?_, ?_, ?_, ?_, ?_, ?_⟩
  · exact fun hb w off => ⟨_, exec_configurationRequest_boot s ha hb w off, rfl, rfl⟩
  · intro hb
    have hc : s.configured = true := by simp [State.configured, ha, hb]
    refine ⟨?_, ?_, ?_, exec_busMasterEnable s hc, exec_d3hotEnter s hc, exec_d0Enter s hc, ?_, ?_⟩
    · exact ⟨_, exec_configurationRequest_read s hc 0, rfl, s.configRead_ids, rfl⟩
    · exact ⟨_, exec_configurationRequest_read s hc 0x2B8, s.configRead_size_bytes⟩
    · exact fun off v => ⟨_, exec_configurationRequest_write s hc v off, rfl, rfl⟩
    · exact ⟨_, exec_doeDiscovery s hc, rfl, rfl⟩
    · exact ⟨_, exec_cdatRead s hc, rfl, s.cdat_span⟩
  · exact ⟨_, exec_mctpRequest s ha, rfl, s.t0_length⟩
  · obtain ⟨f, h, hp, hk⟩ :=
      State.post_frame { s with host := { s.host with ideKeyed := false } } (LogRec.mk0 9 sevRecoverable 2 0xE)
    exact ⟨_, (exec_ideIntegrityFailure s ha).trans (congrArg _ hp), rfl, hk, rfl, rfl, rfl⟩
  · intro off size v
    rw [exec_registerWrite_bar0]
    refine ⟨fun h => congrArg _ (s.barWrite_discarded off size v h),
      fun b o hb => ⟨?_, fun hd ha hs ho => ⟨?_, ?_⟩⟩⟩
    · exact fun h => congrArg _ (s.barWrite_unanswered off size v b o hb h)
    · intro hg
      obtain ⟨p, hp, hheld⟩ := s.holdWrite_frame b off size v
      rw [s.barWrite_gated off size v b o hb hd (barOk_of off size hs ho) ha hg, hp]
      exact ⟨_, rfl, rfl, hheld⟩
    · intro hg
      rw [s.barWrite_serves off size v b o (barOk_of off size hs ho) hb ⟨hd, ha, hg⟩, exec_heldAccessApply,
        s.heldApply_serves off size v b o hb ha hg]
      exact ⟨_, rfl, rfl⟩
  · intro h
    rw [exec_heldAccessApply, State.heldApply, h]
  · intro h r b o hh hb
    rw [exec_heldAccessApply, s.heldApply_cons h r b o hh hb]
    exact ⟨fun ha => by rw [if_pos ha], fun ha hg => by rw [ha, if_neg (by simp), if_pos hg]⟩
  · exact fun h _ v hv => congrArg _ (s.barWrite_qmgArg_upper h v hv)
  · exact fun h v hv => congrArg _ (s.barWrite_gstatus h v hv)
  · intro hl
    simp only [exec_debugPortAccess s hl]
    refine ⟨fun h a => congrArg _ (s.debugAccess_closed h a), fun hg => ⟨fun pa hpa hok => ?_, ?_, ?_, ?_⟩⟩
    · rw [s.debugAccess_memRead hg pa hpa hok]
      exact ⟨_, rfl, rfl, rfl⟩
    · exact fun off size v b o hb h => congrArg _ (s.debugAccess_regWrite_shut off size v b o hb h)
    · exact fun off size h => congrArg _ (s.debugAccess_regRead_shut hg off size h)
    · exact fun hwf pa b => ⟨_, rfl, s.debugAccess_memWrite hg hwf pa b⟩

end Sys2Proof.Machine
end

section
/-!
PROOFS. The structure image manager's registers: what a write of SIM.CMD begins, staging, and SIM.CHUNK (O4).
-/
namespace Sys2Proof.Machine

/-! ## Writes of the SIM -/

/-- R56: a 64-bit write of SIM.CMD that the SIM takes. -/
theorem State.barWrite_simCmd (s : State) (h : s.serves .sim) (v : Nat) (hv : v < 2 ^ 64) :
    s.barWrite 0x100000 8 v = s.simCmd v := by
  have write : s.blockWrite .sim 0 8 v = s.simCmd ((v % 2 ^ 64) &&& (2 ^ 64 - 1)) := rfl
  rw [State.barWrite_serves s 0x100000 8 v .sim 0 rfl rfl h, write, Nat.mod_eq_of_lt hv,
    Nat.and_two_pow_sub_one_of_lt_two_pow hv]

/-- Table 5 of 02: the five commands are writes of SIM.CMD with their codes. -/
theorem exec_simCommands (s : State) (h : s.serves .sim) :
    exec .clear s = .next (s.simCmd 1) ∧ exec .deposit s = .next (s.simCmd 2) ∧ exec .verify s = .next (s.simCmd 3)
      ∧ exec .commit s = .next (s.simCmd 4) ∧ exec .release s = .next (s.simCmd 5) :=
  have write (v : Nat) (hv : v < 2 ^ 64) := congrArg Host.Outcome.next (s.barWrite_simCmd h v hv)
  ⟨write 1 (by decide), write 2 (by decide), write 3 (by decide), write 4 (by decide), write 5 (by decide)⟩

/-- R512: SIM.CHUNK stands at 0x1000 of the SIM's block. -/
theorem blockAt_simChunk (o : Nat) (h : o < 0x1000) : blockAt (0x101000 + o) = some (.sim, 0x1000 + o) := by
  have hq : (0x101000 + o) / 0x100000 = 1 := by omega
  have hr : (0x101000 + o) % 0x100000 = 0x1000 + o := by omega
  rw [blockAt, if_neg (by omega), hq, hr]
  rfl

/-- R56: an aligned write of SIM.CHUNK stores its bytes. -/
theorem exec_simChunkWrite (s : State) (h : s.serves .sim) (o size v : Nat) (ho : o < 0x1000) (hs : size = 4 ∨ size = 8)
    (ha : o % size = 0) :
    exec (.simChunkWrite o size v) s = .next { s with sim := { s.sim with chunk := s.sim.chunk.writeLe o size v } } := by
  have aligned : (0x101000 + o) % size = 0 := by obtain rfl | rfl := hs <;> omega
  have write : s.blockWrite .sim (0x1000 + o) size v = s.simChunk o size v := by
    rw [State.blockWrite, if_pos (by omega), Nat.add_sub_cancel_left]
  show execSimChunkWrite o size v s = _
  rw [execSimChunkWrite, if_pos ho,
    State.barWrite_serves s _ size v .sim _ (barOk_of _ size hs aligned) (blockAt_simChunk o ho) h, write, State.simChunk]

/-- R4: byte k of a number. -/
theorem leBytes_getD (n v k : Nat) (h : k < n) : (leBytes n v).getD k 0 = BitVec.ofNat 8 (v / 256 ^ k) := by
  induction n generalizing v k with
  | zero => omega
  | succ n ih =>
    cases k with
    | zero => simp [leBytes]
    | succ k =>
      rw [leBytes, List.getD_cons_succ, ih _ k (by omega), Nat.div_div_eq_div_mul, Nat.pow_succ']

/-- R4: a byte after a little-endian write. -/
theorem Mem.read_writeLe (m : Mem) (a n v c : Nat) (h : m.wf = true) :
    (m.writeLe a n v).read c = if a ≤ c ∧ c < a + n then BitVec.ofNat 8 (v / 256 ^ (c - a)) else m.read c := by
  rw [Mem.writeLe, Mem.read_writeBytes m a c _ h, leBytes_length]
  split
  · exact leBytes_getD n v (c - a) (by omega)
  · rfl

/-! ## Granules -/

theorem nsHas_iff (t : List Nat) (g : Nat) : nsHas t g = true ↔ g ∈ t := List.contains_iff_mem

theorem mem_nsIns (t : List Nat) (a g : Nat) : g ∈ nsIns t a ↔ g = a ∨ g ∈ t := by
  rw [← nsHas_iff, nsHas_nsIns, Bool.or_eq_true, decide_eq_true_eq, nsHas_iff]

theorem mem_nsInsRange (t : List Nat) (a n g : Nat) : g ∈ nsInsRange t a n ↔ g ∈ t ∨ a ≤ g ∧ g < a + n := by
  induction n generalizing t a with
  | zero => exact ⟨.inl, fun h => h.resolve_right (by omega)⟩
  | succ n ih =>
    rw [nsInsRange, ih, mem_nsIns, or_comm (a := g = a), or_assoc]
    exact or_congr_right (by omega)

theorem Mem.length_readBytes (m : Mem) (a n : Nat) : (m.readBytes a n).length = n := by
  simp [Mem.readBytes_eq]

/-- A byte of a copy of n bytes of another memory. -/
theorem Mem.read_copy (m x : Mem) (o n a : Nat) (h : m.wf = true) :
    (m.writeBytes o (x.readBytes 0 n)).read a = if o ≤ a ∧ a < o + n then x.read (a - o) else m.read a := by
  rw [Mem.read_writeBytes m o a _ h, Mem.length_readBytes]
  split
  · next ha => simp [Mem.readBytes_eq, show a - o < n by omega]
  · rfl

/-! ## What SIM.CMD accepts -/

section Permits

variable (s : State)

/-- Table 5 of 02, R43: CLEAR is accepted wherever the SIM answers. -/
theorem State.simPermits_clear (h : s.serves .sim) : s.simPermits 1 = true := by
  obtain ⟨-, ha, -⟩ := h
  delta State.answers at ha
  cases hl : s.dev.life <;> simp [State.simPermits, hl] at ha ⊢

variable (hset : s.settled)
include hset

/-- Table 5 of 02: DEPOSIT, VERIFY and COMMIT are accepted in UNCLAIMED, HELD and SERVICE. -/
theorem State.simPermits_image (op : Nat) (h1 : op ≠ 1) (h5 : op ≠ 5)
    (hl : s.dev.life = .unclaimed ∨ s.dev.life = .held ∨ s.dev.life = .service) : s.simPermits op = true := by
  obtain ⟨hrec, -⟩ := hset
  obtain hl | hl | hl := hl <;> simp [State.simPermits, hrec, h1, h5, hl]

/-- Table 5 of 02: RELEASE is accepted in SERVICE. -/
theorem State.simPermits_release (hl : s.dev.life = .service) : s.simPermits 5 = true := by
  obtain ⟨hrec, -⟩ := hset
  simp [State.simPermits, hrec, hl]

end Permits

theorem State.simCmd_clear (s : State) (hidle : s.sim.cmd.busy = false) (hp : s.simPermits 1 = true) :
    s.simCmd 1 = s.simClear.simDone 1 0 0 0 := by
  simp [State.simCmd, hidle, bits, hp]

theorem State.simCmd_deposit (s : State) (hidle : s.sim.cmd.busy = false) (hp : s.simPermits 2 = true) :
    s.simCmd 2 = s.deposit := by
  simp [State.simCmd, hidle, bits, hp]

/-! ## Staging -/

/-- R41: the condition on LENGTH and OFFSET of a DEPOSIT. -/
def Sim.depositOk (x : Sim) : Prop :=
  64 ≤ x.chunkLen ∧ x.chunkLen ≤ 4096 ∧ x.chunkLen % 64 = 0 ∧ x.chunkOff % 64 = 0 ∧ x.chunkOff + x.chunkLen ≤ 65536

/-- R41: a DEPOSIT that breaks a condition is BAD_CHUNK. -/
theorem State.deposit_bad (s : State) (h : ¬s.sim.depositOk) : s.deposit = s.simDone 2 0x12 0 0 := by
  rw [State.deposit, if_pos]
  unfold Sim.depositOk at h
  omega

/-- R41, R44: a DEPOSIT copies the chunk and marks its granules present. -/
theorem State.deposit_ok (s : State) (h : s.sim.depositOk) :
    s.deposit = { s with sim := { s.sim with
      staging := s.sim.staging.writeBytes s.sim.chunkOff (s.sim.chunk.readBytes 0 s.sim.chunkLen)
      stagingPoison := nsDelRange s.sim.stagingPoison (s.sim.chunkOff / 32) (s.sim.chunkLen / 32)
      present := nsInsRange s.sim.present (s.sim.chunkOff / 64) (s.sim.chunkLen / 64) } }.simDone 2 0 0 0 := by
  rw [State.deposit, if_neg]
  unfold Sim.depositOk at h
  omega

/-- R44: whole granules: those from OFFSET on are those before OFFSET + LENGTH. -/
theorem Sim.depositOk.granules {x : Sim} (h : x.depositOk) :
    x.chunkOff / 64 + x.chunkLen / 64 = (x.chunkOff + x.chunkLen) / 64 := by
  unfold Sim.depositOk at h
  omega

/-- Settles O4: each staging command is its write of SIM.CMD, whose effect on bytes and granules reads off the tables. -/
theorem simStaging : Obligations.SimStaging := by
  intro s hs hset hstag hchunk
  obtain ⟨clear, deposit, -⟩ := exec_simCommands s hs
  refine ⟨fun hidle => ⟨?_, fun hl => ⟨fun hok => ?_, fun hbad => ?_⟩⟩, fun o size v ho hsize ha => ?_⟩
  · rw [clear, s.simCmd_clear hidle (s.simPermits_clear hs)]
    exact ⟨_, rfl, rfl, rfl, rfl, rfl⟩
  · have hok : s.sim.depositOk := hok
    rw [deposit, s.simCmd_deposit hidle (s.simPermits_image hset 2 (by decide) (by decide) hl), s.deposit_ok hok]
    refine ⟨_, rfl, rfl, fun a => Mem.read_copy _ _ _ _ a hstag, fun g => ?_, rfl⟩
    rw [← hok.granules]
    exact mem_nsInsRange _ _ _ g
  · rw [deposit, s.simCmd_deposit hidle (s.simPermits_image hset 2 (by decide) (by decide) hl), s.deposit_bad hbad]
    exact ⟨_, rfl, rfl, rfl, rfl, rfl⟩
  · exact ⟨_, exec_simChunkWrite s hs o size v ho hsize ha, rfl, fun a => Mem.read_writeLe _ o size v a hchunk⟩

end Sys2Proof.Machine
end

section
/-!
PROOFS. The checks of Table 6 of 02 and the sequence rule (O6).
-/
namespace Sys2Proof.Machine

/-- R46: the sequence check, as the manual words it. -/
theorem State.seqOk_iff (s : State) (vendor : Bool) (seq : Nat) (dg : Digest) :
    s.seqOk vendor seq dg = true ↔
      (if vendor then s.sim.vendorFloor else s.sim.ownerFloor) < seq
      ∨ seq = (if vendor then s.sim.vendorFloor else s.sim.ownerFloor)
        ∧ (if vendor then s.sim.vendorFloor else s.sim.ownerFloor) ≠ 0
        ∧ dg = (if vendor then s.sim.vendorDigest else s.sim.ownerDigest) := by
  simp only [State.seqOk, Bool.or_eq_true, Bool.and_eq_true, decide_eq_true_eq, and_assoc]

/-- A list of checks ends without a code when its first check passes and the others do. -/
theorem firstCode_cons_eq_zero (c : Nat) (b : Bool) (r : List (Nat × Bool)) (hc : c ≠ 0) :
    firstCode ((c, b) :: r) = 0 ↔ b = false ∧ firstCode r = 0 := by
  cases b <;> simp [firstCode, hc]

/-- A field of the staged image reads the same however much more of the image is read with it. -/
theorem State.leAt_staged (s : State) (o n total : Nat) (h : o + n ≤ total) : leAt (s.staged 0 total) o n = s.stagedNat o n := by
  have slice : ((s.staged 0 total).drop o).take n = s.staged o n := by
    simp only [State.staged, Mem.readBytes_eq]
    apply List.ext_getElem
    · simp; omega
    · simp
  rw [leAt, slice, State.stagedNat]

/-- R45: checks that end without a failing code passed a first group of them, and then the rest. -/
theorem SimRes.ok_of_ite {c : Nat} {r : SimRes} {i : Image} (h : (if c ≠ 0 then .bad c 0 0 else r) = .ok i) :
    c = 0 ∧ r = .ok i := by
  split at h
  · cases h
  · next hc => exact ⟨Decidable.not_not.1 hc, h⟩

/-- R45: checks that end without a failing code describe the image staged, whose sequence they have checked under the
role that its header names. -/
theorem State.simCheck_ok (s : State) (i : Image) (h : s.simCheck = .ok i) :
    ∃ body total es, i = imageOf (s.staged 0 total) es body total ∧ 64 ≤ total
      ∧ s.seqOk (decide (leAt (s.staged 0 64) 0x0C 1 = 1)) (leAt (s.staged 0 total) 0x18 8)
          (BitVec.ofNat 512 (leAt (s.staged 0 total) body 64)) = true := by
  unfold State.simCheck at h
  dsimp only at h
  obtain ⟨early, h⟩ := SimRes.ok_of_ite h
  obtain ⟨late, h⟩ := SimRes.ok_of_ite h
  split at h
  · cases h
  split at h
  · cases h
  split at h
  · cases h
  cases h
  simp (disch := decide) only [firstCode_cons_eq_zero, Bool.or_eq_false_iff, decide_eq_false_iff_not] at early late
  obtain ⟨-, -, -, ⟨⟨-, htotal⟩, -⟩, -⟩ := early
  obtain ⟨-, -, hseq, -⟩ := late
  exact ⟨_, _, _, rfl, by omega, by rwa [Bool.not_eq_false'] at hseq⟩

/-- Settles O6: the rule is the check's own test, and the checks run it on the fields that the image then carries. -/
theorem sequenceRule : Obligations.SequenceRule := by
  refine ⟨State.seqOk_iff, fun s i h => ?_⟩
  obtain ⟨body, total, es, rfl, htotal, hseq⟩ := s.simCheck_ok i h
  rw [s.leAt_staged 0x0C 1 64 (by decide), ← s.leAt_staged 0x0C 1 total (by omega)] at hseq
  exact hseq

end Sys2Proof.Machine
end

section
/-!
PROOFS. VERIFY, COMMIT and RELEASE: what the SIM begins, how a passing image comes in force, and what is left when the
device departs from SERVICE (O5).
-/
namespace Sys2Proof.Machine

/-! ## What a change of LIFE keeps -/

/-- R15, R388: a change of LIFE changes the device's own bits and the interrupt that reports it. -/
theorem State.setLife_frame (s : State) (l : Life) :
    ∃ f c h, s.setLife l = { s with dev := { s.dev with life := l, frost := f, stateChanged := c }, host := h } := by
  unfold State.setLife State.setChanged
  dsimp only
  split
  · exact ⟨_, _, _, rfl⟩
  · split <;> exact ⟨_, _, _, rfl⟩

theorem State.setLife_keeps (s : State) (l : Life) :
    (s.setLife l).dev.life = l ∧ (s.setLife l).sim = s.sim ∧ (s.setLife l).ctxs = s.ctxs ∧ (s.setLife l).qmg = s.qmg
      ∧ (s.setLife l).dev.twnAliveOut = s.dev.twnAliveOut := by
  obtain ⟨f, c, h, hl⟩ := s.setLife_frame l
  rw [hl]
  exact ⟨rfl, rfl, rfl, rfl, rfl⟩

/-- As State.setLife_frame, with the retrains that then start (R347). -/
theorem State.toLife_frame (s : State) (l : Life) :
    ∃ f c h m, s.toLife l
      = { s with dev := { s.dev with life := l, frost := f, stateChanged := c }, host := h, mcu := m } := by
  obtain ⟨f, c, h, hl⟩ := s.setLife_frame l
  obtain ⟨m, hm⟩ := (s.setLife l).retrainAll_frame
  exact ⟨f, c, h, m, by rw [State.toLife, hm, hl]⟩

theorem State.toLife_sim (s : State) (l : Life) : (s.toLife l).sim = s.sim := by
  obtain ⟨f, c, h, m, ht⟩ := s.toLife_frame l
  rw [ht]

theorem State.toLife_life (s : State) (l : Life) : (s.toLife l).dev.life = l := by
  obtain ⟨f, c, h, m, ht⟩ := s.toLife_frame l
  rw [ht]

/-! ## What putting an image in force keeps -/

/-- The SIM and LIFE stay as they are. -/
def State.sameSim (s t : State) : Prop := t.sim = s.sim ∧ t.dev.life = s.dev.life

theorem State.sameSim_refl (s : State) : s.sameSim s := ⟨rfl, rfl⟩

theorem State.sameSim.trans {s t u : State} (h : s.sameSim t) (k : t.sameSim u) : s.sameSim u :=
  ⟨k.1.trans h.1, k.2.trans h.2⟩

theorem State.sameSim_foldl {α : Type} (l : List α) (f : State → α → State) (hf : ∀ (t : State) (x : α), t.sameSim (f t x))
    (s : State) : s.sameSim (l.foldl f s) := by
  induction l generalizing s with
  | nil => exact s.sameSim_refl
  | cons x r ih => exact (hf s x).trans (ih _)

theorem State.units_sameSim (s : State) (q : Qmg) (c : Cle) (w : Twc) (f : Flt) :
    s.sameSim { s with qmg := q, cle := c, twc := w, flt := f } := ⟨rfl, rfl⟩

theorem State.twnAlive_sameSim (s : State) (d : Dev) (h : d = s.dev) (b : Bool) :
    s.sameSim { s with dev := { d with twnAliveOut := b } } := ⟨rfl, by rw [h]⟩

theorem State.updCore_sameSim (s : State) (n : Nat) (f : Core → Core) : s.sameSim (s.updCore n f) := ⟨rfl, rfl⟩

theorem State.placeVm_sameSim (s : State) (ms : List Nat) : s.sameSim (s.placeVm ms) :=
  State.sameSim_foldl _ _ (fun t k => t.updCore_sameSim k _) s

/-- R40: forming the machines of a cluster. -/
theorem State.formCluster_sameSim (s : State) (i : Image) (c : Nat) : s.sameSim (s.formCluster i c) := by
  unfold State.formCluster
  extract_lets fit g work s1
  have h1 : s.sameSim s1 := by
    refine State.sameSim_foldl _ _ (fun t k => ?_) s
    exact .trans ⟨rfl, rfl⟩ (State.placeVm_sameSim _ _)
  exact h1.trans (State.sameSim_foldl _ _ (fun t n => t.updCore_sameSim n _) s1)

theorem State.formMachines_sameSim (s : State) (i : Image) : s.sameSim (s.formMachines i) :=
  State.sameSim.trans (t := { s with ple := { s.ple with vms := [] } }) ⟨rfl, rfl⟩
    (State.sameSim_foldl _ _ (fun t c => t.formCluster_sameSim i c) _)

theorem State.islandsAt_sameSim (s : State) (i : Image) : s.sameSim (s.islandsAt i) := ⟨rfl, rfl⟩

/-- R76, R436: blocks that the device reserves for itself. The pair is named so that the steps of a commit can name it. -/
theorem State.reserveRun_sameSim (s : State) (n : Nat) {r : State × Nat} (h : s.reserveRun n = r) : s.sameSim r.1 := by
  subst h
  unfold State.reserveRun
  split
  · exact s.sameSim_refl
  · split
    · exact s.sameSim_refl
    · dsimp only
      obtain ⟨d, c, m, h, -⟩ := State.fill_spec _ _
      rw [h]
      exact ⟨rfl, rfl⟩

theorem State.takeReserve_sameSim (s : State) (i : Image) : s.sameSim (s.takeReserve i) := by
  unfold State.takeReserve
  extract_lets n _ _ s1 r r1
  split
  · exact s.units_sameSim _ _ _ _
  · have h1 : s.sameSim s1 := ⟨rfl, rfl⟩
    exact h1.trans ((s1.reserveRun_sameSim (r := r) _ rfl).trans (r1.units_sameSim _ _ _ _))

theorem State.refuse_sameSim (s : State) (p k : Nat) : s.sameSim (s.refuse p k) := by
  obtain ⟨f, h, hp, -⟩ :=
    State.post_frame ((s.setPort p .refused).updPort p (fun x => { x with check := k })) (portRecord p (0x10 + k))
  rw [State.refuse, hp]
  exact ⟨rfl, rfl⟩

/-- R102, R106: the start of admission. -/
theorem State.startAdmission_sameSim (s : State) (p : Nat) : s.sameSim (s.startAdmission p) := by
  unfold State.startAdmission
  extract_lets s1 _ s2
  have h2 : s.sameSim s2 := by
    unfold s2
    split <;> exact ⟨rfl, rfl⟩
  split
  · exact h2.trans (s2.refuse_sameSim p 8)
  · exact h2.trans ⟨rfl, rfl⟩

/-- R412: a port under the image's role. -/
theorem State.applyRole_sameSim (s : State) (p : Nat) : s.sameSim (s.applyRole p) := by
  unfold State.applyRole
  split
  · exact ⟨rfl, rfl⟩
  · split
    · exact s.startAdmission_sameSim p
    · exact s.sameSim_refl

/-- R47, R48: the SIM's registers once an image is in force: CLEAR has been performed, and the floor of the signer role is
the image's. -/
def Sim.committed (x : Sim) (i : Image) : Sim :=
  { x with
    image := some i
    present := []
    ownerFloor := if i.vendor then x.ownerFloor else i.seq
    ownerDigest := if i.vendor then x.ownerDigest else i.digest
    vendorFloor := if i.vendor then i.seq else x.vendorFloor
    vendorDigest := if i.vendor then i.digest else x.vendorDigest }

/-- R48, R53: the SIM and LIFE of an image put in force. Only the first step changes the SIM, and only one LIFE. -/
theorem State.inForce_spec (s : State) (i : Image) :
    (s.inForce i).sim = s.sim.committed i ∧ (s.inForce i).dev.life = if i.vendor then .test else .service := by
  unfold State.inForce
  extract_lets _ s1 _ s2 s3 q q1 _ s4 c c1 _ _ _ _ s5 s6 s7 d
  have h1 : s1.sim = s.sim.committed i := rfl
  cases i.vendor with
  | true =>
    have machines (t : State) : t.sameSim ((t.formMachines i).islandsAt i) :=
      (t.formMachines_sameSim i).trans (State.islandsAt_sameSim _ i)
    exact ⟨by rw [if_pos rfl, State.toLife_sim, (machines _).1, h1], by rw [if_pos rfl, State.toLife_life]; rfl⟩
  | false =>
    have h3 : s1.sameSim s3 := (s1.formMachines_sameSim i).trans (s2.takeReserve_sameSim i)
    have h4 : s3.sameSim s4 := (s3.reserveRun_sameSim (r := q) _ rfl).trans (q1.units_sameSim _ _ _ _)
    have h5 : s4.sameSim s5 := (s4.reserveRun_sameSim (r := c) 4096 rfl).trans (c1.units_sameSim _ _ _ _)
    have h6 : s6 = (s5.islandsAt i).toLife .service := rfl
    have h7 : s6.sameSim s7 := State.sameSim_foldl _ _ State.applyRole_sameSim s6
    have sim : s7.sim = s.sim.committed i := by
      rw [h7.1, h6, State.toLife_sim, (s5.islandsAt_sameSim i).1, h5.1, h4.1, h3.1, h1]
    have life : s7.dev.life = .service := by rw [h7.2, h6, State.toLife_life]
    have h8 := s7.twnAlive_sameSim d rfl i.paired
    rw [if_neg (by decide), if_neg (by decide)]
    exact ⟨h8.1.trans sim, h8.2.trans life⟩

/-! ## What leaving SERVICE ends -/

/-- R51: no image, context or queue is left, and TWN_ALIVE is low. -/
theorem State.goDark_spec (s : State) :
    s.goDark.sim.image = none ∧ s.goDark.ctxs = [] ∧ s.goDark.qmg.queues = [] ∧ s.goDark.dev.twnAliveOut = false :=
  ⟨rfl, rfl, rfl, rfl⟩

/-- R51: the device is in HELD. -/
theorem State.depart_spec (s : State) :
    s.depart.dev.life = .held ∧ s.depart.sim.image = none ∧ s.depart.ctxs = [] ∧ s.depart.qmg.queues = []
      ∧ s.depart.dev.twnAliveOut = false := by
  obtain ⟨life, sim, ctxs, qmg, alive⟩ := State.setLife_keeps (s.leaveFrost.dropHost.emptyCores.emptySlices).goDark .held
  rw [State.depart, life, sim, ctxs, qmg, alive]
  exact ⟨rfl, State.goDark_spec _⟩

/-- R50: work in flight. -/
theorem State.busyWork_iff (s : State) : s.busyWork = true ↔ s.qmg.descs ≠ [] ∨ ∃ m ∈ s.ple.moves, m.started = true := by
  simp [State.busyWork]

/-! ## What SIM.CMD begins -/

section Registers

variable (s : State) (op code sec off : Nat) (r : SimRun)

@[simp] theorem State.simDone_dev : (s.simDone op code sec off).dev = s.dev := rfl
@[simp] theorem State.simDone_sim : (s.simDone op code sec off).sim
    = { s.sim with cmd := s.sim.cmd.finish op code, section_ := sec, fieldOffset := off, run := none } := rfl
@[simp] theorem State.simBegin_dev : (s.simBegin op r).dev = s.dev := rfl
@[simp] theorem State.simBegin_ctxs : (s.simBegin op r).ctxs = s.ctxs := rfl
@[simp] theorem State.simBegin_qmg : (s.simBegin op r).qmg = s.qmg := rfl
@[simp] theorem State.simBegin_sim : (s.simBegin op r).sim
    = { s.sim with cmd := s.sim.cmd.begin_ op, section_ := 0, fieldOffset := 0, run := some r } := rfl

end Registers

section Idle

variable (s : State) (hidle : s.sim.cmd.busy = false) (hset : s.settled)
include hidle hset

theorem State.simCmd_verify (hl : s.dev.life = .unclaimed ∨ s.dev.life = .held) : s.simCmd 3 = s.simBegin 3 .verify := by
  have hp := s.simPermits_image hset 3 (by decide) (by decide) (hl.imp_right .inl)
  simp [State.simCmd, hidle, bits, hp]

theorem State.simCmd_commit (hl : s.dev.life = .unclaimed ∨ s.dev.life = .held) : s.simCmd 4 = s.simBegin 4 .commit := by
  have hp := s.simPermits_image hset 4 (by decide) (by decide) (hl.imp_right .inl)
  have outside : s.dev.life ≠ .service := by obtain hl | hl := hl <;> simp [hl]
  simp [State.simCmd, hidle, bits, hp, outside]

/-- R50, R51: COMMIT in SERVICE ends IN_FLIGHT, or begins once the device has left SERVICE. -/
theorem State.simCmd_commit_service (hl : s.dev.life = .service) :
    s.simCmd 4 = if s.busyWork then s.simDone 4 0x11 0 0 else s.depart.simBegin 4 .commit := by
  have hp := s.simPermits_image hset 4 (by decide) (by decide) (.inr (.inr hl))
  simp [State.simCmd, hidle, bits, hp, hl]

/-- R50, R51: as State.simCmd_commit_service, for RELEASE. -/
theorem State.simCmd_release_service (hl : s.dev.life = .service) :
    s.simCmd 5 = if s.busyWork then s.simDone 5 0x11 0 0 else s.depart.simBegin 5 .release := by
  have hp := s.simPermits_release hset hl
  simp [State.simCmd, hidle, bits, hp, hl]

end Idle

/-! ## How the SIM finishes -/

section Finish

variable (s : State)

theorem exec_imageChecksComplete : exec .imageChecksComplete s = .next s.simFinish := rfl

theorem State.simFinish_verify_bad (hr : s.sim.run = some .verify) (c sec o : Nat) (hc : s.simCheck = .bad c sec o) :
    s.simFinish = s.simDone 3 c sec o := by
  simp [State.simFinish, hr, hc]

theorem State.simFinish_verify_ok (hr : s.sim.run = some .verify) (i : Image) (hc : s.simCheck = .ok i) :
    s.simFinish = s.simDone 3 0 0 0 := by
  simp [State.simFinish, hr, hc]

theorem State.simFinish_commit_bad (hr : s.sim.run = some .commit) (c sec o : Nat) (hc : s.simCheck = .bad c sec o) :
    s.simFinish = s.simDone 4 c sec o := by
  simp [State.simFinish, hr, hc]

theorem State.simFinish_commit_ok (hr : s.sim.run = some .commit) (i : Image) (hc : s.simCheck = .ok i) :
    s.simFinish = (s.inForce i).simDone 4 0 0 0 := by
  simp [State.simFinish, hr, hc]

/-- R53: a RELEASE in TEST with no pack run ends the image, then changes LIFE. -/
theorem State.simFinish_release_test (hr : s.sim.run = some .release) (hl : s.dev.life = .test) (hp : s.svm.packRun = none) :
    ∃ t : State, s.simFinish = (t.toLife s.restLife).simDone 5 0 0 0 ∧ t.sim.image = none := by
  refine ⟨{ s with
    sim := { s.sim with image := none }
    svm := { s.svm with packBegun := false }
    ple := { s.ple with vms := [] }
    cores := s.cores.map Core.parked
    dev := { s.dev with testFactory := false } }, ?_, rfl⟩
  simp [State.simFinish, hr, hl, hp]

end Finish

/-- Settles O5: what each command's write begins, then what the SIM leaves when it finishes. -/
theorem simVerifyCommitRelease : Obligations.SimVerifyCommitRelease := by
  intro s
  simp only [exec_imageChecksComplete]
  refine ⟨fun hs hset hidle => ?_, fun hr => ?_, fun hr c sec o hc => ?_, fun hr i hi => ?_, fun hr hl hp => ?_⟩
  · obtain ⟨-, -, verify, commit, release⟩ := exec_simCommands s hs
    rw [verify, commit, release]
    refine ⟨fun hl => ?_, fun hl hwork => ?_, fun hl hdescs hmoves => ?_⟩
    · rw [s.simCmd_verify hidle hset hl, s.simCmd_commit hidle hset hl]
      exact ⟨⟨_, rfl, rfl, rfl, rfl, rfl, rfl⟩, ⟨_, rfl, rfl, rfl, rfl, rfl, rfl, rfl⟩⟩
    · rw [s.simCmd_commit_service hidle hset hl, s.simCmd_release_service hidle hset hl, if_pos (s.busyWork_iff.2 hwork),
        if_pos (s.busyWork_iff.2 hwork)]
      exact ⟨⟨_, rfl, rfl, rfl, rfl, rfl, rfl⟩, ⟨_, rfl, rfl, rfl, rfl⟩⟩
    · have idle : ¬s.busyWork = true := by simpa [s.busyWork_iff, hdescs] using hmoves
      obtain ⟨life, image, ctxs, queues, alive⟩ := s.depart_spec
      rw [s.simCmd_release_service hidle hset hl, if_neg idle]
      exact ⟨_, rfl, by simp [life, image, ctxs, queues, alive, CmdSt.begin_]⟩
  · cases hc : s.simCheck with
    | bad c sec o =>
      rw [s.simFinish_verify_bad hr c sec o hc]
      exact ⟨_, rfl, rfl, rfl, rfl, rfl, rfl, rfl, rfl, rfl, rfl⟩
    | ok i =>
      rw [s.simFinish_verify_ok hr i hc]
      exact ⟨_, rfl, rfl, rfl, rfl, rfl, rfl, rfl, rfl, rfl, rfl⟩
  · rw [s.simFinish_commit_bad hr c sec o hc]
    exact ⟨_, rfl, rfl, rfl, rfl, rfl, rfl, rfl, rfl, rfl, rfl⟩
  · obtain ⟨sim, life⟩ := s.inForce_spec i
    rw [s.simFinish_commit_ok hr i hi]
    exact ⟨_, rfl, by simp [sim, life, Sim.committed, CmdSt.finish]⟩
  · obtain ⟨t, ht, image⟩ := s.simFinish_release_test hr hl hp
    rw [ht]
    exact ⟨_, rfl, by simp [State.toLife_life, State.toLife_sim, image, State.restLife, CmdSt.finish]⟩

end Sys2Proof.Machine
end

section
/-!
PROOFS. The matrix unit (O23): poison at the output stage where the lead of the machine stands in a second machine, whose
share is ending.
-/
namespace Sys2Proof.Machine

/-- R255: an output row that meets poison stops the units of its machine, and nothing else happens. -/
theorem exec_mxOutputRow_poisoned (s : State) (n : Nat) (j : MxJob) (r : List MxJob) :
    let v := j.view
    let rows := v.oN - v.o0
    let nt := j.tileNo v (j.row / rows)
    let c0 := v.n0 + 32 * nt
    (s.core n).mx.jobs = j :: r → j.phase = .output → rows ≠ 0 → s.mxTileReady n j v nt = true →
      s.mxZBad n j v (v.o0 + j.row % rows) (addrs c0 (min 32 (v.nN - c0))) = true →
      exec (.mxOutputRow n) s = .next (s.mxPoison n none) := by
  intro v rows nt c0 hjobs hphase hrows hready hbad
  have hgo : ¬(j.phase ≠ .output ∨ rows = 0 ∨ s.mxTileReady n j v nt = false) := by simp [hphase, hrows, hready]
  show execMxOutputRow n s = _
  simp only [execMxOutputRow, hjobs]
  rw [if_neg hgo, if_pos hbad]

/-- A product of 1 x 1 by 1 x 64 in FP32, with one slot in each unit of a gang of two (Table 3 of 09). -/
def gangDescriptor : List Byte :=
  leBytes 4 0x1111 ++ zeros 4 ++ leBytes 2 1 ++ leBytes 1 0 ++ leBytes 1 1 ++ leBytes 4 64 ++ leBytes 4 1 ++ zeros 28
    ++ leBytes 4 4 ++ leBytes 4 256 ++ leBytes 4 256 ++ zeros 68

/-- A member's share of it, one N tile, in its output stage. -/
def gangShare (member : Nat) : MxJob :=
  { mxJob gangDescriptor [] 0 2 member 0 1 0 64 0 1 none with phase := .output }

/-- A core whose unit holds a member's share, with poison in some words of its accumulators. -/
def gangCore (member : Nat) (poison : List Nat) : Core :=
  { Core.reset with mx := { Mx.reset with jobs := [gangShare member], zPoison := poison } }

/-- Cores 0 and 2 run the product as one machine, and core 2's accumulators hold poison. The list of machines names core 0
a second time, and first, as the partner of core 5, whose share has ended but for matrix work. -/
def overlapping : State :=
  { State.reset with
    cores := ((State.reset.cores.set 0 (gangCore 0 [])).set 2 (gangCore 1 [0])).set 5 { Core.reset with ending := true }
    ple := { State.reset.ple with vms := [⟨[5, 0], true, 0, 0⟩, ⟨[0, 2], true, 0, 0⟩] } }

/-- R237: core 2's row waits for no other member. -/
theorem overlapping_ready : overlapping.mxTileReady 2 (gangShare 1) (gangShare 1).view 1 = true := by decide

/-- R255: core 2's row meets poison. -/
theorem overlapping_bad : overlapping.mxZBad 2 (gangShare 1) (gangShare 1).view 0 (addrs 32 32) = true := by decide

/-- The drop of core 0's job lets the share of core 5 end, and that end takes the exception that waits for core 0, the other
core of core 5's machine. -/
theorem overlapping_exception_lost : ((overlapping.mxPoison 2 none).core 0).deliver = none := by decide +kernel

/-- Refutes O23: where two machines share a core, poison need not leave an exception at the lead. The statement lacks the
hypothesis that every core of the machine of n has the lead of n. -/
theorem not_matrixProduct : ¬ Obligations.MatrixProduct := by
  intro h
  obtain ⟨-, -, -, unit, -⟩ := h overlapping 2 (by decide) rfl (by decide) (fun _ => rfl)
  obtain ⟨-, -, -, poisoned, -⟩ := unit (gangShare 1) [] rfl rfl
  obtain ⟨t, ht, hlead⟩ := poisoned ⟨rfl, by decide, overlapping_ready⟩ overlapping_bad
  have hexec : exec (.mxOutputRow 2) overlapping = .next (overlapping.mxPoison 2 none) :=
    exec_mxOutputRow_poisoned overlapping 2 (gangShare 1) [] rfl rfl (by decide) overlapping_ready overlapping_bad
  obtain rfl : overlapping.mxPoison 2 none = t := Host.Outcome.next.inj (hexec.symm.trans ht)
  obtain ⟨-, x, hx, -⟩ := hlead rfl rfl
  exact nomatch overlapping_exception_lost.symm.trans hx

end Sys2Proof.Machine
end
